-- ==== Sys2Proof/Word.lean ====
section
/-! DEFINITION. The plain words of the model: the part's numbers are integers in stated ranges, and its
numbered collections are tables keyed by number. -/

namespace Sys2Proof

/-- One byte of a frame, 0 to 255 (R206). The range is checked by `Instr.wf`, not by the type. -/
abbrev Byte := Nat

/-- A mass in grams (R4, chapter "Conventions"). Net weights and dose errors are `Int`. -/
abbrev Grams := Nat

/-- A duration in tenths of a second (chapter "Conventions"). -/
abbrev Tenths := Nat

/-- A table of numbered records: (number, record) pairs with rising numbers.
A number that is not listed has the record that the table's owner names as its default. -/
abbrev Table (α : Type) := List (Nat × α)

/-- The largest value of a 32-bit mass or counter. -/
abbrev max32 : Nat := 4294967295

/-- The largest value of a 16-bit counter. -/
abbrev max16 : Nat := 65535

end Sys2Proof
end

