-- ==== Sys2Proof/Config.lean ====
section
/-! DEFINITION. What the part fixes: the capacities of its collections and the ranges of its numbers.

The manual leaves no VALUE open that a command's effect needs, so there is no opaque constant here: what comes from
outside (a converter's count, an input's level, an analog position, the outcome of a store write) is an operand of the
command that brings it. notes/assumptions/22.md says so. -/

namespace Sys2Proof.Config

/-- Bins 1 to 48 (R32). -/
abbrev binCount : Nat := 48
/-- Live reservations (R52). -/
abbrev reservationCap : Nat := 192
/-- Lot entries of a bin, and pairs of a lot tally (R48, R51). -/
abbrev lotCap : Nat := 4
/-- Discrete inputs, and discrete outputs (R60, R64). -/
abbrev pinCount : Nat := 64
/-- Speed outputs (R67). -/
abbrev speedCount : Nat := 16
/-- Routes (R71). -/
abbrev routeCount : Nat := 32
/-- Shared resources (R71). -/
abbrev resourceCount : Nat := 16
/-- Transfer slots (R74). -/
abbrev slotCap : Nat := 12
/-- Formulas, and steps of one (R86). -/
abbrev formulaCount : Nat := 32
/-- Steps of a formula (R86). -/
abbrev stepCap : Nat := 24
/-- Live batches (R93). -/
abbrev batchCap : Nat := 8
/-- Live grind requests (R115). -/
abbrev grindCap : Nat := 8
/-- Profiles (R134). -/
abbrev profileCount : Nat := 16
/-- Queued runs of a press (R137). -/
abbrev runCap : Nat := 8
/-- Bag runs (R160). -/
abbrev bagCap : Nat := 4
/-- Orders (R176). -/
abbrev orderCap : Nat := 24
/-- Dispatch records (R191). -/
abbrev dispatchCap : Nat := 8
/-- Frames of the receive queue, and replies of the reply queue (R213, R214). -/
abbrev linkCap : Nat := 4
/-- Samples of a channel's history (R8, R9). -/
abbrev historyCap : Nat := 32
/-- The most body bytes of a frame (R206). -/
abbrev bodyCap : Nat := 250

/-- How many consequences of one command the model works out before it gives up with
`Fault.cascadeUnfinished`. DESIGN CHOICE, safe: the manual sets no bound (notes/assumptions/2.md). -/
abbrev cascadeBound : Nat := 20000

end Sys2Proof.Config
end

