-- ==== Sys2Proof/Syntax.lean ====
section
/-! DEFINITION. The commands the part takes, one constructor per row of spec/opcode_table.json.

A request row carries the tag of its frame and the fields of its body as RAW NUMBERS, in the order of the
request's entry (R207): an enumerated field is its code, a yes-or-no field is 0 or 1. A value outside its range
is thus a term of the type, and the request's meaning refuses it as its rule says.
An event row carries what the plant or the line gives with it. -/

namespace Sys2Proof

/-- The fields of a weigh channel's configuration, in the order of R7. -/
structure ChannelConfig where
  capacity : Nat
  division : Nat
  zero : Int
  span : Nat
  filterLen : Nat
  motionWindow : Nat
  motionBand : Nat
  zeroBand : Nat
  emptyBand : Nat
  settleTime : Tenths
  fmax : Nat
  gain : Nat
  window : Nat
  deriving DecidableEq, Repr

/-- The fields of a bin's definition, raw, in the order of R33. `feederType` is 0 for a speed output and 1 for
a discrete output. -/
structure BinFields where
  kind : Nat
  code : Nat
  capacity : Nat
  lowMark : Nat
  highMark : Nat
  outlet : Nat
  feederType : Nat
  feederNumber : Nat
  fastSpeed : Nat
  slowSpeed : Nat
  fullRate : Nat
  slowBand : Nat
  inflight : Nat
  jogTime : Tenths
  jogLimit : Nat
  stallWindow : Tenths
  stallMass : Nat
  inletRoute : Nat
  outletRoute : Nat
  highProbe : Option Nat
  lowProbe : Option Nat
  grindSource : Nat
  grindScreen : Nat
  arming : Nat
  deriving DecidableEq, Repr

/-- One entry of a route's permissive list, raw: an input and the code of its required state (R71). -/
structure PermissiveField where
  input : Nat
  required : Nat
  deriving DecidableEq, Repr

/-- The fields of a formula step, raw, in the order of R87. `pattern` has bit k - 1 set for AUX_k. -/
structure StepFields where
  channel : Nat
  bin : Nat
  amount : Nat
  tolerance : Nat
  mark : Nat
  pattern : Nat
  deriving DecidableEq, Repr

/-- The mill settings, in the order of R121. -/
structure MillSettings where
  startTime : Tenths
  warmTime : Tenths
  drainTime : Tenths
  idleTime : Tenths
  rundownTime : Tenths
  isp : Nat
  kp : Nat
  ki : Nat
  uStart : Nat
  uMin : Nat
  uMax : Nat
  iTrip : Nat
  tripTime : Tenths
  iNoload : Nat
  noFlowTime : Tenths
  deriving DecidableEq, Repr

/-- The fields of a press profile, raw, in the order of R134. -/
structure ProfileFields where
  feedRate : Nat
  temperature : Nat
  loadLimit : Nat
  tripLevel : Nat
  tripTime : Tenths
  hysteresis : Nat
  coldBand : Nat
  carryBack : Nat
  deriving DecidableEq, Repr

/-- The fields of a press configuration, raw, in the order of R136. `triggers` has one bit per member, LOT_BOUNDARY
lowest, and `source` is the source number that goes with the member SOURCE (R207). -/
structure PressFields where
  surgeBin : Nat
  triggers : Nat
  source : Nat
  delay : Tenths
  buttonImmediate : Nat
  startTime : Tenths
  rundownTime : Tenths
  starveTime : Tenths
  resumeMass : Nat
  coldWait : Tenths
  deriving DecidableEq, Repr

/-- The fields of a press run, raw, in the order of R137. -/
structure RunFields where
  number : Nat
  profile : Nat
  product : Nat
  destination : Nat
  flushMass : Nat
  massLimit : Nat
  skip : Nat
  copyFlag : Nat
  deriving DecidableEq, Repr

/-- The fields of a bag run, raw, in the order of R160, number to tail count. -/
structure BagFields where
  number : Nat
  bin : Nat
  target : Nat
  count : Nat
  underTol : Nat
  overTol : Nat
  startTrigger : Nat
  startSource : Nat
  arming : Nat
  burstSize : Nat
  stopTrigger : Nat
  stopSource : Nat
  tail : Nat
  deriving DecidableEq, Repr

/-- The fields of one order line, raw, in the order of R178. `compartment` may be absent, and is looked at for a BULK line only. -/
structure LineFields where
  product : Nat
  form : Nat
  quantity : Nat
  underTol : Nat
  overTol : Nat
  compartment : Option Nat
  deriving DecidableEq, Repr

/-- The fields of SLOT_ARM, raw (R201). `order` and `line` are the target of POST_BAG and `press` that of
CHANGEOVER; each may be absent. -/
structure SlotFields where
  slot : Nat
  source : Nat
  action : Nat
  order : Option Nat
  line : Option Nat
  press : Option Nat
  count : Nat
  deriving DecidableEq, Repr

/-- One constructor per row of spec/opcode_table.json, in the table's order. -/
inductive Instr where
  -- Link and settings (R216 to R220)
  | identify (tag : Byte)
  | linkStatus (tag : Byte) (clear : Nat)
  | settingsSave (tag : Byte)
  | restart (tag : Byte)
  -- Weigh Unit requests (R14 to R31)
  | channelSet (tag : Byte) (channel : Nat) (cfg : ChannelConfig)
  | channelRead (tag : Byte) (channel : Nat)
  | zero (tag : Byte) (channel : Nat)
  | calSpan (tag : Byte) (channel : Nat) (mass : Nat)
  | inflightSet (tag : Byte) (bin : Nat) (value : Nat)
  -- Inventory Unit requests (R35 to R59)
  | binDefine (tag : Byte) (bin : Nat) (fields : BinFields)
  | binRead (tag : Byte) (bin : Nat)
  | binCount (tag : Byte) (bin : Nat) (mass : Nat) (lotTag : Option Nat)
  | binReceive (tag : Byte) (bin : Nat) (mass : Nat)
  | binLock (tag : Byte) (bin : Nat)
  | binUnlock (tag : Byte) (bin : Nat)
  /-- `form` 0 asks for reservation `key`; `form` 1 asks for bin `key` from age `age` (R59). -/
  | reservationRead (tag : Byte) (form : Nat) (key : Nat) (age : Nat)
  -- Plant I/O and Route Arbiter requests (R62 to R85)
  | inputDefine (tag : Byte) (input polarity debounce type use : Nat)
  | outputDefine (tag : Byte) (output role : Nat)
  | outputSet (tag : Byte) (mask : Nat)
  | outputClear (tag : Byte) (mask : Nat)
  | analogDefine (tag : Byte) (input : Nat) (bottom top : Int)
  | analogSet (tag : Byte) (output value : Nat)
  | ioRead (tag : Byte)
  | routeDefine (tag : Byte) (route : Nat) (permissives : List PermissiveField) (resources : List Nat)
  | arbiterSet (tag : Byte) (permitTime : Tenths)
  | resourceRead (tag : Byte)
  | lineStop (tag : Byte)
  | lineResume (tag : Byte)
  -- Batch Line requests (R88 to R114)
  | formulaOpen (tag : Byte) (formula product mixTime : Nat)
  | formulaStep (tag : Byte) (formula : Nat) (fields : StepFields)
  | formulaClose (tag : Byte) (formula : Nat)
  | formulaRead (tag : Byte) (formula : Nat)
  | batchlineSet (tag : Byte) (discharge release releaseTimeout : Tenths)
  | batchQueue (tag : Byte) (number formula size lotTag destination waitFlag : Nat)
  | batchRelease (tag : Byte) (number : Nat)
  | handDone (tag : Byte) (number : Nat)
  | stepResume (tag : Byte) (number step action : Nat)
  | batchResume (tag : Byte) (number : Nat)
  | batchCancel (tag : Byte) (number : Nat)
  | batchAbandon (tag : Byte) (number : Nat)
  | batchRead (tag : Byte) (number : Nat)
  -- Mill Controller requests (R116 to R133)
  | grindQueue (tag : Byte) (number source destination screen level : Nat)
  | grindCancel (tag : Byte) (number : Nat)
  | grindResume (tag : Byte) (number : Nat)
  | grindArm (tag : Byte) (bin arming : Nat)
  | screenFitted (tag : Byte) (screen : Nat)
  | millSet (tag : Byte) (settings : MillSettings)
  | millResume (tag : Byte)
  | millStop (tag : Byte)
  | millRead (tag : Byte)
  -- Press Controllers requests (R135 to R159)
  | profileSet (tag : Byte) (profile : Nat) (fields : ProfileFields)
  | profileRead (tag : Byte) (profile : Nat)
  | pressSet (tag : Byte) (press : Nat) (fields : PressFields)
  | runQueue (tag : Byte) (press : Nat) (run : RunFields)
  | runCancel (tag : Byte) (press number : Nat)
  | pressStart (tag : Byte) (press : Nat)
  | pressResume (tag : Byte) (press : Nat)
  | pressStop (tag : Byte) (press : Nat)
  | pressTrim (tag : Byte) (press : Nat) (rateTrim tempTrim : Int)
  | changeoverNow (tag : Byte) (press : Nat)
  | pressRead (tag : Byte) (press : Nat)
  -- Bagger Controller requests (R161 to R175)
  | baggerSet (tag : Byte) (checkTime releaseTime : Tenths)
  | bagQueue (tag : Byte) (run : BagFields)
  | bagRunStart (tag : Byte)
  | bagRunStop (tag : Byte)
  | baggerResume (tag : Byte)
  | bagCancel (tag : Byte) (number : Nat)
  | baggerRead (tag : Byte)
  -- Order Book and Loadout requests (R178 to R192)
  | orderEnter (tag : Byte) (number customer : Nat) (lines : List LineFields)
  | lineAssign (tag : Byte) (order line bin : Nat)
  | lineClose (tag : Byte) (order line : Nat)
  | orderCancel (tag : Byte) (order : Nat)
  | truckIn (tag : Byte) (order : Nat) (capacities : List Nat)
  | spoutReady (tag : Byte)
  | loadoutResume (tag : Byte) (action : Nat)
  | truckOut (tag : Byte) (force : Nat)
  | dispatchTake (tag : Byte)
  | orderRead (tag : Byte) (order : Nat)
  -- Event Router requests (R194 to R204)
  | sourceLevelSet (tag : Byte) (source level : Nat)
  | floorSet (tag : Byte) (floor : Nat)
  | slotArm (tag : Byte) (fields : SlotFields)
  | slotDisarm (tag : Byte) (slot : Nat)
  | slotRead (tag : Byte)
  -- The link and the reset (R199, R213 to R220)
  /-- A taken frame that no request row executes: its kind and body as they came (R214). -/
  | unknownKind (tag : Byte) (kind : Byte) (body : List Byte)
  /-- The characters of a frame as they arrive on the line, SYNC first (R213). -/
  | frameReceive (chars : List Byte)
  | receiveError
  | linkBreak
  | frameSent
  /-- The strap pins as they stand at the reset, `true` for high (R205). -/
  | fullReset (strapB strapA : Bool)
  /-- `ok` says that the write and the read-back agree (R219). -/
  | settingsSaveEnd (ok : Bool)
  -- Events of the Weigh Unit (R6 to R24)
  /-- One count of a channel's converter; `valid` is the converter's mark of its supply (R6). -/
  | channelSample (channel : Nat) (count : Int) (valid : Bool)
  | tareTimeout (channel : Nat)
  | settleTimeout (channel : Nat)
  | jogTimeout (channel : Nat)
  -- Plant I/O events (R60 to R63)
  /-- Bit n of `levels` is the level of input pin n; `analog` gives the positions p, in permille of the span, that the
  front ends of analog inputs 0, 1, … hold at that moment (R60, R68). -/
  | inputSample (levels : Nat) (analog : List Int)
  | lineStopInputActive
  | handAddButtonPress
  | spoutReadyButtonPress
  | baggerStartPress
  | baggerStopPress
  | bagPresentPress
  | bagGonePress
  | pressButtonPress (press : Nat)
  | mixerEmptyActive
  | millFeedbackFound
  | millFeedbackLost
  | pressFeedbackFound (press : Nat)
  | pressFeedbackLost (press : Nat)
  | highProbeCovered (bin : Nat)
  | lowProbeUncovered (bin : Nat)
  -- Timer expiries and control intervals (R77 to R169)
  | permitTimeout (slot : Nat)
  | dischargeTimeout
  | mixTimeout
  | releaseTimeout
  /-- `position` is the position p of analog input 0 at the interval (R68, R125). -/
  | millLoopInterval (position : Int)
  | millOverload
  | millNoFlow
  | millStartTimeout
  | millWarmTimeout
  | millDrainTimeout
  | millIdleTimeout
  | millRundownTimeout
  /-- The positions of the press's current and temperature inputs at the interval (R68, R144). -/
  | pressControlInterval (press : Nat) (currentPos tempPos : Int)
  | pressChoke (press : Nat)
  | pressColdHold (press : Nat)
  | pressStartTimeout (press : Nat)
  | pressColdTimeout (press : Nat)
  | starveTimeout (press : Nat)
  | changeoverDelayTimeout (press : Nat)
  | pressRundownTimeout (press : Nat)
  | checkTimeout
  | bagReleaseTimeout
  | occurrenceOffer
  deriving DecidableEq, Repr

end Sys2Proof
end

