-- ==== Sys2Proof/Machine/Records.lean ====
section
/-! DEFINITION. The records the part keeps, block by block, as plain data. Each enumeration lists its names in the code
order of R207 and R208, so that a name's code is its place in the list. -/

namespace Sys2Proof.Machine

/-! ### Link Port -/

/-- Reply codes (R3). -/
inductive ReplyCode where
  | ok | unknownKind | badLength | outOfRange | noSuch | noRoom | wrongState | inUse | short | busy | lineStopped
  deriving DecidableEq, Repr

/-- One encoded item of a body, by its width (R207). A negative number is carried in two's complement. -/
inductive Item where
  | u8 (v : Nat)
  | u16 (v : Nat)
  | u32 (v : Nat)
  | u64 (v : Nat)
  | i16 (v : Int)
  | i32 (v : Int)
  deriving DecidableEq, Repr

/-- A frame without its SYNC, LEN and CHECK (R206). -/
structure Frame where
  kind : Byte
  tag : Byte
  body : List Byte
  deriving DecidableEq, Repr

/-- A reply: an accepted one carries its items, a refused one the index of what failed (R210). -/
structure Reply where
  kind : Byte
  tag : Byte
  code : ReplyCode
  index : Nat
  items : List Item
  deriving DecidableEq, Repr

/-- The receiver's position in the frame it builds (R213). `body` counts the characters still to come,
`check1` and `check2` are the two CHECK characters. -/
inductive RxPosition where
  | hunt | len | kind | tag
  | body (left : Nat)
  | check1 | check2
  deriving DecidableEq, Repr

/-- The Link Port: strap pins as they stand (`true` for high), line rate, receiver, queues, transmitter and counters (R205, R213,
R214).
`tx` holds the frame being sent at its head and after it the other frames of the same reply. -/
structure Link where
  strapB : Bool
  strapA : Bool
  baud : Nat
  rxPosition : RxPosition
  rxBytes : List Byte
  rxQueue : List Frame
  replies : List Reply
  tx : List Frame
  errors : Nat
  overruns : Nat
  breaks : Nat
  deriving DecidableEq, Repr

/-! ### Weigh Unit -/

/-- The four weigh channels, by number (R5). -/
inductive Scale where
  | main | micro | bagger | truck
  deriving DecidableEq, Repr

/-- Channel status (R11). -/
inductive ChannelStatus where
  | ok | uncalibrated | overRange | underRange | converterFault
  deriving DecidableEq, Repr

/-- One entry of the sample history (R8). -/
structure Sample where
  count : Int
  raw : Int
  deriving DecidableEq, Repr

/-- States of an open dose (R20). -/
inductive DoseState where
  | taring | fast | slow | settling | jogging | handWait
  deriving DecidableEq, Repr

/-- Endings of a dose (R29). -/
inductive DoseEnding where
  | accepted | underWeight | overWeight | stall | scale | permit | stopped
  deriving DecidableEq, Repr

/-- How a judged dose settled (R23). -/
inductive Settled where
  | stability | timeout
  deriving DecidableEq, Repr

/-- Who asks for a dose, with the record and step, bag or line it serves (R19). -/
inductive Requester where
  | batchMain (batch step : Nat)
  | batchMicro (batch step : Nat)
  | bagger (run bag : Nat)
  | loadout (order line : Nat)
  deriving DecidableEq, Repr

/-- The output that runs a bin's feeder or gate (R33). -/
inductive Feeder where
  | speed (output : Nat)
  | discrete (output : Nat)
  deriving DecidableEq, Repr

/-- A dose order (R19). `bin`, `reservation` and `feeder` are absent for a hand-add. -/
structure DoseOrder where
  requester : Requester
  target : Nat
  underTol : Nat
  overTol : Nat
  bin : Option Nat
  reservation : Option Nat
  feeder : Option Feeder
  fast : Nat
  slow : Nat
  slowBand : Nat
  inflight : Nat
  jogTime : Tenths
  jogLimit : Nat
  stallWindow : Tenths
  stallMass : Nat
  adapt : Bool
  deriving DecidableEq, Repr

/-- The open dose of a channel (R19 to R26). `underTol` and `overTol` are the tolerances after the floor of R20.
`nets` holds the nets of the samples since the feeder went on, newest first, for the stall watch (R26). -/
structure OpenDose where
  order : DoseOrder
  state : DoseState
  underTol : Nat
  overTol : Nat
  tare : Option Int
  jogs : Nat
  timer : Option Tenths
  nets : List Int
  deriving DecidableEq, Repr

/-- The dose report (R29). -/
structure DoseReport where
  requester : Requester
  bin : Option Nat
  ending : DoseEnding
  target : Nat
  actual : Int
  tare : Option Int
  inflight : Nat
  jogs : Nat
  settled : Option Settled
  drawn : Nat
  deriving DecidableEq, Repr

/-- A weigh channel (R7 to R13). `gross` is the filtered mass f, `okGross` the f of the last sample at which the status
was OK (R27), `validRun` the consecutive valid samples of R11. -/
structure Channel where
  cfg : ChannelConfig
  samples : List Sample
  filtered : List Int
  gross : Int
  stable : Bool
  status : ChannelStatus
  validRun : Nat
  okGross : Int
  dose : Option OpenDose
  report : Option DoseReport
  deriving DecidableEq, Repr

/-- The Weigh Unit (R5). -/
structure Weigh where
  main : Channel
  micro : Channel
  bagger : Channel
  truck : Channel
  deriving DecidableEq, Repr

/-! ### Inventory Unit -/

/-- Bin kinds (R32); the code of NONE follows them (R33). -/
inductive BinKind where
  | raw | ground | micro | surge | finished | rework
  deriving DecidableEq, Repr

/-- Bin outlets (R32). -/
inductive Outlet where
  | main | micro | bagger | truck | mill | press1 | press2
  deriving DecidableEq, Repr

/-- Auto-grind arming (R33). -/
inductive Arming where
  | off | single | repeating
  deriving DecidableEq, Repr

/-- The configured fields of a defined bin (R33). -/
structure BinDef where
  kind : BinKind
  code : Nat
  capacity : Nat
  lowMark : Nat
  highMark : Nat
  outlet : Outlet
  feeder : Feeder
  fastSpeed : Nat
  slowSpeed : Nat
  fullRate : Nat
  slowBand : Nat
  inflight : Nat
  jogTime : Tenths
  jogLimit : Nat
  stallWindow : Tenths
  stallMass : Nat
  inletRoute : Nat
  outletRoute : Nat
  highProbe : Option Nat
  lowProbe : Option Nat
  grindSource : Nat
  grindScreen : Nat
  arming : Arming
  deriving DecidableEq, Repr

/-- A lot entry (R48). -/
structure Lot where
  tag : Nat
  product : Nat
  mass : Nat
  mixed : Bool
  deriving DecidableEq, Repr

/-- A lot piece of a fill (R40). -/
structure Piece where
  tag : Nat
  product : Nat
  mass : Nat
  deriving DecidableEq, Repr

/-- A defined bin: definition and runtime fields (R34). A probe state is absent with no probe and, by the model's choice,
until the probe's first sample (notes/assumptions/70.md); `true` is COVERED. `feederAsk` is what the bin's job asks of the feeder, in permille, 0 for off;
a discrete feeder is asked on while it is above 0 (R20, R67). `lots` is oldest first. `renamed` says that no input sample has come
since BIN_DEFINE named the probe inputs, so that the next one is no change (R44). -/
structure Bin where
  cfg : BinDef
  onHand : Nat
  counted : Bool
  locked : Bool
  lots : List Lot
  writeOff : Nat
  inflight : Nat
  highCovered : Option Bool
  lowCovered : Option Bool
  renamed : Bool
  feederAsk : Nat
  deriving DecidableEq, Repr

/-- The holder of a reservation (R52). -/
inductive Holder where
  | batchStep (batch step : Nat)
  | bagRun (run : Nat)
  | orderLine (order line : Nat)
  deriving DecidableEq, Repr

/-- A live reservation (R52). Its age is its place among those of its bin in the reservation list. -/
structure Reservation where
  id : Nat
  bin : Nat
  holder : Holder
  wanted : Nat
  held : Nat
  deriving DecidableEq, Repr

/-- The Inventory Unit (R32, R52). `bins` lists the defined bins, `reservations` is in creation order. -/
structure Inventory where
  bins : Table Bin
  reservations : List Reservation
  nextId : Nat
  deriving DecidableEq, Repr

/-- A lot tally (R51): pairs of lot tag and mass in the order first drawn, and the "more lots" flag. -/
structure Tally where
  pairs : List (Nat × Nat)
  more : Bool
  deriving DecidableEq, Repr

/-! ### Plant I/O and Route Arbiter -/

/-- Uses of a discrete input (R61). -/
inductive InputUse where
  | none | permissive | lineStop | handAddButton | spoutReadyButton | baggerStart | baggerStop | bagPresent | bagGone
  | press1Button | press2Button | mixerEmpty | millRunning | press1Running | press2Running
  deriving DecidableEq, Repr

/-- The configuration of an input (R61): `inverted` polarity, debounce in ms, EDGE or LEVEL type. -/
structure InputConfig where
  inverted : Bool
  debounce : Nat
  edge : Bool
  use : InputUse
  deriving DecidableEq, Repr

/-- A discrete input (R60). `active` is the debounced state, absent until the first sample. -/
structure InputPin where
  cfg : InputConfig
  active : Option Bool
  count : Nat
  deriving DecidableEq, Repr

/-- Device roles of an output (R64). -/
inductive Role where
  | mainDischargeGate | microDischargeGate
  | mainAux1 | mainAux2 | mainAux3 | mainAux4 | microAux1 | microAux2 | microAux3 | microAux4
  | mixerMotor | mixerGate | millMotor | press1Motor | press2Motor | press1Divert | press2Divert
  | baggerClamp | baggerReject
  deriving DecidableEq, Repr

/-- An input change offered to the input's user and not yet taken by it (R63). -/
inductive PlantEvent where
  | lineStopInput | handAddButton | spoutReadyButton | baggerStart | baggerStop | bagPresent | bagGone
  | pressButton (press : Nat)
  | mixerEmpty | millFeedbackFound | millFeedbackLost
  | pressFeedbackFound (press : Nat)
  | pressFeedbackLost (press : Nat)
  | highProbe (bin : Nat)
  | lowProbe (bin : Nat)
  deriving DecidableEq, Repr

/-- Plant I/O (R60 to R70). `inputs` defaults to `InputPin` of R61, `spans` to (0, 1000), `roles` maps an output to its
role, `freeOn` and `asks` default to off: the state of a free output, and what the owner of a role asks, by role code.
`analogOut` defaults to 0 and `analogPins` holds the front-end positions p in permille of the span (R68).
`firstSample` says that no input sample has come since the full reset (R81). -/
structure PlantIO where
  inputs : Table InputPin
  roles : Table Role
  freeOn : Table Bool
  asks : Table Bool
  spans : Table (Int × Int)
  analogPins : Table Int
  analogOut : Table Nat
  firstSample : Bool
  offered : List PlantEvent
  deriving DecidableEq, Repr

/-- A permissive entry of a route (R71): `required` is `true` for ACTIVE. -/
structure Permissive where
  input : Nat
  required : Bool
  deriving DecidableEq, Repr

/-- A route (R71). -/
structure Route where
  permissives : List Permissive
  resources : List Nat
  deriving DecidableEq, Repr

/-- Transfer owners (R74). -/
inductive Owner where
  | batchMain | batchMicro | batchRelease | mill | press1 | press2 | bagger | loadout
  deriving DecidableEq, Repr

/-- A leg of a transfer (R74): `fills` is the direction, `route` 0 is none. -/
structure Leg where
  bin : Nat
  fills : Bool
  route : Nat
  deriving DecidableEq, Repr

/-- Transfer states (R74). -/
inductive TransferState where
  | waiting | permitWait | flowing | aborted
  deriving DecidableEq, Repr

/-- Why a transfer was aborted (R74). -/
inductive AbortCause where
  | permit (route input : Nat)
  | lineStop
  deriving DecidableEq, Repr

/-- A transfer (R74). `held` lists the resources marked as held by it (R76). -/
structure Transfer where
  owner : Owner
  legs : List Leg
  gates : List Role
  state : TransferState
  held : List Nat
  timer : Option Tenths
  expired : Bool
  cause : Option AbortCause
  deriving DecidableEq, Repr

/-- Causes of a Line Stop (R81). -/
inductive StopCause where
  | input | request
  deriving DecidableEq, Repr

/-- The Line Stop and its record of causes (R81). -/
structure LineStop where
  inForce : Bool
  byInput : Bool
  byRequest : Bool
  deriving DecidableEq, Repr

/-- The Route Arbiter (R71 to R81). `routes` defaults to empty lists; `waiting` holds slots, oldest request first. -/
structure Arbiter where
  routes : Table Route
  permitTime : Tenths
  transfers : Table Transfer
  waiting : List Nat
  stop : LineStop
  deriving DecidableEq, Repr

/-! ### Batch Line -/

/-- A formula step (R87). `hand` is the mark HAND; `aux` lists the auxiliary outputs 1 to 4 of the gate pattern. -/
structure FormulaStep where
  scale : Scale
  bin : Nat
  amount : Nat
  tolerance : Nat
  hand : Bool
  aux : List Nat
  deriving DecidableEq, Repr

/-- An OPEN or CLOSED formula (R86); an EMPTY one is not listed. -/
structure Formula where
  closed : Bool
  product : Nat
  mixTime : Tenths
  steps : List FormulaStep
  deriving DecidableEq, Repr

/-- The batch line times (R92). -/
structure BatchTimes where
  discharge : Tenths
  release : Tenths
  releaseTimeout : Tenths
  deriving DecidableEq, Repr

/-- Step hold reasons (R208). -/
inductive StepReason where
  | underWeight | overWeight | stall | scale | permit | noPermit | lineStop
  deriving DecidableEq, Repr

/-- Batch hold reasons (R208). -/
inductive BatchReason where
  | underWeight | overWeight | stall | scale | permit | noPermit | lineStop | discharge
  deriving DecidableEq, Repr

/-- Held phases of a batch (R208). -/
inductive BatchPhase where
  | dosing | discharging | mixing | mixed | releasing
  deriving DecidableEq, Repr

/-- Wait causes of a MIXED batch (R107, R208). -/
inductive WaitCause where
  | lineStop | noDestination | locked | mismatch | room | transfer
  deriving DecidableEq, Repr

/-- Batch states (R93). -/
inductive BatchState where
  | queued | waitStock | dosing | weighed | discharging | mixing | mixed | releasing
  | held (phase : BatchPhase) (reason : BatchReason)
  deriving DecidableEq, Repr

/-- Step statuses (R93). -/
inductive StepStatus where
  | pending | dosing
  | held (reason : StepReason)
  | done | skipped
  deriving DecidableEq, Repr

/-- A step entry of a batch record (R93) with the step it was made from (R87); the formula cannot change while the batch
is live (R88). `retried` says that a RETRY has set the step going again, so that it doses with no adaptation (R104). -/
structure StepEntry where
  source : FormulaStep
  target : Nat
  tolerance : Nat
  actual : Nat
  status : StepStatus
  jogs : Nat
  reservation : Option Nat
  retried : Bool
  deriving DecidableEq, Repr

/-- The timer a batch runs: discharge, mix or release. A release timer started with no MIXER_EMPTY input runs at the
release time and its expiry completes the release (R108). -/
inductive BatchTimer where
  | discharge (left : Tenths)
  | mix (left : Tenths)
  | release (left : Tenths) (completes : Bool)
  deriving DecidableEq, Repr

/-- A live batch record (R93). `product` and `mixTime` are its formula's. `mainBegun` and `microBegun` say that a channel
has begun its final step (R99). `mixLeft` is the mix time kept through a hold. -/
structure Batch where
  number : Nat
  formula : Nat
  product : Nat
  mixTime : Tenths
  size : Nat
  lotTag : Nat
  destination : Nat
  releaseWait : Bool
  state : BatchState
  abandoned : Bool
  called : Bool
  mainBegun : Bool
  microBegun : Bool
  steps : List StepEntry
  total : Nat
  mixLeft : Tenths
  mainDischarged : Bool
  microDischarged : Bool
  timer : Option BatchTimer
  waitCause : Option WaitCause
  deriving DecidableEq, Repr

/-- The completion record (R108). -/
structure Completion where
  number : Nat
  formula : Nat
  lotTag : Nat
  destination : Nat
  total : Nat
  accepted : Nat
  clamped : Bool
  abandoned : Bool
  steps : List (StepStatus × Nat)
  deriving DecidableEq, Repr

/-- The Batch Line (R86 to R93); `batches` is in batch order, oldest first. -/
structure BatchLine where
  formulas : Table Formula
  times : BatchTimes
  batches : List Batch
  completion : Option Completion
  deriving DecidableEq, Repr

/-! ### Mill Controller -/

/-- Mill hold reasons and MILL_HELD reasons (R208). -/
inductive MillReason where
  | noStart | feedbackLost | overload | permit | noPermit | lineStop | noFlow | noSource | queueFull
  deriving DecidableEq, Repr

/-- States of a grind request (R115); a held one has its reason NO_FLOW or NO_SOURCE. -/
inductive GrindState where
  | waiting | grinding
  | held (reason : MillReason)
  deriving DecidableEq, Repr

/-- A live grind request (R115). -/
structure GrindRequest where
  number : Nat
  source : Nat
  destination : Nat
  screen : Nat
  level : Nat
  state : GrindState
  ground : Nat
  deriving DecidableEq, Repr

/-- Mill states (section 5.5). -/
inductive MillState where
  | stopped | starting | running | draining | idleRun | stopping
  | held (reason : MillReason)
  deriving DecidableEq, Repr

/-- The mill's timers (R122, R128). -/
inductive MillTimer where
  | start (left : Tenths)
  | warm (left : Tenths)
  | drain (left : Tenths)
  | idle (left : Tenths)
  | rundown (left : Tenths)
  deriving DecidableEq, Repr

/-- The Mill Controller (R115 to R133). `feedbackFound` says that the running feedback has been found since the motor was
asked on (R122, R129). -/
structure Mill where
  settings : MillSettings
  state : MillState
  current : Option Nat
  fitted : Nat
  stopMark : Bool
  engaged : Bool
  u : Int
  ePrev : Int
  overloadCount : Nat
  noFlowCount : Nat
  timer : Option MillTimer
  screenMemory : Option Nat
  feedbackFound : Bool
  queue : List GrindRequest
  deriving DecidableEq, Repr

/-! ### Press Controllers -/

/-- The two presses. -/
inductive PressId where
  | one | two
  deriving DecidableEq, Repr

/-- A defined profile (R134). -/
structure Profile where
  feedRate : Nat
  temperature : Nat
  loadLimit : Nat
  tripLevel : Nat
  tripTime : Tenths
  hysteresis : Nat
  coldBand : Nat
  carryBack : Bool
  deriving DecidableEq, Repr

/-- The trigger set of a changeover unit (R136); `source` is the source number of the member SOURCE. -/
structure TriggerSet where
  lotBoundary : Bool
  surgeLow : Bool
  button : Bool
  source : Option Nat
  limit : Bool
  deriving DecidableEq, Repr

/-- A press configuration (R136). -/
structure PressConfig where
  surgeBin : Nat
  triggers : TriggerSet
  delay : Tenths
  buttonImmediate : Bool
  startTime : Tenths
  rundownTime : Tenths
  starveTime : Tenths
  resumeMass : Nat
  coldWait : Tenths
  deriving DecidableEq, Repr

/-- A queued run (R137). -/
structure Run where
  number : Nat
  profile : Nat
  product : Nat
  destination : Nat
  flushMass : Nat
  massLimit : Nat
  skip : Nat
  copies : Bool
  skipCounter : Nat
  deriving DecidableEq, Repr

/-- Phase of an active run (R140). -/
inductive RunPhase where
  | flush | deliver
  deriving DecidableEq, Repr

/-- The active run of a press (R140). -/
structure ActiveRun where
  number : Nat
  profileNumber : Nat
  product : Nat
  destination : Nat
  flushMass : Nat
  massLimit : Nat
  profile : Profile
  rateTrim : Int
  tempTrim : Int
  activeRate : Nat
  phase : RunPhase
  drawn : Nat
  delivered : Nat
  flushed : Nat
  tally : Tally
  ignored : Nat
  limitMark : Bool
  copyDropped : Bool
  flushSkipped : Bool
  chokeCurrent : Option Int
  deriving DecidableEq, Repr

/-- Why a run ended (R140). -/
inductive RunEnd where
  | changeover | starvedOut | stopped
  deriving DecidableEq, Repr

/-- The last run report (R140). -/
structure RunReport where
  number : Nat
  reason : RunEnd
  drawn : Nat
  delivered : Nat
  flushed : Nat
  ignored : Nat
  tally : Tally
  deriving DecidableEq, Repr

/-- Press hold reasons and PRESSn_HELD reasons (R208). -/
inductive PressReason where
  | permit | noPermit | cold | starvedOut | noRun | motor | lineStop | choke | starved
  deriving DecidableEq, Repr

/-- Press hold causes (R208). -/
inductive PressCause where
  | none | emptyQueue | bins | destination
  deriving DecidableEq, Repr

/-- Press states (R141). -/
inductive PressState where
  | idle | starting | flushing | running | starved | choked
  | held (reason : PressReason) (cause : PressCause)
  | stopping
  deriving DecidableEq, Repr

/-- The state timer of a press (R141, R149, R156). -/
inductive PressTimer where
  | start (left : Tenths)
  | cold (left : Tenths)
  | starve (left : Tenths)
  | rundown (left : Tenths)
  deriving DecidableEq, Repr

/-- A press (R136 to R156). `delay` is the changeover delay timer; `feedbackFound` says that the running feedback has been
found since the motor was asked on (R141, R154). -/
structure Press where
  cfg : PressConfig
  state : PressState
  queue : List Run
  active : Option ActiveRun
  report : Option RunReport
  delay : Option Tenths
  signalPending : Bool
  engaged : Bool
  chokeCount : Nat
  coldCount : Nat
  timer : Option PressTimer
  feedbackFound : Bool
  deriving DecidableEq, Repr

/-- The Press Controllers: the shared profile table and the two presses (R134). -/
structure Presses where
  profiles : Table Profile
  one : Press
  two : Press
  deriving DecidableEq, Repr

/-! ### Bagger Controller -/

/-- Start triggers of a bag run (R160). -/
inductive StartTrigger where
  | command | button
  | source (number : Nat)
  deriving DecidableEq, Repr

/-- Stop triggers of a bag run (R160). -/
inductive StopTrigger where
  | count | command | button
  | source (number : Nat)
  deriving DecidableEq, Repr

/-- Arming of a bag run (R160). -/
inductive BagArming where
  | continuous
  | burst (size : Nat)
  deriving DecidableEq, Repr

/-- Bag run hold reasons (R208). -/
inductive BagReason where
  | short | scale | permit | rejects | lineStop
  deriving DecidableEq, Repr

/-- Bag run hold causes (R208). -/
inductive BagCause where
  | none | stock | noReservation | lost | timeout | locked
  deriving DecidableEq, Repr

/-- Bag run held phases (R208). -/
inductive BagPhase where
  | waitBag | burstWait
  deriving DecidableEq, Repr

/-- States of the head bag run (R163); the bagger is IDLE exactly when the queue is empty. -/
inductive BagState where
  | armed | waitBag | filling | checking | releasing | burstWait
  | held (reason : BagReason) (cause : BagCause) (phase : BagPhase)
  deriving DecidableEq, Repr

/-- A bag run (R160). `permitLost` marks a permissive loss met in CHECKING or RELEASING (R172). -/
structure BagRun where
  number : Nat
  bin : Nat
  target : Nat
  count : Nat
  underTol : Nat
  overTol : Nat
  start : StartTrigger
  arming : BagArming
  stop : StopTrigger
  tail : Nat
  reservation : Nat
  accepted : Nat
  rejected : Nat
  consecutive : Nat
  begun : Nat
  burst : Nat
  stopTaken : Bool
  tailLeft : Nat
  onSpout : Bool
  tally : Tally
  state : BagState
  permitLost : Bool
  deriving DecidableEq, Repr

/-- End causes of a bag run (R171). -/
inductive BagEnd where
  | count | stopped | cancelled
  deriving DecidableEq, Repr

/-- The last bag run report (R171). -/
structure BagReport where
  number : Nat
  cause : BagEnd
  accepted : Nat
  rejected : Nat
  begun : Nat
  tally : Tally
  deriving DecidableEq, Repr

/-- The bagger's timer (R168, R169). -/
inductive BagTimer where
  | check (left : Tenths)
  | release (left : Tenths)
  deriving DecidableEq, Repr

/-- The Bagger Controller (R160, R161). `bagPresent` says that a bag is present for the run in WAIT_BAG (R166). -/
structure Bagger where
  checkTime : Tenths
  releaseTime : Tenths
  startMark : Bool
  queue : List BagRun
  bagPresent : Bool
  timer : Option BagTimer
  report : Option BagReport
  deriving DecidableEq, Repr

/-! ### Order Book and Loadout -/

/-- Order states (R176); a CANCELLED order is removed at once. -/
inductive OrderState where
  | opened | loading | loaded
  deriving DecidableEq, Repr

/-- Line statuses (R177). -/
inductive LineStatus where
  | opened | assigned | loading | done | overWeight | closedShort
  deriving DecidableEq, Repr

/-- A line of an order (R177); `bulk` is its form. -/
structure OrderLine where
  product : Nat
  bulk : Bool
  quantity : Nat
  underTol : Nat
  overTol : Nat
  compartment : Nat
  bin : Option Nat
  reservation : Option Nat
  delivered : Nat
  status : LineStatus
  tally : Tally
  deriving DecidableEq, Repr

/-- An order (R176). -/
structure Order where
  number : Nat
  customer : Nat
  state : OrderState
  lines : List OrderLine
  deriving DecidableEq, Repr

/-- Loadout hold reasons (R183). -/
inductive LoadReason where
  | underWeight | overWeight | compartmentFull | scale | permit | lineStop
  deriving DecidableEq, Repr

/-- Loadout hold causes (R208). -/
inductive LoadCause where
  | none | weight | stall | lost | locked | timeout
  deriving DecidableEq, Repr

/-- Loadout states (R183). -/
inductive LoadState where
  | noTruck | taring | ready | spoutWait | loading
  | held (reason : LoadReason) (cause : LoadCause)
  | finished
  deriving DecidableEq, Repr

/-- A truck compartment (R183). -/
structure Compartment where
  capacity : Nat
  loaded : Nat
  deriving DecidableEq, Repr

/-- The truck record (R183). -/
structure Truck where
  order : Nat
  compartments : List Compartment
  tare : Option Int
  current : Option Nat
  deriving DecidableEq, Repr

/-- The loadout (R183). `retrying` marks a line taken up again by RETRY, whose dose is not adapted (R189); `clipped` marks
a presented dose whose target is below the remaining mass (R186). -/
structure Loadout where
  state : LoadState
  truck : Option Truck
  retrying : Bool
  clipped : Bool
  deriving DecidableEq, Repr

/-- One line of a dispatch record (R190). -/
structure DispatchLine where
  product : Nat
  bulk : Bool
  status : LineStatus
  quantity : Nat
  delivered : Nat
  tally : Tally
  deriving DecidableEq, Repr

/-- A dispatch record (R190). -/
structure Dispatch where
  order : Nat
  customer : Nat
  tare : Int
  gross : Int
  net : Int
  compartments : List Compartment
  lines : List DispatchLine
  deriving DecidableEq, Repr

/-- Order Book and Loadout (R176, R183, R191); `orders` in the order of entry, `dispatch` oldest first. -/
structure Book where
  orders : List Order
  loadout : Loadout
  dispatch : List Dispatch
  deriving DecidableEq, Repr

/-! ### Event Router -/

/-- Actions of a tally slot (R200). -/
inductive SlotAction where
  | postBag | releaseBatch | changeover | bagStart | count
  deriving DecidableEq, Repr

/-- Causes of BIN_LOW (R47). -/
inductive LowCause where
  | drawOrCount | writeOff
  deriving DecidableEq, Repr

/-- Causes of BIN_HIGH (R47). -/
inductive HighCause where
  | markCrossed | clamped
  deriving DecidableEq, Repr

/-- An occurrence of an event source with what its detail word carries (R193, R211). -/
inductive Event where
  | lineStop (cause : StopCause) (aborted : Nat)
  | permissiveLost (owner : Owner) (route input : Nat) (required : Bool)
  | scaleFault (scale : Scale) (status : ChannelStatus)
  | stepHeld (batch step : Nat) (reason : StepReason)
  | handAddWait (batch divisions : Nat)
  | batchCall (batch : Nat)
  | batchWaitStock (batch short : Nat)
  | batchDone (batch lotTag : Nat)
  | batchHeld (batch : Nat) (reason : BatchReason) (phase : BatchPhase)
  | binLow (bin : Nat) (cause : LowCause)
  | binHigh (bin : Nat) (cause : HighCause)
  | reservationFilled (id bin : Nat)
  | grindDone (number destination hundredKg : Nat)
  | millHeld (reason : MillReason) (number : Nat)
  | screenNeeded (number screen : Nat)
  | pressChangeover (press : PressId) (outgoing incoming : Nat)
  | pressHeld (press : PressId) (reason : PressReason) (cause : PressCause) (run : Nat)
  | pressRunEnd (press : PressId) (run : Nat) (reason : RunEnd)
  | bagAccepted (run accepted : Nat)
  | bagRejected (run : Nat) (ending : DoseEnding) (consecutive : Nat)
  | bagRunEnd (run : Nat) (cause : BagEnd)
  | truckReady (order : Nat)
  | spoutWait (line compartment kg : Nat)
  | compartmentDone (compartment kg : Nat)
  | loadoutHeld (line : Nat) (reason : LoadReason) (cause : LoadCause)
  | orderLoaded (order : Nat)
  | lineOver (order : Nat)
  | linkOverrun (count : Nat)
  | storeResult (ok : Bool)
  | slotDone (slot source : Nat) (action : SlotAction)
  deriving DecidableEq, Repr

/-- A pending notice (R197); the detail word is held as its four bytes. -/
structure Notice where
  count : Nat
  level : Nat
  detail : List Byte
  deriving DecidableEq, Repr

/-- A tally slot (R200). `order` and `line` are the target of POST_BAG, `press` that of CHANGEOVER. -/
structure Slot where
  source : Nat
  action : SlotAction
  order : Nat
  line : Nat
  press : Nat
  remaining : Nat
  armed : Bool
  deriving DecidableEq, Repr

/-- The Event Router (R194 to R200). `levels` lists the sources whose level differs from its default, `notices` the pending
ones, `slots` those that differ from a disarmed slot with no target; `waiting` holds the occurrences to be offered. -/
structure Router where
  levels : Table Nat
  notices : Table Notice
  floor : Nat
  slots : Table Slot
  waiting : List Event
  deriving DecidableEq, Repr

/-! ### Settings store -/

/-- Store states (R218). -/
inductive StoreState where
  | valid | invalid | saving
  deriving DecidableEq, Repr

/-- A bin in the settings store: its definition, and the runtime in-flight that is saved with it (R34, R218). -/
structure StoredBin where
  cfg : BinDef
  inflight : Nat
  deriving DecidableEq, Repr

/-- The stored configuration (R218). -/
structure Stored where
  main : ChannelConfig
  micro : ChannelConfig
  bagger : ChannelConfig
  truck : ChannelConfig
  bins : Table StoredBin
  inputs : Table InputConfig
  roles : Table Role
  spans : Table (Int × Int)
  routes : Table Route
  permitTime : Tenths
  formulas : Table Formula
  times : BatchTimes
  mill : MillSettings
  profiles : Table Profile
  pressOne : PressConfig
  pressTwo : PressConfig
  checkTime : Tenths
  releaseTime : Tenths
  levels : Table Nat
  deriving DecidableEq, Repr

/-- The settings store (R218, R219): `image` is the image whose check matches, absent when none does; `copy` is the copy
being written while SAVING; `loaded` says that the configuration in force was loaded at the last full reset (R216). -/
structure Store where
  state : StoreState
  image : Option Stored
  copy : Option Stored
  loaded : Bool
  deriving DecidableEq, Repr

end Sys2Proof.Machine
end

