-- ==== Sys2Proof/Machine/Operands.lean ====
section
/-! DEFINITION. Operand forms: the code of every enumerated field and its reading back (R207, R208), the identifiers of
R2, and the range checks of the configuration requests. A code is the place of the name in its list, from 0. -/

namespace Sys2Proof.Machine

/-- A flag for which no list gives the values: 0 clear, 1 set. DESIGN CHOICE (notes/assumptions/6.md). -/
def flagOf : Nat → Option Bool
  | 0 => some false
  | 1 => some true
  | _ => none

/-- The code of such a flag. -/
def flagCode (b : Bool) : Nat := if b then 1 else 0

/-- A field of two values whose list names the value for `true` first, such as "Yes or no": the places are 0 and 1 (R207). -/
def firstOf : Nat → Option Bool
  | 0 => some true
  | 1 => some false
  | _ => none

/-- The code of such a field: "Yes or no", "Set or clear", "Asked on or off", "Engaged or not", "In force or not", "Armed or
disarmed" (R207). -/
def firstCode (b : Bool) : Nat := if b then 0 else 1

/-- Reply codes in the order of R3. -/
def replyCodes : List ReplyCode :=
  [.ok, .unknownKind, .badLength, .outOfRange, .noSuch, .noRoom, .wrongState, .inUse, .short, .busy, .lineStopped]
/-- The byte of a reply code (R207). -/
def replyCode (c : ReplyCode) : Nat := replyCodes.idxOf c

/-- Weigh channels by number (R5). -/
def scales : List Scale := [.main, .micro, .bagger, .truck]
/-- The channel a number names (R5). -/
def scaleOf (n : Nat) : Option Scale := scales[n]?
/-- A channel's number (R5). -/
def scaleCode (c : Scale) : Nat := scales.idxOf c

/-- Channel statuses in the order of R11. -/
def channelStatuses : List ChannelStatus := [.ok, .uncalibrated, .overRange, .underRange, .converterFault]
/-- The byte of a channel status. -/
def channelStatusCode (c : ChannelStatus) : Nat := channelStatuses.idxOf c

/-- Dose states in the order of R20. -/
def doseStates : List DoseState := [.taring, .fast, .slow, .settling, .jogging, .handWait]
/-- The byte of a dose state. -/
def doseStateCode (c : DoseState) : Nat := doseStates.idxOf c

/-- Dose endings in the order of R29. -/
def doseEndings : List DoseEnding := [.accepted, .underWeight, .overWeight, .stall, .scale, .permit, .stopped]
/-- The byte of a dose ending. -/
def doseEndingCode (c : DoseEnding) : Nat := doseEndings.idxOf c

/-- The byte of a settling (R29). -/
def settledCode : Settled → Nat
  | .stability => 0
  | .timeout => 1

/-- Bin kinds in the order of R32. -/
def binKinds : List BinKind := [.raw, .ground, .micro, .surge, .finished, .rework]
/-- The kind a code names; 6, NONE, is none of them (R33). -/
def binKindOf (n : Nat) : Option BinKind := binKinds[n]?
/-- The byte of a bin kind. -/
def binKindCode (c : BinKind) : Nat := binKinds.idxOf c
/-- The code of kind NONE (R33). -/
abbrev kindNone : Nat := 6

/-- Outlets: the weigh channels, the mill, the presses (R32). DESIGN CHOICE: this order (notes/assumptions/6.md). -/
def outlets : List Outlet := [.main, .micro, .bagger, .truck, .mill, .press1, .press2]
/-- The outlet a code names. -/
def outletOf (n : Nat) : Option Outlet := outlets[n]?
/-- The byte of an outlet. -/
def outletCode (c : Outlet) : Nat := outlets.idxOf c

/-- Armings in the order of R33. -/
def armings : List Arming := [.off, .single, .repeating]
/-- The arming a code names. -/
def armingOf (n : Nat) : Option Arming := armings[n]?
/-- The byte of an arming. -/
def armingCode (c : Arming) : Nat := armings.idxOf c

/-- Input uses in the order of R61. -/
def inputUses : List InputUse :=
  [.none, .permissive, .lineStop, .handAddButton, .spoutReadyButton, .baggerStart, .baggerStop, .bagPresent, .bagGone,
    .press1Button, .press2Button, .mixerEmpty, .millRunning, .press1Running, .press2Running]
/-- The use a code names. -/
def inputUseOf (n : Nat) : Option InputUse := inputUses[n]?
/-- The byte of an input use. -/
def inputUseCode (c : InputUse) : Nat := inputUses.idxOf c

/-- Whether an input of type EDGE (`true`) or LEVEL suits a use (R61). -/
def typeSuits (use : InputUse) (edge : Bool) : Bool :=
  match use with
  | .none => true
  | .permissive | .lineStop | .mixerEmpty | .millRunning | .press1Running | .press2Running => !edge
  | _ => edge

/-- Device roles in the order of R64. -/
def roles : List Role :=
  [.mainDischargeGate, .microDischargeGate, .mainAux1, .mainAux2, .mainAux3, .mainAux4, .microAux1, .microAux2,
    .microAux3, .microAux4, .mixerMotor, .mixerGate, .millMotor, .press1Motor, .press2Motor, .press1Divert,
    .press2Divert, .baggerClamp, .baggerReject]
/-- The role a code names; FREE, 19, is none of them (R65). -/
def roleOf (n : Nat) : Option Role := roles[n]?
/-- The byte of a role. -/
def roleCode (c : Role) : Nat := roles.idxOf c
/-- The code of FREE. DESIGN CHOICE: it follows the roles (notes/assumptions/6.md). -/
abbrev roleFree : Nat := 19

/-- Transfer owners in the order of R74. -/
def owners : List Owner := [.batchMain, .batchMicro, .batchRelease, .mill, .press1, .press2, .bagger, .loadout]
/-- The byte of an owner. -/
def ownerCode (c : Owner) : Nat := owners.idxOf c

/-- Transfer states in the order of R74. -/
def transferStates : List TransferState := [.waiting, .permitWait, .flowing, .aborted]
/-- The byte of a transfer state. -/
def transferStateCode (c : TransferState) : Nat := transferStates.idxOf c

/-- The byte of a Line Stop cause (R81, R193). -/
def stopCauseCode : StopCause → Nat
  | .input => 0
  | .request => 1

/-- The byte of a required or debounced state: ACTIVE 0, INACTIVE 1 (R71). -/
def activeCode (active : Bool) : Nat := firstCode active

/-- Step hold reasons in the order of R208. -/
def stepReasons : List StepReason := [.underWeight, .overWeight, .stall, .scale, .permit, .noPermit, .lineStop]
/-- The byte of a step hold reason. -/
def stepReasonCode (c : StepReason) : Nat := stepReasons.idxOf c

/-- Batch hold reasons in the order of R208. -/
def batchReasons : List BatchReason :=
  [.underWeight, .overWeight, .stall, .scale, .permit, .noPermit, .lineStop, .discharge]
/-- The byte of a batch hold reason. -/
def batchReasonCode (c : BatchReason) : Nat := batchReasons.idxOf c

/-- The hold reason a batch takes from a held step (R103). -/
def batchReasonOf : StepReason → BatchReason
  | .underWeight => .underWeight
  | .overWeight => .overWeight
  | .stall => .stall
  | .scale => .scale
  | .permit => .permit
  | .noPermit => .noPermit
  | .lineStop => .lineStop

/-- Held phases of a batch in the order of R208. -/
def batchPhases : List BatchPhase := [.dosing, .discharging, .mixing, .mixed, .releasing]
/-- The byte of a held phase. -/
def batchPhaseCode (c : BatchPhase) : Nat := batchPhases.idxOf c

/-- The byte of a batch state, in the order of R93. -/
def batchStateCode : BatchState → Nat
  | .queued => 0
  | .waitStock => 1
  | .dosing => 2
  | .weighed => 3
  | .discharging => 4
  | .mixing => 5
  | .mixed => 6
  | .releasing => 7
  | .held _ _ => 8

/-- The byte of a step status, in the order of R93. -/
def stepStatusCode : StepStatus → Nat
  | .pending => 0
  | .dosing => 1
  | .held _ => 2
  | .done => 3
  | .skipped => 4

/-- Wait causes in the order of R208. -/
def waitCauses : List WaitCause := [.lineStop, .noDestination, .locked, .mismatch, .room, .transfer]
/-- The byte of a wait cause. -/
def waitCauseCode (c : WaitCause) : Nat := waitCauses.idxOf c

/-- Mill hold reasons in the order of R208. -/
def millReasons : List MillReason :=
  [.noStart, .feedbackLost, .overload, .permit, .noPermit, .lineStop, .noFlow, .noSource, .queueFull]
/-- The byte of a mill hold reason. -/
def millReasonCode (c : MillReason) : Nat := millReasons.idxOf c

/-- The hold reasons of a grind request in the order of R115. -/
def grindReasons : List MillReason := [.noFlow, .noSource]
/-- The byte of a grind request's hold reason: its place in the list of R115, where the field is defined, since the lists of R208 do
not name it (R207). -/
def grindReasonCode (c : MillReason) : Nat := grindReasons.idxOf c

/-- The byte of a grind request's state, in the order of R115. -/
def grindStateCode : GrindState → Nat
  | .waiting => 0
  | .grinding => 1
  | .held _ => 2

/-- The byte of a mill state, in the order of section 5.5. -/
def millStateCode : MillState → Nat
  | .stopped => 0
  | .starting => 1
  | .running => 2
  | .draining => 3
  | .idleRun => 4
  | .stopping => 5
  | .held _ => 6

/-- The press a number names. -/
def pressOf : Nat → Option PressId
  | 1 => some .one
  | 2 => some .two
  | _ => none
/-- A press's number. -/
def pressCode : PressId → Nat
  | .one => 1
  | .two => 2

/-- Press hold reasons in the order of R208. -/
def pressReasons : List PressReason :=
  [.permit, .noPermit, .cold, .starvedOut, .noRun, .motor, .lineStop, .choke, .starved]
/-- The byte of a press hold reason. -/
def pressReasonCode (c : PressReason) : Nat := pressReasons.idxOf c

/-- Press hold causes in the order of R208. -/
def pressCauses : List PressCause := [.none, .emptyQueue, .bins, .destination]
/-- The byte of a press hold cause. -/
def pressCauseCode (c : PressCause) : Nat := pressCauses.idxOf c

/-- The byte of a press state, in the order of R141. -/
def pressStateCode : PressState → Nat
  | .idle => 0
  | .starting => 1
  | .flushing => 2
  | .running => 3
  | .starved => 4
  | .choked => 5
  | .held _ _ => 6
  | .stopping => 7

/-- The byte of a run's end reason, in the order of R140. -/
def runEndCode : RunEnd → Nat
  | .changeover => 0
  | .starvedOut => 1
  | .stopped => 2

/-- The byte of a run's phase, in the order of R140. -/
def runPhaseCode : RunPhase → Nat
  | .flush => 0
  | .deliver => 1

/-- The byte of a trigger set, LOT_BOUNDARY lowest (R207). -/
def triggersCode (t : TriggerSet) : Nat :=
  flagCode t.lotBoundary + 2 * flagCode t.surgeLow + 4 * flagCode t.button + 8 * flagCode t.source.isSome +
    16 * flagCode t.limit

/-- Bag run hold reasons in the order of R208. -/
def bagReasons : List BagReason := [.short, .scale, .permit, .rejects, .lineStop]
/-- The byte of a bag run hold reason. -/
def bagReasonCode (c : BagReason) : Nat := bagReasons.idxOf c

/-- Bag run hold causes in the order of R208. -/
def bagCauses : List BagCause := [.none, .stock, .noReservation, .lost, .timeout, .locked]
/-- The byte of a bag run hold cause. -/
def bagCauseCode (c : BagCause) : Nat := bagCauses.idxOf c

/-- The byte of a bag run held phase (R208). -/
def bagPhaseCode : BagPhase → Nat
  | .waitBag => 0
  | .burstWait => 1

/-- The byte of a bagger state, in the order of R163; IDLE is 0. -/
def bagStateCode : BagState → Nat
  | .armed => 1
  | .waitBag => 2
  | .filling => 3
  | .checking => 4
  | .releasing => 5
  | .burstWait => 6
  | .held _ _ _ => 7

/-- The byte of a bag run's end cause, in the order of R171. -/
def bagEndCode : BagEnd → Nat
  | .count => 0
  | .stopped => 1
  | .cancelled => 2

/-- The start trigger a class code and a source number name (R160). DESIGN CHOICE: the source number of a trigger that is not SOURCE
is neither checked nor kept (notes/assumptions/8.md). -/
def startTriggerOf (code source : Nat) : Option StartTrigger :=
  match code with
  | 0 => some .command
  | 1 => some .button
  | 2 => if 1 ≤ source ∧ source ≤ 40 then some (.source source) else none
  | _ => none
/-- The class code and the source number of a start trigger (R160). -/
def startTriggerCode : StartTrigger → Nat × Nat
  | .command => (0, 0)
  | .button => (1, 0)
  | .source n => (2, n)

/-- The stop trigger a class code and a source number name (R160). DESIGN CHOICE: the source number of a trigger that is not SOURCE
is neither checked nor kept (notes/assumptions/8.md). -/
def stopTriggerOf (code source : Nat) : Option StopTrigger :=
  match code with
  | 0 => some .count
  | 1 => some .command
  | 2 => some .button
  | 3 => if 1 ≤ source ∧ source ≤ 40 then some (.source source) else none
  | _ => none
/-- The class code and the source number of a stop trigger (R160). -/
def stopTriggerCode : StopTrigger → Nat × Nat
  | .count => (0, 0)
  | .command => (1, 0)
  | .button => (2, 0)
  | .source n => (3, n)

/-- The arming a code and a burst size name (R160). DESIGN CHOICE: the burst size of a CONTINUOUS run is neither checked nor kept
(notes/assumptions/8.md). -/
def bagArmingOf (code size : Nat) : Option BagArming :=
  match code with
  | 0 => some .continuous
  | 1 => if 1 ≤ size ∧ size ≤ 255 then some (.burst size) else none
  | _ => none
/-- The code and the burst size of an arming (R160). -/
def bagArmingCode : BagArming → Nat × Nat
  | .continuous => (0, 0)
  | .burst k => (1, k)

/-- The byte of an order state, in the order of R176. -/
def orderStateCode : OrderState → Nat
  | .opened => 0
  | .loading => 1
  | .loaded => 2

/-- Line statuses in the order of R177. -/
def lineStatuses : List LineStatus := [.opened, .assigned, .loading, .done, .overWeight, .closedShort]
/-- The byte of a line status. -/
def lineStatusCode (c : LineStatus) : Nat := lineStatuses.idxOf c

/-- The byte of a line's form: BULK 0, BAGGED 1 (R177). -/
def formCode (bulk : Bool) : Nat := if bulk then 0 else 1

/-- Loadout hold reasons in the order of R183. -/
def loadReasons : List LoadReason := [.underWeight, .overWeight, .compartmentFull, .scale, .permit, .lineStop]
/-- The byte of a loadout hold reason. -/
def loadReasonCode (c : LoadReason) : Nat := loadReasons.idxOf c

/-- Loadout hold causes in the order of R208. -/
def loadCauses : List LoadCause := [.none, .weight, .stall, .lost, .locked, .timeout]
/-- The byte of a loadout hold cause. -/
def loadCauseCode (c : LoadCause) : Nat := loadCauses.idxOf c

/-- The byte of a loadout state, in the order of R183. -/
def loadStateCode : LoadState → Nat
  | .noTruck => 0
  | .taring => 1
  | .ready => 2
  | .spoutWait => 3
  | .loading => 4
  | .held _ _ => 5
  | .finished => 6

/-- Slot actions in the order of R200. -/
def slotActions : List SlotAction := [.postBag, .releaseBatch, .changeover, .bagStart, .count]
/-- The action a code names. -/
def slotActionOf (n : Nat) : Option SlotAction := slotActions[n]?
/-- The byte of a slot action. -/
def slotActionCode (c : SlotAction) : Nat := slotActions.idxOf c

/-- The byte of a store state, in the order of R218. -/
def storeStateCode : StoreState → Nat
  | .valid => 0
  | .invalid => 1
  | .saving => 2

/-- The auxiliary outputs 1 to 4 named by a gate pattern's bits (R87, R207). -/
def auxOf (pattern : Nat) : List Nat := [1, 2, 3, 4].filter (fun k => pattern.testBit (k - 1))
/-- The bits of a gate pattern. -/
def auxCode (aux : List Nat) : Nat := (aux.map (fun k => 2 ^ (k - 1))).sum

/-- The first field, counted from 1, whose check fails; 0 when all pass. -/
def firstFailing (checks : List Bool) : Nat :=
  match checks.findIdx? (fun ok => !ok) with
  | some i => i + 1
  | none => 0

/-- The divisions a channel may have (R7). -/
def divisions : List Nat := [1, 2, 5, 10, 20, 50, 100, 200, 500, 1000, 2000, 5000, 10000, 20000]

/-- The largest capacity of a channel (R7). -/
def capacityLimit : Scale → Nat
  | .main => 4000000
  | .micro => 100000
  | .bagger => 100000
  | .truck => 60000000

/-- The range checks of R7 for a channel, field by field, against the capacity given with them (R14).
DESIGN CHOICE: a limit in percent of the capacity is exact, not a quotient rounded by R4 (notes/assumptions/63.md). -/
def channelChecks (sc : Scale) (c : ChannelConfig) : List Bool :=
  [ decide (1 ≤ c.capacity ∧ c.capacity ≤ capacityLimit sc ∧ 100 * c.division ≤ c.capacity),
    divisions.contains c.division,
    decide (-8388608 ≤ c.zero ∧ c.zero ≤ 8388607),
    decide (c.span ≤ 16777215),
    decide (1 ≤ c.filterLen ∧ c.filterLen ≤ 32),
    decide (1 ≤ c.motionWindow ∧ c.motionWindow ≤ 32),
    decide (c.motionBand ≤ 65535),
    decide (c.zeroBand * 100 ≤ 2 * c.capacity),
    decide (c.emptyBand * 10 ≤ c.capacity),
    decide (1 ≤ c.settleTime ∧ c.settleTime ≤ 600),
    decide (c.fmax * 10 ≤ c.capacity),
    decide (c.gain ≤ 8),
    decide (c.window ≤ 1000000) ]

/-- The outlets a kind may have (R32). -/
def outletPermitted : BinKind → Outlet → Bool
  | .raw, .mill | .raw, .main | .ground, .main | .micro, .micro | .surge, .press1 | .surge, .press2
  | .finished, .bagger | .finished, .truck | .rework, .main => true
  | _, _ => false

/-- Whether bins of a kind keep a lot list (R32). -/
def keepsLots : BinKind → Bool
  | .surge | .finished | .rework => true
  | _ => false

/-- The weigh channel an outlet is, if it is one (R32). -/
def outletScale : Outlet → Option Scale
  | .main => some .main
  | .micro => some .micro
  | .bagger => some .bagger
  | .truck => some .truck
  | _ => none

/-- The press an outlet feeds, if it feeds one (R32). -/
def outletPress : Outlet → Option PressId
  | .press1 => some .one
  | .press2 => some .two
  | _ => none

/-- The outlet that feeds a press. -/
def pressOutlet : PressId → Outlet
  | .one => .press1
  | .two => .press2

/-- The feeder a type and a number name (R33). DESIGN CHOICE: a type byte, 0 for a speed output and 1 for a discrete one, then the
number (notes/assumptions/6.md). -/
def feederOf (type number : Nat) : Option Feeder :=
  match type with
  | 0 => if number < Config.speedCount then some (.speed number) else none
  | 1 => if number < Config.pinCount then some (.discrete number) else none
  | _ => none

/-- The type and the number of a feeder (R33). -/
def feederCode : Feeder → Nat × Nat
  | .speed n => (0, n)
  | .discrete n => (1, n)

/-- Whether a feeder is a speed output. -/
def Feeder.isSpeed : Feeder → Bool
  | .speed _ => true
  | .discrete _ => false

/-- The range checks of R33, field by field, with `fmax` the Fmax of the outlet channel; `none` for the outlets MILL,
PRESS 1 and PRESS 2. DESIGN CHOICE: the two GROUND-only fields are looked at for a GROUND bin only, and the speeds for
a speed output only (notes/assumptions/8.md). -/
def binChecks (f : BinFields) (kind : Option BinKind) (outlet : Option Outlet) (fmax : Option Nat) : List Bool :=
  let ground : Bool := kind = some .ground
  let speed : Bool := decide (f.feederType = 0)
  [ kind.isSome,
    (if kind = some .rework then decide (f.code = 0) else decide (1 ≤ f.code ∧ f.code ≤ 65535)),
    decide (1 ≤ f.capacity ∧ f.capacity ≤ max32),
    decide (f.lowMark ≤ f.capacity ∧ f.lowMark ≤ f.highMark),
    decide (f.highMark ≤ f.capacity),
    (match kind, outlet with
      | some k, some o => outletPermitted k o
      | _, _ => false),
    (feederOf f.feederType f.feederNumber).isSome,
    !speed || decide (1 ≤ f.fastSpeed ∧ f.fastSpeed ≤ 1000),
    !speed || decide (1 ≤ f.slowSpeed ∧ f.slowSpeed ≤ f.fastSpeed),
    decide (f.fullRate ≤ 1000000 ∧ (fmax = none → 1 ≤ f.fullRate)),
    decide (f.slowBand ≤ 60000000),
    decide (f.inflight ≤ fmax.getD 0),
    decide (1 ≤ f.jogTime ∧ f.jogTime ≤ 100),
    decide (f.jogLimit ≤ 7),
    decide (f.stallWindow ≤ 600),
    decide (f.stallMass ≤ 1000000),
    decide (f.inletRoute ≤ Config.routeCount),
    decide (f.outletRoute ≤ Config.routeCount),
    decide (f.highProbe.getD 0 < Config.pinCount),
    decide (f.lowProbe.getD 0 < Config.pinCount),
    !ground || decide (f.grindSource ≤ Config.binCount),
    !ground || decide (1 ≤ f.grindScreen ∧ f.grindScreen ≤ 8),
    (if ground then (armingOf f.arming).isSome else decide (f.arming = 0)) ]

/-- The definition that checked fields give (R33). -/
def binDefOf (f : BinFields) (kind : BinKind) (outlet : Outlet) (feeder : Feeder) : BinDef where
  kind := kind
  code := f.code
  capacity := f.capacity
  lowMark := f.lowMark
  highMark := f.highMark
  outlet := outlet
  feeder := feeder
  fastSpeed := f.fastSpeed
  slowSpeed := f.slowSpeed
  fullRate := f.fullRate
  slowBand := f.slowBand
  inflight := f.inflight
  jogTime := f.jogTime
  jogLimit := f.jogLimit
  stallWindow := f.stallWindow
  stallMass := f.stallMass
  inletRoute := f.inletRoute
  outletRoute := f.outletRoute
  highProbe := f.highProbe
  lowProbe := f.lowProbe
  grindSource := f.grindSource
  grindScreen := f.grindScreen
  arming := (armingOf f.arming).getD .off

/-- The ranges and relations of the mill settings (R121). -/
def millOk (m : MillSettings) : Bool :=
  decide (1 ≤ m.startTime ∧ m.startTime ≤ 6000 ∧ m.warmTime ≤ 6000 ∧ m.drainTime ≤ 6000 ∧ m.idleTime ≤ 6000 ∧
    m.rundownTime ≤ 6000 ∧ 1 ≤ m.isp ∧ m.isp ≤ 32767 ∧ m.kp ≤ 255 ∧ m.ki ≤ 255 ∧ m.uMin ≤ m.uStart ∧
    m.uStart ≤ m.uMax ∧ m.uMax ≤ 1000 ∧ m.isp < m.iTrip ∧ m.iTrip ≤ 32767 ∧ 1 ≤ m.tripTime ∧ m.tripTime ≤ 6000 ∧
    m.iNoload < m.isp ∧ 1 ≤ m.noFlowTime ∧ m.noFlowTime ≤ 6000)

/-- The profile that fields in range give (R134). -/
def profileOf (f : ProfileFields) : Option Profile :=
  match firstOf f.carryBack with
  | none => none
  | some carry =>
    if 1 ≤ f.feedRate ∧ f.feedRate ≤ 60000 ∧ f.temperature ≤ 1200 ∧ 1 ≤ f.loadLimit ∧ f.loadLimit ≤ 32767 ∧
        f.loadLimit < f.tripLevel ∧ f.tripLevel ≤ 32767 ∧ 1 ≤ f.tripTime ∧ f.tripTime ≤ 600 ∧
        f.hysteresis ≤ f.loadLimit ∧ f.coldBand ≤ 1200 then
      some ⟨f.feedRate, f.temperature, f.loadLimit, f.tripLevel, f.tripTime, f.hysteresis, f.coldBand, carry⟩
    else none

/-- The press configuration that fields in range give to a press (R136). Sources 16 and 20 are the CHANGEOVER and RUN_END
of press 1, 17 and 21 those of press 2 (R193). DESIGN CHOICE: the source byte of a trigger set without SOURCE is neither checked
nor kept (notes/assumptions/8.md). -/
def pressConfigOf (p : PressId) (f : PressFields) : Option PressConfig :=
  let own : List Nat := match p with
    | .one => [16, 20]
    | .two => [17, 21]
  let hasSource := f.triggers.testBit 3
  match firstOf f.buttonImmediate with
  | none => none
  | some immediate =>
    if f.surgeBin ≤ Config.binCount ∧ f.triggers < 32 ∧
        (hasSource = true → 1 ≤ f.source ∧ f.source ≤ 40 ∧ own.contains f.source = false) ∧ f.delay ≤ 6000 ∧
        1 ≤ f.startTime ∧ f.startTime ≤ 6000 ∧ f.rundownTime ≤ 6000 ∧ 1 ≤ f.starveTime ∧ f.starveTime ≤ 6000 ∧
        1 ≤ f.resumeMass ∧ f.resumeMass ≤ max32 ∧ 1 ≤ f.coldWait ∧ f.coldWait ≤ 6000 then
      some {
        surgeBin := f.surgeBin
        triggers := {
          lotBoundary := f.triggers.testBit 0
          surgeLow := f.triggers.testBit 1
          button := f.triggers.testBit 2
          source := if hasSource then some f.source else none
          limit := f.triggers.testBit 4 }
        delay := f.delay
        buttonImmediate := immediate
        startTime := f.startTime
        rundownTime := f.rundownTime
        starveTime := f.starveTime
        resumeMass := f.resumeMass
        coldWait := f.coldWait }
    else none

end Sys2Proof.Machine
end

