-- ==== Sys2Proof/Machine/Defaults.lean ====
section
/-! DEFINITION. The default configuration taken when the settings store is invalid (R218), and the reset value of every
block from a given stored configuration (R220). -/

namespace Sys2Proof.Machine

/-- The default configuration of MAIN (R7, second table). -/
def defaultMain : ChannelConfig :=
  ⟨4000000, 500, 0, 0, 8, 25, 1000, 40000, 2000, 30, 100000, 2, 20000⟩

/-- The default configuration of MICRO (R7, second table). -/
def defaultMicro : ChannelConfig :=
  ⟨100000, 10, 0, 0, 8, 25, 20, 1000, 50, 20, 2000, 2, 500⟩

/-- The default configuration of BAGGER (R7, second table). -/
def defaultBagger : ChannelConfig :=
  ⟨100000, 20, 0, 0, 4, 10, 40, 1000, 100, 10, 5000, 2, 1000⟩

/-- The default configuration of TRUCK (R7, second table). -/
def defaultTruck : ChannelConfig :=
  ⟨60000000, 20000, 0, 0, 16, 32, 20000, 600000, 100000, 50, 400000, 0, 0⟩

/-- The default of an input: NORMAL, 50 ms, LEVEL, use NONE (R61). -/
def defaultInputConfig : InputConfig := ⟨false, 50, false, .none⟩

/-- An input before its first sample (R60), with the default configuration. -/
def defaultPin : InputPin := ⟨defaultInputConfig, none, 0⟩

/-- The default span of an analog input (R68). -/
def defaultSpan : Int × Int := (0, 1000)

/-- A route with empty lists (R71). -/
def emptyRoute : Route := ⟨[], []⟩

/-- The default mill settings (R121). -/
def defaultMill : MillSettings :=
  ⟨100, 50, 300, 1200, 600, 1500, 32, 4, 300, 100, 900, 2500, 50, 400, 300⟩

/-- The default press configuration (R136). -/
def defaultPressConfig : PressConfig :=
  ⟨0, ⟨false, false, false, none, false⟩, 0, false, 100, 600, 600, 500000, 1800⟩

/-- The default batch line times (R92). -/
def defaultTimes : BatchTimes := ⟨600, 300, 1800⟩

/-- The default permit time (R73). -/
def defaultPermitTime : Tenths := 300

/-- The default check and release times of the bagger (R161). -/
def defaultCheckTime : Tenths := 10
/-- The default release time of the bagger (R161). -/
def defaultReleaseTime : Tenths := 100

/-- The default level of an event source (R193). -/
def defaultLevel (source : Nat) : Nat :=
  ([7, 7, 6, 6, 5, 3, 4, 3, 6, 4, 4, 2, 3, 6, 5, 3, 3, 6, 6, 3, 3, 1, 2, 3, 3, 5, 3, 6, 3, 5, 6, 4,
    3, 3, 3, 3, 3, 3, 3, 3][source - 1]?).getD 0

/-- A disarmed slot as a full reset leaves it (R200). -/
def emptySlot : Slot := ⟨0, .count, 0, 0, 0, 0, false⟩

/-- An empty tally with its flag clear (R51). -/
def emptyTally : Tally := ⟨[], false⟩

/-- The configuration taken when the store is invalid (R218). -/
def defaultStored : Stored where
  main := defaultMain
  micro := defaultMicro
  bagger := defaultBagger
  truck := defaultTruck
  bins := []
  inputs := []
  roles := []
  spans := []
  routes := []
  permitTime := defaultPermitTime
  formulas := []
  times := defaultTimes
  mill := defaultMill
  profiles := []
  pressOne := defaultPressConfig
  pressTwo := defaultPressConfig
  checkTime := defaultCheckTime
  releaseTime := defaultReleaseTime
  levels := []

/-- A channel after a full reset (R11, R13). -/
def bootChannel (cfg : ChannelConfig) : Channel where
  cfg := cfg
  samples := []
  filtered := []
  gross := 0
  stable := false
  status := if cfg.span = 0 then .uncalibrated else .ok
  validRun := 0
  okGross := 0
  dose := none
  report := none

/-- A bin after a full reset with the in-flight saved with it, or newly defined with that of its definition (R34). DESIGN CHOICE: a
probe that the definition names has no state until the first input sample (notes/assumptions/70.md). -/
def bootBin (d : BinDef) (inflight : Nat) : Bin where
  cfg := d
  onHand := 0
  counted := false
  locked := false
  lots := []
  writeOff := 0
  inflight := inflight
  highCovered := none
  lowCovered := none
  renamed := false
  feederAsk := 0

/-- A press after a full reset (R140). -/
def bootPress (cfg : PressConfig) : Press where
  cfg := cfg
  state := .idle
  queue := []
  active := none
  report := none
  delay := none
  signalPending := false
  engaged := false
  chokeCount := 0
  coldCount := 0
  timer := none
  feedbackFound := false

/-- The baud rate of the strap pins (R205). -/
def strapBaud (strapB strapA : Bool) : Nat :=
  match strapB, strapA with
  | false, false => 38400
  | false, true => 57600
  | true, false => 115200
  | true, true => 230400

/-- The Link Port after a full reset (R213, R220). -/
def bootLink (strapB strapA : Bool) : Link := ⟨strapB, strapA, strapBaud strapB strapA, .hunt, [], [], [], [], 0, 0, 0⟩

/-- The Weigh Unit after a full reset (R13). -/
def bootWeigh (c : Stored) : Weigh :=
  ⟨bootChannel c.main, bootChannel c.micro, bootChannel c.bagger, bootChannel c.truck⟩

/-- The Inventory Unit after a full reset (R34, R52). -/
def bootInventory (c : Stored) : Inventory :=
  ⟨c.bins.map (fun e => (e.1, bootBin e.2.cfg e.2.inflight)), [], 1⟩

/-- Plant I/O after a full reset (R60 to R69). The analog positions are the plant's, so they stay as they are. -/
def bootIO (c : Stored) (analogPins : Table Int) : PlantIO where
  inputs := c.inputs.map (fun e => (e.1, ⟨e.2, none, 0⟩))
  roles := c.roles
  freeOn := []
  asks := []
  spans := c.spans
  analogPins := analogPins
  analogOut := []
  firstSample := true
  offered := []

/-- The Route Arbiter after a full reset (R74, R81). -/
def bootArbiter (c : Stored) : Arbiter := ⟨c.routes, c.permitTime, [], [], ⟨false, false, false⟩⟩

/-- The Batch Line after a full reset (R86, R93). -/
def bootBatchLine (c : Stored) : BatchLine := ⟨c.formulas, c.times, [], none⟩

/-- The Mill Controller after a full reset (R115, R120, section 5.5). -/
def bootMill (c : Stored) : Mill where
  settings := c.mill
  state := .stopped
  current := none
  fitted := 0
  stopMark := false
  engaged := false
  u := 0
  ePrev := 0
  overloadCount := 0
  noFlowCount := 0
  timer := none
  screenMemory := none
  feedbackFound := false
  queue := []

/-- The Press Controllers after a full reset (R134 to R140). -/
def bootPresses (c : Stored) : Presses := ⟨c.profiles, bootPress c.pressOne, bootPress c.pressTwo⟩

/-- The Bagger Controller after a full reset (R160). -/
def bootBagger (c : Stored) : Bagger := ⟨c.checkTime, c.releaseTime, false, [], false, none, none⟩

/-- The Order Book and Loadout after a full reset (R176, R183, R191). -/
def bootBook : Book := ⟨[], ⟨.noTruck, none, false, false⟩, []⟩

/-- The Event Router after a full reset (R194 to R200). -/
def bootRouter (c : Stored) : Router := ⟨c.levels, [], 0, [], []⟩

end Sys2Proof.Machine
end

