-- ==== Sys2Proof/Machine/State.lean ====
section
/-! DEFINITION. The machine's state, its faults and refusals, and the state after reset. -/

namespace Sys2Proof.Machine

/-- Everything the part holds, one field per block (chapter "The part at a glance"), and the commands that wait. -/
structure State where
  link : Link
  store : Store
  weigh : Weigh
  inv : Inventory
  io : PlantIO
  arb : Arbiter
  line : BatchLine
  mill : Mill
  press : Presses
  bag : Bagger
  book : Book
  router : Router
  /-- The commands that wait, first in, first out. -/
  pending : List Instr
  deriving DecidableEq, Repr

/-- Why the machine stops. -/
inductive Fault where
  /-- Raised by `settle` when the consequences of one command outnumber `Config.cascadeBound`. The manual sets no such
  bound. SAFE: the model stops where the hardware goes on (notes/assumptions/2.md). -/
  | cascadeUnfinished
  deriving DecidableEq, Repr

/-- Why a command has no meaning. -/
inductive Refusal where
  /-- Raised by `exec` for a command whose meaning is not written yet; no arm of `exec` does. SAFE. -/
  | notModelled (mnemonic : String)
  deriving DecidableEq, Repr

/-- The machine after a full reset with the configuration `c` in force, the store as given and the strap pins as they stand
(R205, R220). The analog positions and the waiting commands are not the part's to reset. -/
def State.booted (c : Stored) (store : Store) (strapB strapA : Bool) (analogPins : Table Int) (pending : List Instr) : State where
  link := bootLink strapB strapA
  store := store
  weigh := bootWeigh c
  inv := bootInventory c
  io := bootIO c analogPins
  arb := bootArbiter c
  line := bootBatchLine c
  mill := bootMill c
  press := bootPresses c
  bag := bootBagger c
  book := bootBook
  router := bootRouter c
  pending := pending

/-- The machine right after its first full reset: no image has ever been written, so the store is INVALID and every
stored item takes its default (R218, R220). DESIGN CHOICE: both strap pins read low, so the line runs at 38,400 baud, and
every analog front end stands at position 0 (notes/assumptions/3.md, notes/assumptions/7.md). -/
def State.reset : State :=
  State.booted defaultStored ⟨.invalid, none, none, false⟩ false false [] []

end Sys2Proof.Machine
end

