-- ==== Sys2Proof/Machine/Tables.lean ====
section
/-! DEFINITION. Reading and writing the part's numbered tables. -/

namespace Sys2Proof

/-- The record listed under number `k`. -/
def Table.get {α : Type} : Table α → Nat → Option α
  | [], _ => none
  | (j, v) :: t, k => if j = k then some v else Table.get t k

/-- The table with record `v` under number `k`, numbers rising. -/
def Table.set {α : Type} : Table α → Nat → α → Table α
  | [], k, v => [(k, v)]
  | (j, w) :: t, k, v =>
    if j = k then (k, v) :: t else if k < j then (k, v) :: (j, w) :: t else (j, w) :: Table.set t k v

/-- The table with no record under number `k`. -/
def Table.del {α : Type} : Table α → Nat → Table α
  | [], _ => []
  | (j, w) :: t, k => if j = k then Table.del t k else (j, w) :: Table.del t k

/-- The record under number `k`, or the table's default `d`. -/
def Table.getD {α : Type} (d : α) (t : Table α) (k : Nat) : α := (Table.get t k).getD d

/-- The table with record `v` under number `k`; the default `d` is not listed, so that equal tables are equal data. -/
def Table.put {α : Type} [DecidableEq α] (d : α) (t : Table α) (k : Nat) (v : α) : Table α :=
  if v = d then Table.del t k else Table.set t k v

end Sys2Proof
end

