-- ==== Sys2Proof/Machine/Ops.lean ====
section
/-! DEFINITION. The named operations every block uses: rounding, saturation, byte order and the frame check, one setter
per block, and the ways to look at and change channels, bins, inputs, output requests and presses. -/

namespace Sys2Proof.Machine

/-! ### Arithmetic -/

/-- The quotient of naturals rounded to the nearest, an exact half upwards (R4). -/
def rdivNat (a b : Nat) : Nat := (2 * a + b) / (2 * b)

/-- The quotient rounded to the nearest integer, an exact half away from zero (R4). -/
def rdiv (a : Int) (b : Nat) : Int :=
  if a < 0 then -(rdivNat a.natAbs b : Int) else (rdivNat a.natAbs b : Int)

/-- A mass rounded to the nearest multiple of a division (R4). -/
def roundTo (d : Nat) (a : Int) : Int := rdiv a d * d

/-- A value brought into a range (R1). -/
def clampInt (low high a : Int) : Int := max low (min high a)

/-- A counter's sum, saturating at its maximum (R1). -/
def satAdd (limit a b : Nat) : Nat := min (a + b) limit

/-- The mean of the values, rounded; 0 of none (R4, R9). -/
def meanOf (l : List Int) : Int := if l.isEmpty then 0 else rdiv l.sum l.length

/-- The largest value less the smallest (R10). -/
def spreadOf : List Int → Int
  | [] => 0
  | x :: l => l.foldl max x - l.foldl min x

/-! ### Byte order and the frame check -/

/-- The `n` lowest bytes of a number, least significant first (R206). -/
def bytesOf : Nat → Nat → List Byte
  | 0, _ => []
  | n + 1, v => v % 256 :: bytesOf n (v / 256)

/-- The number that bytes spell, least significant first (R206). -/
def ofBytes : List Byte → Nat
  | [] => 0
  | b :: bs => b + 256 * ofBytes bs

/-- The two's complement of an integer in `bits` bits (R207). DESIGN CHOICE: R207 gives no form for an integer that `bits` bits do
not hold; it is sent modulo 2 ^ `bits` (notes/assumptions/80.md). -/
def wrapInt (bits : Nat) (v : Int) : Nat := (v % (2 ^ bits : Nat)).toNat

/-- The integer that `bits` bits spell in two's complement (R207). -/
def signedOf (bits v : Nat) : Int := if 2 * v < 2 ^ bits then (v : Int) else (v : Int) - (2 ^ bits : Nat)

/-- The bytes of an item (R206, R207). DESIGN CHOICE: a value beyond the item's size is sent by its low bytes
(notes/assumptions/80.md). -/
def Item.bytes : Item → List Byte
  | .u8 v => bytesOf 1 v
  | .u16 v => bytesOf 2 v
  | .u32 v => bytesOf 4 v
  | .u64 v => bytesOf 8 v
  | .i16 v => bytesOf 2 (wrapInt 16 v)
  | .i32 v => bytesOf 4 (wrapInt 32 v)

/-- Whether an item's value fits its width (R207). -/
def Item.fits : Item → Bool
  | .u8 v => decide (v < 256)
  | .u16 v => decide (v < 65536)
  | .u32 v => decide (v < 4294967296)
  | .u64 v => decide (v < 18446744073709551616)
  | .i16 v => decide (-32768 ≤ v ∧ v ≤ 32767)
  | .i32 v => decide (-2147483648 ≤ v ∧ v ≤ 2147483647)

/-- The bytes of a list of items. -/
def itemBytes (l : List Item) : List Byte := l.flatMap Item.bytes

/-- `n` shifts of the check register, most significant bit first, polynomial 0x1021 (R206). -/
def crcShift : Nat → BitVec 16 → BitVec 16
  | 0, c => c
  | n + 1, c => crcShift n (if c.msb then (c <<< 1) ^^^ 0x1021#16 else c <<< 1)

/-- The check register after one byte (R206). -/
def crcByte (c : BitVec 16) (b : Byte) : BitVec 16 := crcShift 8 (c ^^^ (BitVec.ofNat 16 b <<< 8))

/-- The check over bytes, starting from 0xFFFF (R206). -/
def crcOf (l : List Byte) : BitVec 16 := l.foldl crcByte 0xFFFF#16

/-- The characters of a frame, SYNC first; LEN is the body's length (R206). -/
def Frame.chars (f : Frame) : List Byte :=
  let checked := f.body.length :: f.kind :: f.tag :: f.body
  0x5A :: checked ++ bytesOf 2 (crcOf checked).toNat

/-! ### One setter per block -/

/-- The state with a new Link Port. -/
def State.setLink (s : State) (v : Link) : State := { s with link := v }
/-- The state with a new settings store. -/
def State.setStore (s : State) (v : Store) : State := { s with store := v }
/-- The state with a new Weigh Unit. -/
def State.setWeigh (s : State) (v : Weigh) : State := { s with weigh := v }
/-- The state with a new Inventory Unit. -/
def State.setInv (s : State) (v : Inventory) : State := { s with inv := v }
/-- The state with a new Plant I/O. -/
def State.setIO (s : State) (v : PlantIO) : State := { s with io := v }
/-- The state with a new Route Arbiter. -/
def State.setArb (s : State) (v : Arbiter) : State := { s with arb := v }
/-- The state with a new Batch Line. -/
def State.setLine (s : State) (v : BatchLine) : State := { s with line := v }
/-- The state with a new Mill Controller. -/
def State.setMill (s : State) (v : Mill) : State := { s with mill := v }
/-- The state with new Press Controllers. -/
def State.setPresses (s : State) (v : Presses) : State := { s with press := v }
/-- The state with a new Bagger Controller. -/
def State.setBag (s : State) (v : Bagger) : State := { s with bag := v }
/-- The state with a new Order Book and Loadout. -/
def State.setBook (s : State) (v : Book) : State := { s with book := v }
/-- The state with a new Event Router. -/
def State.setRouter (s : State) (v : Router) : State := { s with router := v }
/-- The state with other waiting commands. -/
def State.setPending (s : State) (v : List Instr) : State := { s with pending := v }

/-! ### Occurrences -/

/-- An occurrence joins the router's list of waiting occurrences (R195). -/
def State.raise (s : State) (e : Event) : State :=
  s.setRouter { s.router with waiting := s.router.waiting ++ [e] }

/-! ### Channels -/

/-- A channel of the Weigh Unit (R5). -/
def Weigh.get (w : Weigh) : Scale → Channel
  | .main => w.main
  | .micro => w.micro
  | .bagger => w.bagger
  | .truck => w.truck

/-- The Weigh Unit with a new channel. -/
def Weigh.put (w : Weigh) (sc : Scale) (c : Channel) : Weigh :=
  match sc with
  | .main => { w with main := c }
  | .micro => { w with micro := c }
  | .bagger => { w with bagger := c }
  | .truck => { w with truck := c }

/-- A channel. -/
def State.chan (s : State) (sc : Scale) : Channel := s.weigh.get sc

/-- The state with a new channel. -/
def State.setChan (s : State) (sc : Scale) (c : Channel) : State := s.setWeigh (s.weigh.put sc c)

/-- The net of a channel's open dose, n = f − tare (R20, R21). Before the tare it is 0: R28 gives that for the actual of a dose that
ends then, and for CHANNEL_READ it is a DESIGN CHOICE (notes/assumptions/57.md). -/
def netNow (c : Channel) : Int :=
  match c.dose with
  | some d =>
    match d.tare with
    | some t => c.gross - t
    | none => 0
  | none => 0

/-! ### Bins and reservations -/

/-- A defined bin (R32). -/
def State.bin (s : State) (b : Nat) : Option Bin := Table.get s.inv.bins b

/-- The state with a bin defined as given. -/
def State.setBin (s : State) (b : Nat) (v : Bin) : State :=
  s.setInv { s.inv with bins := Table.set s.inv.bins b v }

/-- The state with a defined bin changed; an undefined bin stays undefined. -/
def State.modBin (s : State) (b : Nat) (f : Bin → Bin) : State :=
  match s.bin b with
  | some v => s.setBin b (f v)
  | none => s

/-- What a bin's job asks of its feeder, in permille; 0 is off (R20, R67). -/
def State.askFeeder (s : State) (b : Nat) (permille : Nat) : State :=
  s.modBin b (fun v => { v with feederAsk := permille })

/-- The REWORK bin, if one is defined (R32). -/
def State.reworkBin (s : State) : Option Nat :=
  (s.inv.bins.find? (fun e => decide (e.2.cfg.kind = .rework))).map (·.1)

/-- A live reservation (R52). -/
def State.reservation (s : State) (id : Nat) : Option Reservation :=
  s.inv.reservations.find? (fun r => decide (r.id = id))

/-- A holder's live reservation under an id it keeps. A reservation belongs to the holder that created it (R52), so an id
that died and was assigned anew to another holder is not its former holder's any more (R58). -/
def State.claim (s : State) (h : Holder) (id : Nat) : Option Reservation :=
  (s.reservation id).filter (fun r => decide (r.holder = h))

/-- The live reservations of a bin, oldest first (R52). -/
def reservationsOf (l : List Reservation) (b : Nat) : List Reservation := l.filter (fun r => decide (r.bin = b))

/-- The sum of the held masses of a bin's reservations (R52). -/
def heldTotal (l : List Reservation) (b : Nat) : Nat := ((reservationsOf l b).map (·.held)).sum

/-- The free mass of a bin: on-hand less held total (R52). -/
def State.freeMass (s : State) (b : Nat) : Nat :=
  match s.bin b with
  | some v => v.onHand - heldTotal s.inv.reservations b
  | none => 0

/-! ### Inputs and output requests -/

/-- An input pin (R60). -/
def State.pin (s : State) (n : Nat) : InputPin := Table.getD defaultPin s.io.inputs n

/-- The state with a new input pin. -/
def State.setPin (s : State) (n : Nat) (p : InputPin) : State :=
  s.setIO { s.io with inputs := Table.put defaultPin s.io.inputs n p }

/-- The input that has a use, if one has (R61). -/
def State.inputWith (s : State) (use : InputUse) : Option Nat :=
  (s.io.inputs.find? (fun e => decide (e.2.cfg.use = use))).map (·.1)

/-- Whether the input with a use reads ACTIVE at the latest sample (R60). An input that INPUT_DEFINE has rewritten since that
sample has no debounced state and counts as not ACTIVE, for LINE_RESUME too: DESIGN CHOICE (notes/assumptions/59.md). -/
def State.useActive (s : State) (use : InputUse) : Bool :=
  match s.inputWith use with
  | some n => decide ((s.pin n).active = some true)
  | none => false

/-- The state with a role's output asked on or off by its owner (R64, R82). -/
def State.ask (s : State) (r : Role) (on : Bool) : State :=
  s.setIO { s.io with asks := Table.put false s.io.asks (roleCode r) on }

/-- The state with several roles asked on or off. -/
def State.askAll (s : State) (l : List Role) (on : Bool) : State := l.foldl (fun t r => t.ask r on) s

/-- Whether a role's output is asked on. -/
def State.asked (s : State) (r : Role) : Bool := Table.getD false s.io.asks (roleCode r)

/-- The bin whose definition names an output as its feeder, if one does (R64). -/
def State.feederBin (s : State) (f : Feeder) : Option Nat :=
  (s.inv.bins.find? (fun e => decide (e.2.cfg.feeder = f))).map (·.1)

/-- The bin whose definition names an input as a probe, if one does (R61). -/
def State.probeBin (s : State) (n : Nat) : Option Nat :=
  (s.inv.bins.find? (fun e => decide (e.2.cfg.highProbe = some n ∨ e.2.cfg.lowProbe = some n))).map (·.1)

/-- The value of analog input `n` read now, and whether it is at its limit (R68). -/
def State.readAnalog (s : State) (n : Nat) : Int × Bool :=
  let p := Table.getD 0 s.io.analogPins n
  let q := clampInt 0 1000 p
  let span := Table.getD defaultSpan s.io.spans n
  (span.1 + rdiv ((span.2 - span.1) * q) 1000, decide (q ≠ p))

/-- The state with an analog front end at position `p` (R68). -/
def State.setAnalogPin (s : State) (n : Nat) (p : Int) : State :=
  s.setIO { s.io with analogPins := Table.put 0 s.io.analogPins n p }

/-- The state with an analog output at a value (R69). -/
def State.setAnalogOut (s : State) (n v : Nat) : State :=
  s.setIO { s.io with analogOut := Table.put 0 s.io.analogOut n v }

/-- An input change is offered to its user; one already offered is not offered twice (R63). -/
def State.offer (s : State) (e : PlantEvent) : State :=
  if e ∈ s.io.offered then s else s.setIO { s.io with offered := s.io.offered ++ [e] }

/-- The user takes an input change that was offered to it (R63). -/
def State.takeOffered (s : State) (e : PlantEvent) : State :=
  s.setIO { s.io with offered := s.io.offered.erase e }

/-! ### Presses -/

/-- A press. -/
def Presses.get (v : Presses) : PressId → Press
  | .one => v.one
  | .two => v.two

/-- The Press Controllers with a new press. -/
def Presses.put (v : Presses) (p : PressId) (x : Press) : Presses :=
  match p with
  | .one => { v with one := x }
  | .two => { v with two := x }

/-- A press of the state. -/
def State.pressAt (s : State) (p : PressId) : Press := s.press.get p

/-- The state with a new press. -/
def State.setPress (s : State) (p : PressId) (x : Press) : State := s.setPresses (s.press.put p x)

/-- The state with a press changed. -/
def State.modPress (s : State) (p : PressId) (f : Press → Press) : State := s.setPress p (f (s.pressAt p))

/-! ### Time -/

/-- A number of intervals: a time divided by the interval, rounded, and never less than 1 (R121, R134). -/
def intervalsOf (time interval : Nat) : Nat := max 1 (rdivNat time interval)

/-- Whether the settings store is being written (R219). -/
def State.saving (s : State) : Bool := decide (s.store.state = .saving)

/-- Whether a Line Stop is in force (R81). -/
def State.stopped (s : State) : Bool := s.arb.stop.inForce

/-! ### Lot tallies -/

/-- One consumed pair joins a tally (R51). -/
def Tally.add (t : Tally) (tag mass : Nat) : Tally :=
  match t.pairs.reverse with
  | [] => { t with pairs := [(tag, satAdd max32 0 mass)] }
  | (lastTag, lastMass) :: older =>
    if lastTag = tag then { t with pairs := ((lastTag, satAdd max32 lastMass mass) :: older).reverse }
    else if t.pairs.length < Config.lotCap then { t with pairs := t.pairs ++ [(tag, satAdd max32 0 mass)] }
    else { pairs := ((lastTag, satAdd max32 lastMass mass) :: older).reverse, more := true }

/-- A consumed list joins a tally, pair by pair (R51). -/
def Tally.addAll (t : Tally) (l : List (Nat × Nat)) : Tally := l.foldl (fun u e => u.add e.1 e.2) t

end Sys2Proof.Machine
end

