-- ==== Sys2Proof/Machine/Wire.lean ====
section
/-! DEFINITION. How requests, replies and notices are laid out in frames (R206 to R212). -/

namespace Sys2Proof.Machine

/-! ### Requests -/

/-- A field that may be absent: a presence byte, then the field at its full size, zero when absent (R207). -/
def optItem (mk : Nat → Item) : Option Nat → List Item
  | none => [.u8 0, mk 0]
  | some v => [.u8 1, mk v]

/-- A timer that may be absent: its kind, by its place in the list of kinds, and its remaining time, each as a field that may be
absent (R207). -/
def timerItems (t : Option (Nat × Tenths)) : List Item := optItem .u8 (t.map (·.1)) ++ optItem .u16 (t.map (·.2))

/-- A list of varying length: a count byte, then the entries (R207). -/
def listItems {α : Type} (l : List α) (entry : α → List Item) : List Item :=
  .u8 l.length :: l.flatMap entry

/-- The fields of R7 in order. -/
def channelItems (c : ChannelConfig) : List Item :=
  [.u32 c.capacity, .u16 c.division, .i32 c.zero, .u32 c.span, .u8 c.filterLen, .u8 c.motionWindow, .u16 c.motionBand,
    .u32 c.zeroBand, .u32 c.emptyBand, .u16 c.settleTime, .u32 c.fmax, .u8 c.gain, .u32 c.window]

/-- The fields of R33 in order. -/
def binItems (f : BinFields) : List Item :=
  [.u8 f.kind, .u16 f.code, .u32 f.capacity, .u32 f.lowMark, .u32 f.highMark, .u8 f.outlet, .u8 f.feederType,
    .u8 f.feederNumber, .u16 f.fastSpeed, .u16 f.slowSpeed, .u32 f.fullRate, .u32 f.slowBand, .u32 f.inflight,
    .u8 f.jogTime, .u8 f.jogLimit, .u16 f.stallWindow, .u32 f.stallMass, .u8 f.inletRoute, .u8 f.outletRoute] ++
  optItem .u8 f.highProbe ++ optItem .u8 f.lowProbe ++ [.u8 f.grindSource, .u8 f.grindScreen, .u8 f.arming]

/-- The fields of R87 in order. -/
def stepItems (f : StepFields) : List Item :=
  [.u8 f.channel, .u8 f.bin, .u32 f.amount, .u8 f.tolerance, .u8 f.mark, .u8 f.pattern]

/-- The settings of R121 in order. -/
def millItems (m : MillSettings) : List Item :=
  [.u16 m.startTime, .u16 m.warmTime, .u16 m.drainTime, .u16 m.idleTime, .u16 m.rundownTime, .u16 m.isp, .u8 m.kp,
    .u8 m.ki, .u16 m.uStart, .u16 m.uMin, .u16 m.uMax, .u16 m.iTrip, .u16 m.tripTime, .u16 m.iNoload,
    .u16 m.noFlowTime]

/-- The fields of R134 in order. -/
def profileItems (f : ProfileFields) : List Item :=
  [.u16 f.feedRate, .u16 f.temperature, .u16 f.loadLimit, .u16 f.tripLevel, .u16 f.tripTime, .u16 f.hysteresis,
    .u16 f.coldBand, .u8 f.carryBack]

/-- The fields of R136 in order. -/
def pressItems (f : PressFields) : List Item :=
  [.u8 f.surgeBin, .u8 f.triggers, .u8 f.source, .u16 f.delay, .u8 f.buttonImmediate, .u16 f.startTime,
    .u16 f.rundownTime, .u16 f.starveTime, .u32 f.resumeMass, .u16 f.coldWait]

/-- The fields of R137 in order. -/
def runItems (f : RunFields) : List Item :=
  [.u16 f.number, .u8 f.profile, .u16 f.product, .u8 f.destination, .u32 f.flushMass, .u32 f.massLimit, .u8 f.skip,
    .u8 f.copyFlag]

/-- The fields of R160, number to tail count, in order. DESIGN CHOICE: the source number of each trigger and the burst size are plain
bytes in every form (notes/assumptions/6.md). -/
def bagItems (f : BagFields) : List Item :=
  [.u16 f.number, .u8 f.bin, .u32 f.target, .u16 f.count, .u32 f.underTol, .u32 f.overTol, .u8 f.startTrigger,
    .u8 f.startSource, .u8 f.arming, .u8 f.burstSize, .u8 f.stopTrigger, .u8 f.stopSource, .u8 f.tail]

/-- The fields of one line of ORDER_ENTER in order; its compartment, of a BULK line only, may be absent (R178, R207). -/
def lineItems (f : LineFields) : List Item :=
  [.u16 f.product, .u8 f.form, .u32 f.quantity, .u32 f.underTol, .u32 f.overTol] ++ optItem .u8 f.compartment

/-- The fields of SLOT_ARM; an order and a line are the target of POST_BAG and a press that of CHANGEOVER, and each may be absent
(R201, R207). -/
def slotItems (f : SlotFields) : List Item :=
  [.u8 f.slot, .u8 f.source, .u8 f.action] ++ optItem .u32 f.order ++ optItem .u8 f.line ++ optItem .u8 f.press ++
    [.u16 f.count]

/-- The kind code (R209), the tag and the body's items of a request; `none` for a command that no request frame
carries. DESIGN CHOICE: only RESERVATION_READ begins with a form byte (notes/assumptions/83.md). -/
def requestItems : Instr → Option (Byte × Byte × List Item)
  | .identify t => some (0x01, t, [])
  | .linkStatus t c => some (0x02, t, [.u8 c])
  | .settingsSave t => some (0x03, t, [])
  | .restart t => some (0x04, t, [])
  | .channelSet t c cfg => some (0x08, t, .u8 c :: channelItems cfg)
  | .channelRead t c => some (0x09, t, [.u8 c])
  | .zero t c => some (0x0A, t, [.u8 c])
  | .calSpan t c m => some (0x0B, t, [.u8 c, .u32 m])
  | .inflightSet t b v => some (0x0C, t, [.u8 b, .u32 v])
  | .binDefine t b f => some (0x10, t, .u8 b :: binItems f)
  | .binRead t b => some (0x11, t, [.u8 b])
  | .binCount t b m g => some (0x12, t, [.u8 b, .u32 m] ++ optItem .u16 g)
  | .binReceive t b m => some (0x13, t, [.u8 b, .u32 m])
  | .binLock t b => some (0x14, t, [.u8 b])
  | .binUnlock t b => some (0x15, t, [.u8 b])
  | .reservationRead t f k a => if f = 0 then some (0x16, t, [.u8 0, .u16 k]) else some (0x16, t, [.u8 f, .u8 k, .u8 a])
  | .inputDefine t i p d y u => some (0x18, t, [.u8 i, .u8 p, .u8 d, .u8 y, .u8 u])
  | .outputDefine t o r => some (0x19, t, [.u8 o, .u8 r])
  | .outputSet t m => some (0x1A, t, [.u64 m])
  | .outputClear t m => some (0x1B, t, [.u64 m])
  | .analogDefine t i b p => some (0x1C, t, [.u8 i, .i16 b, .i16 p])
  | .analogSet t o v => some (0x1D, t, [.u8 o, .u16 v])
  | .ioRead t => some (0x1E, t, [])
  | .routeDefine t r ps rs =>
      some (0x1F, t, .u8 r :: listItems ps (fun p => [.u8 p.input, .u8 p.required]) ++ listItems rs (fun x => [.u8 x]))
  | .arbiterSet t p => some (0x20, t, [.u16 p])
  | .resourceRead t => some (0x21, t, [])
  | .lineStop t => some (0x22, t, [])
  | .lineResume t => some (0x23, t, [])
  | .formulaOpen t f p m => some (0x28, t, [.u8 f, .u16 p, .u16 m])
  | .formulaStep t f x => some (0x29, t, .u8 f :: stepItems x)
  | .formulaClose t f => some (0x2A, t, [.u8 f])
  | .formulaRead t f => some (0x2B, t, [.u8 f])
  | .batchlineSet t a b c => some (0x2C, t, [.u16 a, .u16 b, .u16 c])
  | .batchQueue t n f z l d w => some (0x2D, t, [.u16 n, .u8 f, .u32 z, .u16 l, .u8 d, .u8 w])
  | .batchRelease t n => some (0x2E, t, [.u16 n])
  | .handDone t n => some (0x2F, t, [.u16 n])
  | .stepResume t n i a => some (0x30, t, [.u16 n, .u8 i, .u8 a])
  | .batchResume t n => some (0x31, t, [.u16 n])
  | .batchCancel t n => some (0x32, t, [.u16 n])
  | .batchAbandon t n => some (0x33, t, [.u16 n])
  | .batchRead t n => some (0x34, t, [.u16 n])
  | .grindQueue t n a b c l => some (0x38, t, [.u16 n, .u8 a, .u8 b, .u8 c, .u32 l])
  | .grindCancel t n => some (0x39, t, [.u16 n])
  | .grindResume t n => some (0x3A, t, [.u16 n])
  | .grindArm t b a => some (0x3B, t, [.u8 b, .u8 a])
  | .screenFitted t n => some (0x3C, t, [.u8 n])
  | .millSet t m => some (0x3D, t, millItems m)
  | .millResume t => some (0x3E, t, [])
  | .millStop t => some (0x3F, t, [])
  | .millRead t => some (0x40, t, [])
  | .profileSet t n f => some (0x44, t, .u8 n :: profileItems f)
  | .profileRead t n => some (0x45, t, [.u8 n])
  | .pressSet t p f => some (0x46, t, .u8 p :: pressItems f)
  | .runQueue t p r => some (0x47, t, .u8 p :: runItems r)
  | .runCancel t p n => some (0x48, t, [.u8 p, .u16 n])
  | .pressStart t p => some (0x49, t, [.u8 p])
  | .pressResume t p => some (0x4A, t, [.u8 p])
  | .pressStop t p => some (0x4B, t, [.u8 p])
  | .pressTrim t p a b => some (0x4C, t, [.u8 p, .i16 a, .i16 b])
  | .changeoverNow t p => some (0x4D, t, [.u8 p])
  | .pressRead t p => some (0x4E, t, [.u8 p])
  | .baggerSet t a b => some (0x50, t, [.u8 a, .u16 b])
  | .bagQueue t f => some (0x51, t, bagItems f)
  | .bagRunStart t => some (0x52, t, [])
  | .bagRunStop t => some (0x53, t, [])
  | .baggerResume t => some (0x54, t, [])
  | .bagCancel t n => some (0x55, t, [.u16 n])
  | .baggerRead t => some (0x56, t, [])
  | .orderEnter t n c ls => some (0x58, t, [.u32 n, .u32 c] ++ listItems ls lineItems)
  | .lineAssign t o l b => some (0x59, t, [.u32 o, .u8 l, .u8 b])
  | .lineClose t o l => some (0x5A, t, [.u32 o, .u8 l])
  | .orderCancel t o => some (0x5B, t, [.u32 o])
  | .truckIn t o cs => some (0x5C, t, .u32 o :: listItems cs (fun c => [.u32 c]))
  | .spoutReady t => some (0x5D, t, [])
  | .loadoutResume t a => some (0x5E, t, [.u8 a])
  | .truckOut t f => some (0x5F, t, [.u8 f])
  | .dispatchTake t => some (0x60, t, [])
  | .orderRead t o => some (0x61, t, [.u32 o])
  | .sourceLevelSet t n l => some (0x68, t, [.u8 n, .u8 l])
  | .floorSet t f => some (0x69, t, [.u8 f])
  | .slotArm t f => some (0x6A, t, slotItems f)
  | .slotDisarm t n => some (0x6B, t, [.u8 n])
  | .slotRead t => some (0x6C, t, [])
  | _ => none

/-- The frame that carries a request (R206, R207). -/
def requestFrame (c : Instr) : Option Frame :=
  (requestItems c).map (fun e => ⟨e.1, e.2.1, itemBytes e.2.2⟩)

/-- The kind codes that the table of R209 names. -/
def knownKinds : List Byte :=
  [0x01, 0x02, 0x03, 0x04, 0x08, 0x09, 0x0A, 0x0B, 0x0C, 0x10, 0x11, 0x12, 0x13, 0x14, 0x15, 0x16, 0x18, 0x19, 0x1A,
    0x1B, 0x1C, 0x1D, 0x1E, 0x1F, 0x20, 0x21, 0x22, 0x23, 0x28, 0x29, 0x2A, 0x2B, 0x2C, 0x2D, 0x2E, 0x2F, 0x30, 0x31,
    0x32, 0x33, 0x34, 0x38, 0x39, 0x3A, 0x3B, 0x3C, 0x3D, 0x3E, 0x3F, 0x40, 0x44, 0x45, 0x46, 0x47, 0x48, 0x49, 0x4A,
    0x4B, 0x4C, 0x4D, 0x4E, 0x50, 0x51, 0x52, 0x53, 0x54, 0x55, 0x56, 0x58, 0x59, 0x5A, 0x5B, 0x5C, 0x5D, 0x5E, 0x5F,
    0x60, 0x61, 0x68, 0x69, 0x6A, 0x6B, 0x6C]

/-! ### Replies -/

/-- The body of a reply (R210): a refused request is answered with its code and an index, an accepted one with its code
and its items. -/
def Reply.body (r : Reply) : List Byte :=
  if r.code = .ok then replyCode r.code :: itemBytes r.items else [replyCode r.code, r.index % 256]

/-- A body cut into pieces of 250 bytes, the last shorter, 0 bytes when the body is a whole multiple (R214). -/
def cutBody : Nat → List Byte → List (List Byte)
  | 0, b => [b]
  | n + 1, b => if b.length < Config.bodyCap then [b] else b.take Config.bodyCap :: cutBody n (b.drop Config.bodyCap)

/-- The frames of a reply (R214): one frame up to 250 bytes, several for a longer body. -/
def Reply.frames (r : Reply) : List Frame :=
  let b := r.body
  if b.length ≤ Config.bodyCap then [⟨r.kind, r.tag, b⟩]
  else (cutBody b.length b).map (fun piece => ⟨r.kind, r.tag, piece⟩)

/-! ### Notices -/

/-- The source number of an occurrence (R193). -/
def Event.source : Event → Nat
  | .lineStop _ _ => 1
  | .permissiveLost _ _ _ _ => 2
  | .scaleFault _ _ => 3
  | .stepHeld _ _ _ => 4
  | .handAddWait _ _ => 5
  | .batchCall _ => 6
  | .batchWaitStock _ _ => 7
  | .batchDone _ _ => 8
  | .batchHeld _ _ _ => 9
  | .binLow _ _ => 10
  | .binHigh _ _ => 11
  | .reservationFilled _ _ => 12
  | .grindDone _ _ _ => 13
  | .millHeld _ _ => 14
  | .screenNeeded _ _ => 15
  | .pressChangeover p _ _ => 15 + pressCode p
  | .pressHeld p _ _ _ => 17 + pressCode p
  | .pressRunEnd p _ _ => 19 + pressCode p
  | .bagAccepted _ _ => 22
  | .bagRejected _ _ _ => 23
  | .bagRunEnd _ _ => 24
  | .truckReady _ => 25
  | .spoutWait _ _ _ => 26
  | .compartmentDone _ _ => 27
  | .loadoutHeld _ _ _ => 28
  | .orderLoaded _ => 29
  | .lineOver _ => 30
  | .linkOverrun _ => 31
  | .storeResult _ => 32
  | .slotDone k _ _ => 33 + k

/-- The detail word's items, in order (R211). -/
def Event.items : Event → List Item
  | .lineStop c n => [.u8 (stopCauseCode c), .u8 n]
  | .permissiveLost o r i q => [.u8 (ownerCode o), .u8 r, .u8 i, .u8 (activeCode q)]
  | .scaleFault sc st => [.u8 (scaleCode sc), .u8 (channelStatusCode st)]
  | .stepHeld b i r => [.u16 b, .u8 i, .u8 (stepReasonCode r)]
  | .handAddWait b n => [.u16 b, .u16 n]
  | .batchCall b => [.u16 b]
  | .batchWaitStock b n => [.u16 b, .u8 n]
  | .batchDone b l => [.u16 b, .u16 l]
  | .batchHeld b r p => [.u16 b, .u8 (batchReasonCode r), .u8 (batchPhaseCode p)]
  | .binLow b c => [.u8 b, .u8 (match c with | .drawOrCount => 0 | .writeOff => 1)]
  | .binHigh b c => [.u8 b, .u8 (match c with | .markCrossed => 0 | .clamped => 1)]
  | .reservationFilled id b => [.u16 id, .u8 b]
  | .grindDone n d g => [.u16 n, .u8 d, .u8 g]
  | .millHeld r n => [.u8 (millReasonCode r), .u16 n]
  | .screenNeeded n k => [.u16 n, .u8 k]
  | .pressChangeover _ a b => [.u16 a, .u16 b]
  | .pressHeld _ r c n => [.u8 (pressReasonCode r), .u8 (pressCauseCode c), .u16 n]
  | .pressRunEnd _ n r => [.u16 n, .u8 (runEndCode r)]
  | .bagAccepted n a => [.u16 n, .u16 a]
  | .bagRejected n e k => [.u16 n, .u8 (doseEndingCode e), .u8 (min k 255)]
  | .bagRunEnd n c => [.u16 n, .u8 (bagEndCode c)]
  | .truckReady o => [.u32 o]
  | .spoutWait l c m => [.u8 l, .u8 c, .u16 m]
  | .compartmentDone c m => [.u8 c, .u8 0, .u16 m]
  | .loadoutHeld l r c => [.u8 l, .u8 (loadReasonCode r), .u8 (loadCauseCode c)]
  | .orderLoaded o => [.u32 o]
  | .lineOver o => [.u32 o]
  | .linkOverrun n => [.u16 n]
  | .storeResult ok => [.u8 (flagCode (!ok))]
  | .slotDone k n a => [.u8 k, .u8 n, .u8 (slotActionCode a)]

/-- The four bytes of the detail word, with 0 in the bytes not named (R211). -/
def Event.detail (e : Event) : List Byte := (itemBytes e.items ++ [0, 0, 0, 0]).take 4

/-- The frame of a notice (R211). -/
def noticeFrame (source : Nat) (n : Notice) : Frame :=
  ⟨0x7F, 0, [source, n.level, n.count] ++ n.detail⟩

/-- A mass in units of `unit` grams, rounded, saturating at `limit` (R193). -/
def coarse (unit limit mass : Nat) : Nat := min (rdivNat mass unit) limit

end Sys2Proof.Machine
end

