-- ==== Sys2Proof/WellFormed.lean ====
section
/-! DEFINITION. Which commands are well formed: a request whose fields each fit the size R207 gives them and whose lists
keep to their ranges, so that a frame can carry it; an event whose operands name something the part has. A well-formed
request may still hold a value its rule refuses. -/

namespace Sys2Proof

open Sys2Proof.Machine

/-- Whether every byte of a list is one. -/
def bytesOk (l : List Byte) : Bool := l.all (fun b => decide (b < 256))

/-- The ranges that the lists and forms of a request have beyond the sizes of their fields (R71, R59, R176, R184). -/
def Instr.listsOk : Instr → Bool
  | .reservationRead _ form _ age => decide (form ≠ 0 ∨ age = 0)
  | .routeDefine _ _ permissives resources => decide (permissives.length ≤ 6 ∧ resources.length ≤ 4)
  | .orderEnter _ _ _ lines => decide (lines.length ≤ 6)
  | .truckIn _ _ capacities => decide (capacities.length ≤ 6)
  | _ => true

/-- The ranges of an event's operands. -/
def Instr.eventOk : Instr → Bool
  | .unknownKind tag kind body => decide (tag < 256 ∧ kind < 256 ∧ body.length ≤ Config.bodyCap) && bytesOk body
  | .frameReceive chars => bytesOk chars
  | .channelSample channel count _ => decide (channel < 4 ∧ -8388608 ≤ count ∧ count ≤ 8388607)
  | .tareTimeout channel | .settleTimeout channel | .jogTimeout channel => decide (channel < 4)
  | .inputSample levels analog => decide (levels < 18446744073709551616 ∧ analog.length ≤ 8)
  | .pressButtonPress press | .pressFeedbackFound press | .pressFeedbackLost press | .pressChoke press
  | .pressColdHold press | .pressStartTimeout press | .pressColdTimeout press | .starveTimeout press
  | .changeoverDelayTimeout press | .pressRundownTimeout press | .pressControlInterval press _ _ =>
      decide (1 ≤ press ∧ press ≤ 2)
  | .highProbeCovered bin | .lowProbeUncovered bin => decide (1 ≤ bin ∧ bin ≤ Config.binCount)
  | .permitTimeout slot => decide (1 ≤ slot ∧ slot ≤ Config.slotCap)
  | _ => true

/-- Whether a command is well formed. -/
def Instr.wf (c : Instr) : Bool :=
  match requestItems c with
  | some (_, tag, items) => decide (tag < 256) && items.all Item.fits && c.listsOk
  | none => c.eventOk

end Sys2Proof
end

