-- ==== Sys2Proof/Decode.lean ====
section
/-! DEFINITION. Reading a request frame (R206, R207, R209). Reading is total: an unnamed kind, a body of another length
than its kind requires, and a count beyond its list's range give `none` (R214). The opcode table gives its rows no bits,
so no word spells a command. -/

namespace Sys2Proof

open Sys2Proof.Machine

/-! ### Readers. Each takes its bytes and hands the value and the rest on. -/

/-- Reads a field of `n` bytes, least significant first (R206). -/
def readField {α : Type} (n : Nat) (l : List Byte) (k : Nat → List Byte → Option α) : Option α :=
  if l.length < n then none else k (ofBytes (l.take n)) (l.drop n)

/-- Reads a field of `n` bytes in two's complement (R207). -/
def readSigned {α : Type} (n : Nat) (l : List Byte) (k : Int → List Byte → Option α) : Option α :=
  readField n l (fun v r => k (signedOf (8 * n) v) r)

/-- Reads a field of `n` bytes that may be absent: its presence byte comes first (R207). -/
def readOpt {α : Type} (n : Nat) (l : List Byte) (k : Option Nat → List Byte → Option α) : Option α :=
  readField 1 l (fun p l => readField n l (fun v r => k (if p = 0 then none else some v) r))

/-- Reads `count` entries. -/
def readEntries {α β : Type} (entry : List Byte → Option (β × List Byte)) : Nat → List Byte →
    (List β → List Byte → Option α) → Option α
  | 0, l, k => k [] l
  | n + 1, l, k =>
    match entry l with
    | none => none
    | some (x, r) => readEntries entry n r (fun xs r => k (x :: xs) r)

/-- Reads a list: its count byte, at most `limit`, and its entries (R207, R214). -/
def readList {α β : Type} (limit : Nat) (entry : List Byte → Option (β × List Byte)) (l : List Byte)
    (k : List β → List Byte → Option α) : Option α :=
  readField 1 l (fun n r => if limit < n then none else readEntries entry n r k)

/-- The end of the body (R214). -/
def readEnd (c : Instr) (l : List Byte) : Option Instr := if l.isEmpty then some c else none

/-! ### Records -/

/-- Reads the fields of R7. -/
def readChannel {α : Type} (l : List Byte) (k : ChannelConfig → List Byte → Option α) : Option α :=
  readField 4 l fun capacity l => readField 2 l fun division l => readSigned 4 l fun zero l =>
  readField 4 l fun span l => readField 1 l fun filterLen l => readField 1 l fun motionWindow l =>
  readField 2 l fun motionBand l => readField 4 l fun zeroBand l => readField 4 l fun emptyBand l =>
  readField 2 l fun settleTime l => readField 4 l fun fmax l => readField 1 l fun gain l =>
  readField 4 l fun window l =>
    k ⟨capacity, division, zero, span, filterLen, motionWindow, motionBand, zeroBand, emptyBand, settleTime, fmax,
      gain, window⟩ l

/-- Reads the fields of R33. -/
def readBin {α : Type} (l : List Byte) (k : BinFields → List Byte → Option α) : Option α :=
  readField 1 l fun kind l => readField 2 l fun code l => readField 4 l fun capacity l =>
  readField 4 l fun lowMark l => readField 4 l fun highMark l => readField 1 l fun outlet l =>
  readField 1 l fun feederType l => readField 1 l fun feederNumber l => readField 2 l fun fastSpeed l =>
  readField 2 l fun slowSpeed l => readField 4 l fun fullRate l => readField 4 l fun slowBand l =>
  readField 4 l fun inflight l => readField 1 l fun jogTime l => readField 1 l fun jogLimit l =>
  readField 2 l fun stallWindow l => readField 4 l fun stallMass l => readField 1 l fun inletRoute l =>
  readField 1 l fun outletRoute l => readOpt 1 l fun highProbe l => readOpt 1 l fun lowProbe l =>
  readField 1 l fun grindSource l => readField 1 l fun grindScreen l => readField 1 l fun arming l =>
    k ⟨kind, code, capacity, lowMark, highMark, outlet, feederType, feederNumber, fastSpeed, slowSpeed, fullRate,
      slowBand, inflight, jogTime, jogLimit, stallWindow, stallMass, inletRoute, outletRoute, highProbe, lowProbe,
      grindSource, grindScreen, arming⟩ l

/-- Reads the fields of R87. -/
def readStep {α : Type} (l : List Byte) (k : StepFields → List Byte → Option α) : Option α :=
  readField 1 l fun channel l => readField 1 l fun bin l => readField 4 l fun amount l =>
  readField 1 l fun tolerance l => readField 1 l fun mark l => readField 1 l fun pattern l =>
    k ⟨channel, bin, amount, tolerance, mark, pattern⟩ l

/-- Reads the settings of R121. -/
def readMill {α : Type} (l : List Byte) (k : MillSettings → List Byte → Option α) : Option α :=
  readField 2 l fun startTime l => readField 2 l fun warmTime l => readField 2 l fun drainTime l =>
  readField 2 l fun idleTime l => readField 2 l fun rundownTime l => readField 2 l fun isp l =>
  readField 1 l fun kp l => readField 1 l fun ki l => readField 2 l fun uStart l => readField 2 l fun uMin l =>
  readField 2 l fun uMax l => readField 2 l fun iTrip l => readField 2 l fun tripTime l =>
  readField 2 l fun iNoload l => readField 2 l fun noFlowTime l =>
    k ⟨startTime, warmTime, drainTime, idleTime, rundownTime, isp, kp, ki, uStart, uMin, uMax, iTrip, tripTime, iNoload,
      noFlowTime⟩ l

/-- Reads the fields of R134. -/
def readProfile {α : Type} (l : List Byte) (k : ProfileFields → List Byte → Option α) : Option α :=
  readField 2 l fun feedRate l => readField 2 l fun temperature l => readField 2 l fun loadLimit l =>
  readField 2 l fun tripLevel l => readField 2 l fun tripTime l => readField 2 l fun hysteresis l =>
  readField 2 l fun coldBand l => readField 1 l fun carryBack l =>
    k ⟨feedRate, temperature, loadLimit, tripLevel, tripTime, hysteresis, coldBand, carryBack⟩ l

/-- Reads the fields of R136. -/
def readPress {α : Type} (l : List Byte) (k : PressFields → List Byte → Option α) : Option α :=
  readField 1 l fun surgeBin l => readField 1 l fun triggers l => readField 1 l fun source l =>
  readField 2 l fun delay l => readField 1 l fun buttonImmediate l => readField 2 l fun startTime l =>
  readField 2 l fun rundownTime l => readField 2 l fun starveTime l => readField 4 l fun resumeMass l =>
  readField 2 l fun coldWait l =>
    k ⟨surgeBin, triggers, source, delay, buttonImmediate, startTime, rundownTime, starveTime, resumeMass, coldWait⟩ l

/-- Reads the fields of R137. -/
def readRun {α : Type} (l : List Byte) (k : RunFields → List Byte → Option α) : Option α :=
  readField 2 l fun number l => readField 1 l fun profile l => readField 2 l fun product l =>
  readField 1 l fun destination l => readField 4 l fun flushMass l => readField 4 l fun massLimit l =>
  readField 1 l fun skip l => readField 1 l fun copyFlag l =>
    k ⟨number, profile, product, destination, flushMass, massLimit, skip, copyFlag⟩ l

/-- Reads the fields of R160, number to tail count. -/
def readBag {α : Type} (l : List Byte) (k : BagFields → List Byte → Option α) : Option α :=
  readField 2 l fun number l => readField 1 l fun bin l => readField 4 l fun target l => readField 2 l fun count l =>
  readField 4 l fun underTol l => readField 4 l fun overTol l => readField 1 l fun startTrigger l =>
  readField 1 l fun startSource l => readField 1 l fun arming l => readField 1 l fun burstSize l =>
  readField 1 l fun stopTrigger l => readField 1 l fun stopSource l => readField 1 l fun tail l =>
    k ⟨number, bin, target, count, underTol, overTol, startTrigger, startSource, arming, burstSize, stopTrigger,
      stopSource, tail⟩ l

/-- Reads the fields of SLOT_ARM (R201). -/
def readSlot {α : Type} (l : List Byte) (k : SlotFields → List Byte → Option α) : Option α :=
  readField 1 l fun slot l => readField 1 l fun source l => readField 1 l fun action l => readOpt 4 l fun order l =>
  readOpt 1 l fun line l => readOpt 1 l fun press l => readField 2 l fun count l =>
    k ⟨slot, source, action, order, line, press, count⟩ l

/-- Reads one permissive entry (R71). -/
def entryPermissive (l : List Byte) : Option (PermissiveField × List Byte) :=
  readField 1 l fun input l => readField 1 l fun required l => some (⟨input, required⟩, l)

/-- Reads one resource number (R71). -/
def entryResource (l : List Byte) : Option (Nat × List Byte) := readField 1 l fun v l => some (v, l)

/-- Reads one line of ORDER_ENTER (R178). -/
def entryLine (l : List Byte) : Option (LineFields × List Byte) :=
  readField 2 l fun product l => readField 1 l fun form l => readField 4 l fun quantity l =>
  readField 4 l fun underTol l => readField 4 l fun overTol l => readOpt 1 l fun compartment l =>
    some (⟨product, form, quantity, underTol, overTol, compartment⟩, l)

/-- Reads one compartment capacity (R184). -/
def entryCapacity (l : List Byte) : Option (Nat × List Byte) := readField 4 l fun v l => some (v, l)

/-! ### Requests -/

/-- The request of kind `kind` and tag `t` that a body spells (R207, R209). DESIGN CHOICE: a RESERVATION_READ whose form byte is above
1 is read as the second form, and then refused OUT_OF_RANGE (notes/assumptions/75.md). DESIGN CHOICE: RESERVATION_READ alone begins
with a form byte; BATCH_READ and ORDER_READ carry their number alone, 0 for the summary (R114, R192, notes/assumptions/83.md). -/
def readBody (kind t : Byte) (l : List Byte) : Option Instr :=
  match kind with
  | 0x01 => readEnd (.identify t) l
  | 0x02 => readField 1 l fun c l => readEnd (.linkStatus t c) l
  | 0x03 => readEnd (.settingsSave t) l
  | 0x04 => readEnd (.restart t) l
  | 0x08 => readField 1 l fun c l => readChannel l fun cfg l => readEnd (.channelSet t c cfg) l
  | 0x09 => readField 1 l fun c l => readEnd (.channelRead t c) l
  | 0x0A => readField 1 l fun c l => readEnd (.zero t c) l
  | 0x0B => readField 1 l fun c l => readField 4 l fun m l => readEnd (.calSpan t c m) l
  | 0x0C => readField 1 l fun b l => readField 4 l fun v l => readEnd (.inflightSet t b v) l
  | 0x10 => readField 1 l fun b l => readBin l fun f l => readEnd (.binDefine t b f) l
  | 0x11 => readField 1 l fun b l => readEnd (.binRead t b) l
  | 0x12 => readField 1 l fun b l => readField 4 l fun m l => readOpt 2 l fun g l => readEnd (.binCount t b m g) l
  | 0x13 => readField 1 l fun b l => readField 4 l fun m l => readEnd (.binReceive t b m) l
  | 0x14 => readField 1 l fun b l => readEnd (.binLock t b) l
  | 0x15 => readField 1 l fun b l => readEnd (.binUnlock t b) l
  | 0x16 => readField 1 l fun f l =>
      if f = 0 then readField 2 l fun k l => readEnd (.reservationRead t 0 k 0) l
      else readField 1 l fun k l => readField 1 l fun a l => readEnd (.reservationRead t f k a) l
  | 0x18 => readField 1 l fun i l => readField 1 l fun p l => readField 1 l fun d l => readField 1 l fun y l =>
      readField 1 l fun u l => readEnd (.inputDefine t i p d y u) l
  | 0x19 => readField 1 l fun o l => readField 1 l fun r l => readEnd (.outputDefine t o r) l
  | 0x1A => readField 8 l fun m l => readEnd (.outputSet t m) l
  | 0x1B => readField 8 l fun m l => readEnd (.outputClear t m) l
  | 0x1C => readField 1 l fun i l => readSigned 2 l fun b l => readSigned 2 l fun p l =>
      readEnd (.analogDefine t i b p) l
  | 0x1D => readField 1 l fun o l => readField 2 l fun v l => readEnd (.analogSet t o v) l
  | 0x1E => readEnd (.ioRead t) l
  | 0x1F => readField 1 l fun r l => readList 6 entryPermissive l fun ps l => readList 4 entryResource l fun rs l =>
      readEnd (.routeDefine t r ps rs) l
  | 0x20 => readField 2 l fun p l => readEnd (.arbiterSet t p) l
  | 0x21 => readEnd (.resourceRead t) l
  | 0x22 => readEnd (.lineStop t) l
  | 0x23 => readEnd (.lineResume t) l
  | 0x28 => readField 1 l fun f l => readField 2 l fun p l => readField 2 l fun m l =>
      readEnd (.formulaOpen t f p m) l
  | 0x29 => readField 1 l fun f l => readStep l fun x l => readEnd (.formulaStep t f x) l
  | 0x2A => readField 1 l fun f l => readEnd (.formulaClose t f) l
  | 0x2B => readField 1 l fun f l => readEnd (.formulaRead t f) l
  | 0x2C => readField 2 l fun a l => readField 2 l fun b l => readField 2 l fun c l =>
      readEnd (.batchlineSet t a b c) l
  | 0x2D => readField 2 l fun n l => readField 1 l fun f l => readField 4 l fun z l => readField 2 l fun g l =>
      readField 1 l fun d l => readField 1 l fun w l => readEnd (.batchQueue t n f z g d w) l
  | 0x2E => readField 2 l fun n l => readEnd (.batchRelease t n) l
  | 0x2F => readField 2 l fun n l => readEnd (.handDone t n) l
  | 0x30 => readField 2 l fun n l => readField 1 l fun i l => readField 1 l fun a l => readEnd (.stepResume t n i a) l
  | 0x31 => readField 2 l fun n l => readEnd (.batchResume t n) l
  | 0x32 => readField 2 l fun n l => readEnd (.batchCancel t n) l
  | 0x33 => readField 2 l fun n l => readEnd (.batchAbandon t n) l
  | 0x34 => readField 2 l fun n l => readEnd (.batchRead t n) l
  | 0x38 => readField 2 l fun n l => readField 1 l fun a l => readField 1 l fun b l => readField 1 l fun c l =>
      readField 4 l fun v l => readEnd (.grindQueue t n a b c v) l
  | 0x39 => readField 2 l fun n l => readEnd (.grindCancel t n) l
  | 0x3A => readField 2 l fun n l => readEnd (.grindResume t n) l
  | 0x3B => readField 1 l fun b l => readField 1 l fun a l => readEnd (.grindArm t b a) l
  | 0x3C => readField 1 l fun n l => readEnd (.screenFitted t n) l
  | 0x3D => readMill l fun m l => readEnd (.millSet t m) l
  | 0x3E => readEnd (.millResume t) l
  | 0x3F => readEnd (.millStop t) l
  | 0x40 => readEnd (.millRead t) l
  | 0x44 => readField 1 l fun n l => readProfile l fun f l => readEnd (.profileSet t n f) l
  | 0x45 => readField 1 l fun n l => readEnd (.profileRead t n) l
  | 0x46 => readField 1 l fun p l => readPress l fun f l => readEnd (.pressSet t p f) l
  | 0x47 => readField 1 l fun p l => readRun l fun r l => readEnd (.runQueue t p r) l
  | 0x48 => readField 1 l fun p l => readField 2 l fun n l => readEnd (.runCancel t p n) l
  | 0x49 => readField 1 l fun p l => readEnd (.pressStart t p) l
  | 0x4A => readField 1 l fun p l => readEnd (.pressResume t p) l
  | 0x4B => readField 1 l fun p l => readEnd (.pressStop t p) l
  | 0x4C => readField 1 l fun p l => readSigned 2 l fun a l => readSigned 2 l fun b l => readEnd (.pressTrim t p a b) l
  | 0x4D => readField 1 l fun p l => readEnd (.changeoverNow t p) l
  | 0x4E => readField 1 l fun p l => readEnd (.pressRead t p) l
  | 0x50 => readField 1 l fun a l => readField 2 l fun b l => readEnd (.baggerSet t a b) l
  | 0x51 => readBag l fun f l => readEnd (.bagQueue t f) l
  | 0x52 => readEnd (.bagRunStart t) l
  | 0x53 => readEnd (.bagRunStop t) l
  | 0x54 => readEnd (.baggerResume t) l
  | 0x55 => readField 2 l fun n l => readEnd (.bagCancel t n) l
  | 0x56 => readEnd (.baggerRead t) l
  | 0x58 => readField 4 l fun n l => readField 4 l fun c l => readList 6 entryLine l fun ls l =>
      readEnd (.orderEnter t n c ls) l
  | 0x59 => readField 4 l fun o l => readField 1 l fun i l => readField 1 l fun b l => readEnd (.lineAssign t o i b) l
  | 0x5A => readField 4 l fun o l => readField 1 l fun i l => readEnd (.lineClose t o i) l
  | 0x5B => readField 4 l fun o l => readEnd (.orderCancel t o) l
  | 0x5C => readField 4 l fun o l => readList 6 entryCapacity l fun cs l => readEnd (.truckIn t o cs) l
  | 0x5D => readEnd (.spoutReady t) l
  | 0x5E => readField 1 l fun a l => readEnd (.loadoutResume t a) l
  | 0x5F => readField 1 l fun f l => readEnd (.truckOut t f) l
  | 0x60 => readEnd (.dispatchTake t) l
  | 0x61 => readField 4 l fun o l => readEnd (.orderRead t o) l
  | 0x68 => readField 1 l fun n l => readField 1 l fun v l => readEnd (.sourceLevelSet t n v) l
  | 0x69 => readField 1 l fun f l => readEnd (.floorSet t f) l
  | 0x6A => readSlot l fun f l => readEnd (.slotArm t f) l
  | 0x6B => readField 1 l fun n l => readEnd (.slotDisarm t n) l
  | 0x6C => readEnd (.slotRead t) l
  | _ => none

/-- The request a frame carries; `none` where R214 answers UNKNOWN_KIND or BAD_LENGTH. -/
def requestOf (f : Frame) : Option Instr := readBody f.kind f.tag f.body

/-- The command that a word spells by the opcode table's bits. No row of the table has bits, so no word spells one
(notes/assumptions/1.md). -/
def decodeTableWord (_nbits _w : Nat) : Option Instr := none

end Sys2Proof
end

