-- ==== Sys2Proof/Machine/Clock.lean ====
section
/-! DEFINITION. The passing of time: one tick of 0.1 s takes 1 from the remaining time of every running timer. The expiry of a
timer is a command of its own, so a timer that has run out stays at 0 until that command comes. DESIGN CHOICE: a tick is
what the part does on an empty queue (notes/assumptions/5.md). -/

namespace Sys2Proof.Machine

/-- A channel's settle or jog timer after a tick (R21, R23, R24). -/
def Channel.tick (c : Channel) : Channel :=
  { c with dose := c.dose.map (fun d => { d with timer := d.timer.map (· - 1) }) }

/-- A batch's discharge, mix or release timer after a tick (R105, R106, R108). -/
def BatchTimer.tick : BatchTimer → BatchTimer
  | .discharge left => .discharge (left - 1)
  | .mix left => .mix (left - 1)
  | .release left completes => .release (left - 1) completes

/-- The mill's timer after a tick (R122, R128). -/
def MillTimer.tick : MillTimer → MillTimer
  | .start left => .start (left - 1)
  | .warm left => .warm (left - 1)
  | .drain left => .drain (left - 1)
  | .idle left => .idle (left - 1)
  | .rundown left => .rundown (left - 1)

/-- A press's state timer after a tick (R141, R149, R156). -/
def PressTimer.tick : PressTimer → PressTimer
  | .start left => .start (left - 1)
  | .cold left => .cold (left - 1)
  | .starve left => .starve (left - 1)
  | .rundown left => .rundown (left - 1)

/-- A press's state timer and changeover delay after a tick (R150). -/
def Press.tick (x : Press) : Press := { x with timer := x.timer.map PressTimer.tick, delay := x.delay.map (· - 1) }

/-- The bagger's timer after a tick (R168, R169). -/
def BagTimer.tick : BagTimer → BagTimer
  | .check left => .check (left - 1)
  | .release left => .release (left - 1)

/-- The Weigh Unit after a tick. -/
def Weigh.tick (w : Weigh) : Weigh := ⟨w.main.tick, w.micro.tick, w.bagger.tick, w.truck.tick⟩

/-- The permit timers of the transfers after a tick (R77). -/
def Arbiter.tick (a : Arbiter) : Arbiter :=
  { a with transfers := a.transfers.map (fun e => (e.1, { e.2 with timer := e.2.timer.map (· - 1) })) }

/-- The timers of the batches after a tick. -/
def BatchLine.tick (l : BatchLine) : BatchLine :=
  { l with batches := l.batches.map (fun b => { b with timer := b.timer.map BatchTimer.tick }) }

/-- The part after a tick of 0.1 s. -/
def State.tick (s : State) : State :=
  { s with
    weigh := s.weigh.tick
    arb := s.arb.tick
    line := s.line.tick
    mill := { s.mill with timer := s.mill.timer.map MillTimer.tick }
    press := { s.press with one := s.press.one.tick, two := s.press.two.tick }
    bag := { s.bag with timer := s.bag.timer.map BagTimer.tick } }

end Sys2Proof.Machine
end

