-- ==== Sys2Proof/Machine/Flags.lean ====
section
/-! DEFINITION. The conditions that the part works out from other state whenever they are needed: full and short
reservations, met permissives, being filled, outputs as driven at the pins, and who occupies the scale group and the
mixer. -/

namespace Sys2Proof.Machine

/-! ### Transfers -/

/-- The route under a number; 0 and an unwritten number have empty lists (R71). -/
def State.route (s : State) (n : Nat) : Route := Table.getD emptyRoute s.arb.routes n

/-- Whether a permissive is met by the latest input sample; an input without a debounced state meets none (R77). -/
def State.permissiveMet (s : State) (p : Permissive) : Bool := decide ((s.pin p.input).active = some p.required)

/-- The permissives of a transfer with their routes, in leg order and then in the route's order (R79). -/
def State.transferPermissives (s : State) (t : Transfer) : List (Nat × Permissive) :=
  t.legs.flatMap (fun leg => (s.route leg.route).permissives.map (fun p => (leg.route, p)))

/-- The first permissive of a transfer that is out of its required state (R79). -/
def State.failingPermissive (s : State) (t : Transfer) : Option (Nat × Permissive) :=
  (s.transferPermissives t).find? (fun e => !s.permissiveMet e.2)

/-- The resources of legs, each counted once (R74). -/
def State.legResources (s : State) (legs : List Leg) : List Nat :=
  (legs.flatMap (fun leg => (s.route leg.route).resources)).dedup

/-- Whether a resource is held by some transfer (R76). -/
def State.resourceHeld (s : State) (n : Nat) : Bool := s.arb.transfers.any (fun e => e.2.held.contains n)

/-- The transfer of an owner with its slot, if it has one (R74). -/
def State.transferOf (s : State) (o : Owner) : Option (Nat × Transfer) :=
  s.arb.transfers.find? (fun e => decide (e.2.owner = o))

/-- Whether an owner's transfer is FLOWING (R74). -/
def State.flowing (s : State) (o : Owner) : Bool :=
  match s.transferOf o with
  | some (_, t) => decide (t.state = .flowing)
  | none => false

/-- Whether an owner has a transfer that is not ABORTED (R75). -/
def State.hasTransfer (s : State) (o : Owner) : Bool :=
  match s.transferOf o with
  | some (_, t) => decide (t.state ≠ .aborted)
  | none => false

/-- Whether a transfer has a leg on a bin in a direction. -/
def Transfer.touches (t : Transfer) (b : Nat) (fills : Bool) : Bool :=
  t.legs.any (fun leg => decide (leg.bin = b ∧ leg.fills = fills))

/-- Whether a bin is being filled: a FLOWING transfer fills it (R44). -/
def State.beingFilled (s : State) (b : Nat) : Bool :=
  s.arb.transfers.any (fun e => decide (e.2.state = .flowing) && e.2.touches b true)

/-! ### Outputs as driven (R64, R67, R74, R82) -/

/-- Whether the feeder of a bin may be on: every transfer that empties the bin is FLOWING (R74). -/
def State.feederPassed (s : State) (b : Nat) : Bool :=
  s.arb.transfers.all (fun e => !e.2.touches b false || decide (e.2.state = .flowing))

/-- What a bin's feeder is driven at, in permille: 0 in a Line Stop and while a transfer that empties the bin is not
FLOWING (R67, R74, R82). -/
def State.feederDriven (s : State) (b : Nat) : Nat :=
  match s.bin b with
  | some v => if s.stopped || !s.feederPassed b then 0 else min v.feederAsk 1000
  | none => 0

/-- Whether a role's output is on: asked on, no Line Stop, and every transfer that names it as a gate output FLOWING
(R64, R74, R82). DESIGN CHOICE: a transfer names its gate outputs by their roles, so an output that takes such a role while the
transfer is live counts as its gate output (notes/assumptions/71.md). -/
def State.roleDriven (s : State) (r : Role) : Bool :=
  s.asked r && !s.stopped &&
    s.arb.transfers.all (fun e => !e.2.gates.contains r || decide (e.2.state = .flowing))

/-- Whether discrete output `n` is on at its pin (R64). -/
def State.outputOn (s : State) (n : Nat) : Bool :=
  match s.feederBin (.discrete n) with
  | some b => decide (0 < s.feederDriven b)
  | none =>
    match Table.get s.io.roles n with
    | some r => s.roleDriven r
    | none => Table.getD false s.io.freeOn n && !s.stopped

/-- The value of speed output `n` at its pin, in permille (R67). -/
def State.speedOut (s : State) (n : Nat) : Nat :=
  match s.feederBin (.speed n) with
  | some b => s.feederDriven b
  | none => 0

/-- Whether discrete output `n` is owned (R64). -/
def State.outputOwned (s : State) (n : Nat) : Bool :=
  (s.feederBin (.discrete n)).isSome || (Table.get s.io.roles n).isSome

/-- The output that has a role, if one has (R64). -/
def State.roleOutput (s : State) (r : Role) : Option Nat :=
  (s.io.roles.find? (fun e => decide (e.2 = r))).map (·.1)

/-- Whether an output is a gate output of a transfer in the table (R35, R65). -/
def State.gateInUse (s : State) (n : Nat) : Bool :=
  match Table.get s.io.roles n with
  | some r => s.arb.transfers.any (fun e => e.2.gates.contains r)
  | none => false

/-! ### Batches -/

/-- Whether a batch occupies the scale group (R96). -/
def Batch.onScales (b : Batch) : Bool :=
  match b.state with
  | .dosing | .weighed | .discharging | .held .dosing _ | .held .discharging _ => true
  | _ => false

/-- Whether a batch occupies the mixer (R96). -/
def Batch.inMixer (b : Batch) : Bool :=
  match b.state with
  | .discharging | .mixing | .mixed | .releasing | .held .discharging _ | .held .mixing _ | .held .mixed _
  | .held .releasing _ => true
  | _ => false

/-- The batch in the mixer, if one is (R96). -/
def State.mixerBatch (s : State) : Option Batch := s.line.batches.find? Batch.inMixer

/-- The batch in the scale group, if one is (R96). -/
def State.scaleBatch (s : State) : Option Batch := s.line.batches.find? Batch.onScales

/-- Whether a reservation is full; one that no longer exists lacks nothing (R52). -/
def State.reservationFull (s : State) (id : Nat) : Bool :=
  match s.reservation id with
  | some r => decide (r.held = r.wanted)
  | none => true

/-- Whether a holder's reservation is short; one that is no longer live lacks nothing (R52). -/
def State.claimShort (s : State) (h : Holder) (id : Nat) : Bool :=
  match s.claim h id with
  | some r => decide (r.held < r.wanted)
  | none => false

/-- The steps of a batch with their indices, from 1. -/
def Batch.indexed (b : Batch) : List (Nat × StepEntry) := (List.range b.steps.length).map (· + 1) |>.zip b.steps

/-- The reservations that a batch's steps name, with their holders, in the order of the steps (R94). DESIGN CHOICE: BATCH_CANCEL and
BATCH_ABANDON close them in that order (notes/assumptions/82.md). -/
def Batch.claims (b : Batch) : List (Holder × Nat) :=
  b.indexed.filterMap (fun e => e.2.reservation.map (fun id => (.batchStep b.number e.1, id)))

/-- How many of a batch's reservations are short (R97). -/
def State.shortCount (s : State) (b : Batch) : Nat := (b.claims.filter (fun c => s.claimShort c.1 c.2)).length

/-- Whether the open dose of a channel serves batch `n` (R113). -/
def State.batchDoseOn (s : State) (n : Nat) (sc : Scale) : Bool :=
  match (s.chan sc).dose with
  | some d =>
    match d.order.requester with
    | .batchMain m _ | .batchMicro m _ => decide (m = n)
    | _ => false
  | none => false

/-- Whether a dose of batch `n` is open (R99, R113). -/
def State.batchDoseOpen (s : State) (n : Nat) : Bool := s.batchDoseOn n .main || s.batchDoseOn n .micro

/-- The mass held by a holder's reservation; one that is no longer live holds 0 (R186). -/
def State.heldBy (s : State) (h : Holder) (id : Option Nat) : Nat :=
  match id.bind (s.claim h) with
  | some r => r.held
  | none => 0

end Sys2Proof.Machine
end

