-- ==== Sys2Proof/Machine/Tasks.lean ====
section
/-! DEFINITION. What one block tells another within a command. A block's operation answers the new state and the tasks that
follow from it, in order; `Cascade.lean` runs them, each with everything that follows from it before the next. -/

namespace Sys2Proof.Machine

/-- Where a press acts on a changeover signal (R152): while it feeds, at the end of STARTING, at PRESS_RESUME, or on
leaving STARVED. -/
inductive SignalPlace where
  | feeding | starting | resumed | starved
  deriving DecidableEq, Repr

/-- One thing a block is told. -/
inductive Task where
  /-- A posting to the bin has been made (R107, R124, R149). -/
  | posted (bin : Nat)
  /-- The high probe of the bin has been found COVERED (R124). -/
  | highCovered (bin : Nat)
  /-- A top-up gave mass to the reservation (R172). -/
  | toppedUp (id : Nat)
  /-- An occurrence is raised at this place of the order (R79, R81). -/
  | raise (e : Event)
  /-- A Line Stop ends the channel's open dose STOPPED (R28). -/
  | stopDose (sc : Scale)
  /-- A dose report is handed to its requester, with the consumed list of its draw (R29). -/
  | doseEnded (rep : DoseReport) (consumed : List (Nat × Nat))
  /-- The channel has no open dose any more, and a waiting requester presents again (R19). -/
  | channelFree (sc : Scale)
  /-- A sample of the channel has been taken, and the users of its weight judge it (R105, R185). -/
  | sampled (sc : Scale)
  /-- Released resources are offered to the waiting transfers (R76). -/
  | grantScan
  /-- An input sample judges the transfer in a slot (R77, R79). -/
  | judgeTransfer (slot : Nat)
  /-- The owner's transfer has entered FLOWING (R78). -/
  | ownerFlowing (o : Owner)
  /-- The owner's transfer was aborted on a permissive loss (R79). -/
  | ownerAborted (o : Owner)
  /-- The owner's permit time has expired (R77). -/
  | ownerNoPermit (o : Owner)
  /-- Each job is told of a Line Stop (R81). -/
  | stopBatches | stopMill
  | stopPress (p : PressId)
  | stopBagger | stopLoadout
  /-- The start selection (R97). -/
  | startSelection
  /-- A channel takes the batch's next step (R100, R102). -/
  | takeStep (batch : Nat) (sc : Scale)
  /-- A step goes on by the ending of its dose, its transfer ended (R101, R102). -/
  | finishStep (batch step : Nat) (ending : DoseEnding)
  /-- A WEIGHED batch looks whether the mixer is EMPTY (R96). -/
  | tryDischarge
  /-- The room check of the MIXED batch (R107). -/
  | roomCheck
  /-- The same, when the bin is the batch's destination (R107). -/
  | roomCheckAt (bin : Nat)
  /-- Steps 2 to 6 of the completion of a release (R108). -/
  | finishRelease (batch : Nat)
  /-- Steps 3 to 5 of the completion of a grind request (R124), and of its setting aside for no flow (R127). -/
  | finishGrind (number : Nat)
  | finishNoFlow (number : Nat)
  /-- The serving selection, in the mill's state (R119). -/
  | serving
  /-- The serving selection at the end of the drain or warm time (R119, R122, R128). -/
  | servingOrIdle
  /-- The mill enters RUNNING with its current request (R123). -/
  | millRun
  /-- Steps 3 to 5 of an engaged loop interval (R124). -/
  | millWatch
  /-- A changeover from its run end on, the outgoing transfer ended (R153). -/
  | pressChange (p : PressId)
  /-- Step 5 and 6 of a changeover (R153). -/
  | pressEnter (p : PressId) (outgoing : Nat)
  /-- The changeover delay timer that step 1 of a control interval started at 0 expires (R144, R150). -/
  | delayExpired (p : PressId)
  /-- Steps 2 to 6 of an engaged control interval (R144). -/
  | pressWatch (p : PressId)
  /-- A starved press is judged (R149). -/
  | starvedJudge (p : PressId)
  /-- Steps 3 and 4 of a choke on a reading of the motor current (R146). -/
  | finishChoke (p : PressId) (current : Int)
  /-- Steps 2 to 4 of a starving out, the transfer ended (R149). -/
  | finishStarved (p : PressId) (run : Nat)
  /-- Steps 2 and 3 of PRESS_STOP (R156). -/
  | finishPressStop (p : PressId)
  /-- The low-probe draw in the press's name is handed to it (R148). -/
  | carryForward (p : PressId) (bin removed : Nat) (consumed : List (Nat × Nat)) (boundaries : List Nat)
  /-- A trigger of class SOURCE by a tally slot's action (R150, R203). -/
  | slotTrigger (p : PressId)
  /-- The head bag run enters WAIT_BAG (R166). -/
  | enterWaitBag
  /-- A bag begins if it can (R166). -/
  | tryBegin
  /-- Steps 2 to 5 of the end of a bag run (R171). -/
  | finishBagRun (run : Nat) (cause : BagEnd)
  /-- A run has become head (R163). -/
  | becomeHead
  /-- A COMMAND start from a tally slot (R165). -/
  | bagStart
  /-- What a compartment dose brings about once its transfer is ended (R187). -/
  | finishLoad (rep : DoseReport) (consumed : List (Nat × Nat))
  /-- The loadout chooses its next line (R185). -/
  | chooseLine
  /-- The truck's order is judged for LOADED (R185). -/
  | judgeLoaded
  /-- One posted bag (R180). -/
  | postBag (order line : Nat)
  /-- The RELEASE_BATCH action (R203). -/
  | releaseBatch
  /-- An occurrence is offered to one press as SOURCE, or as SURGE_LOW (R196). -/
  | listenSource (p : PressId) (e : Event)
  | listenSurgeLow (p : PressId) (e : Event)
  /-- An occurrence is offered to bag run `run` as its stop trigger, or as its start trigger (R196). -/
  | listenBagStop (run : Nat) (e : Event)
  | listenBagStart (run : Nat) (e : Event)
  /-- An occurrence is offered to auto-grind, to the start selection, to a bag run held SHORT (R196). -/
  | listenGrind (e : Event)
  | listenBatch (e : Event)
  | listenShort (e : Event)
  /-- Stages 2 and 3 of an offering (R195). -/
  | slotOrNotice (e : Event)
  /-- The slot's count after its action (R202). -/
  | slotCount (slot : Nat)
  deriving DecidableEq, Repr

/-- The answer of a block's operation: the state it leaves and the tasks that follow. -/
abbrev Result := State × List Task

/-- A second operation after a first one; the first one's tasks come first. -/
def Result.andThen (r : Result) (f : State → Result) : Result := ((f r.1).1, r.2 ++ (f r.1).2)

/-- An answer with no further task. -/
def State.done (s : State) : Result := (s, [])

end Sys2Proof.Machine
end

