-- ==== Sys2Proof/Machine/Inventory.lean ====
section
/-! DEFINITION. The Inventory Unit's postings (R39 to R58). A posting is taken whole: the on-hand and the lot list, then
give-back, closing, top-up and the mark events, in the order of R39. -/

namespace Sys2Proof.Machine

/-! ### Lot lists (R48 to R50) -/

/-- A lot piece of mass 1 or more joins a lot list (R48). -/
def addPiece (lots : List Lot) (p : Piece) : List Lot :=
  if p.mass = 0 then lots
  else
    match lots.reverse with
    | [] => [⟨p.tag, p.product, p.mass, false⟩]
    | newest :: older =>
      if newest.tag = p.tag ∧ newest.product = p.product then
        ({ newest with mass := newest.mass + p.mass } :: older).reverse
      else if lots.length < Config.lotCap then lots ++ [⟨p.tag, p.product, p.mass, false⟩]
      else ({ newest with mass := newest.mass + p.mass, mixed := true } :: older).reverse

/-- The pieces that fit a room, in order; the piece that reaches the capacity is taken in part (R40). -/
def cutPieces : Nat → List Piece → List Piece
  | _, [] => []
  | room, p :: ps => { p with mass := min p.mass room } :: cutPieces (room - p.mass) ps

/-- Pieces join a lot list in order, as far as the room goes (R40). -/
def addPieces (lots : List Lot) (room : Nat) (ps : List Piece) : List Lot := (cutPieces room ps).foldl addPiece lots

/-- A draw takes mass from the oldest entries: the list that remains and the consumed list (R49). -/
def takeLots : Nat → List Lot → List Lot × List (Nat × Nat)
  | _, [] => ([], [])
  | m, l :: ls =>
    if m = 0 then (l :: ls, [])
    else if m < l.mass then ({ l with mass := l.mass - m } :: ls, [(l.tag, m)])
    else ((takeLots (m - l.mass) ls).1, (l.tag, l.mass) :: (takeLots (m - l.mass) ls).2)

/-- The lot boundaries of a draw in a press's name, in order: for each removed entry followed by an entry of another tag, the
tag of that entry, which has become the oldest (R50). -/
def lotBoundaries : Nat → List Lot → List Nat
  | m, l :: next :: ls =>
    if m < l.mass then []
    else (if l.tag = next.tag then [] else [next.tag]) ++ lotBoundaries (m - l.mass) (next :: ls)
  | _, _ => []

/-- A high-probe correction adds mass to the newest entry, or makes an entry of tag 0 (R45). -/
def liftNewest (lots : List Lot) (code mass : Nat) : List Lot :=
  match lots.reverse with
  | [] => [⟨0, code, mass, false⟩]
  | newest :: older => ({ newest with mass := newest.mass + mass } :: older).reverse

/-! ### Reservations (R54 to R58) -/

/-- Give-back over reservations from the youngest: `excess` grams of held mass are taken (R55). -/
def giveBackFrom (b : Nat) : Nat → List Reservation → List Reservation
  | _, [] => []
  | excess, r :: rs =>
    if r.bin = b then
      { r with held := r.held - min r.held excess } :: giveBackFrom b (excess - r.held) rs
    else r :: giveBackFrom b excess rs

/-- Give-back on bin `b` whose on-hand is `onHand` (R55). The list is oldest first. -/
def giveBack (b onHand : Nat) (l : List Reservation) : List Reservation :=
  (giveBackFrom b (heldTotal l b - onHand) l.reverse).reverse

/-- Top-up over reservations, oldest first, with `free` grams: the new list and the ids that were given mass (R56). -/
def topUpFrom (b : Nat) : Nat → List Reservation → List Reservation × List Nat
  | _, [] => ([], [])
  | free, r :: rs =>
    if r.bin = b ∧ r.held < r.wanted ∧ 0 < free then
      let given := min (r.wanted - r.held) free
      let rest := topUpFrom b (free - given) rs
      ({ r with held := r.held + given } :: rest.1, r.id :: rest.2)
    else
      let rest := topUpFrom b free rs
      (r :: rest.1, rest.2)

/-- Top-up on a bin: RESERVATION_FILLED for each reservation it makes full, oldest first, and word to the holders that
were given mass (R56). -/
def topUp (s : State) (b : Nat) : Result :=
  let r := topUpFrom b (s.freeMass b) s.inv.reservations
  let s1 := s.setInv { s.inv with reservations := r.1 }
  let filled := r.2.filter (fun id => s1.reservationFull id)
  (filled.foldl (fun t id => t.raise (.reservationFilled id b)) s1, r.2.map .toppedUp)

/-- A reservation is removed; its held mass becomes free and top-up runs (R58). A dead id changes nothing. -/
def closeReservation (s : State) (id : Nat) : Result :=
  match s.reservation id with
  | none => s.done
  | some r =>
    topUp (s.setInv { s.inv with reservations := s.inv.reservations.filter (fun x => decide (x.id ≠ id)) }) r.bin

/-- A holder's reservation is closed if it is live; an id that died changes nothing, nor does one that was assigned anew to
another holder (R58). -/
def closeClaim (s : State) (h : Holder) (id : Nat) : Result :=
  if (s.claim h id).isSome then closeReservation s id else s.done

/-- The same for a holder's record of an id, which may be absent. -/
def closeHeld (s : State) (h : Holder) (id : Option Nat) : Result :=
  match id with
  | some i => closeClaim s h i
  | none => s.done

/-- Several holders' reservations are closed, one after another, each with its top-up (R58). DESIGN CHOICE: they are closed in the
order of the batch's steps or of the order's lines (R112, R113, R182, R190), so that an earlier closing may top up a short
reservation that a later one closes, and raise RESERVATION_FILLED for it (notes/assumptions/82.md). -/
def closeAll (s : State) (claims : List (Holder × Nat)) : Result :=
  claims.foldl (fun r c => r.andThen (fun t => closeClaim t c.1 c.2)) s.done

/-- A holder changes the wanted mass of its live reservation (R57). -/
def changeWanted (s : State) (id wanted : Nat) : Result :=
  match s.reservation id with
  | none => s.done
  | some r =>
    if wanted = 0 then closeReservation s id
    else
      let next := { r with wanted := wanted, held := min r.held wanted }
      let s1 := s.setInv { s.inv with
        reservations := s.inv.reservations.map (fun x => if x.id = id then next else x) }
      let s2 := if r.held < r.wanted ∧ next.held = wanted then s1.raise (.reservationFilled id r.bin) else s1
      topUp s2 r.bin

/-! ### The end of a posting (R39, R47) -/

/-- The reservations of bin `b` whose wanted mass reached 0 are closed (R39, R58). -/
def closeEmpty (b : Nat) (l : List Reservation) : List Reservation :=
  l.filter (fun r => decide (r.bin ≠ b ∨ r.wanted ≠ 0))

/-- The mark events of a posting that took the on-hand of bin `b` from `before` to what it now is (R47). `clamped` says
that the posting clamped a fill (R40). -/
def markEvents (s : State) (b before : Nat) (cause : LowCause) (clamped : Bool) : State :=
  match s.bin b with
  | none => s
  | some v =>
    let s1 := if v.cfg.lowMark ≤ before ∧ v.onHand < v.cfg.lowMark then s.raise (.binLow b cause) else s
    if clamped then s1.raise (.binHigh b .clamped)
    else if before ≤ v.cfg.highMark ∧ v.cfg.highMark < v.onHand then s1.raise (.binHigh b .markCrossed)
    else s1

/-- What follows the change of on-hand in a posting, in the order of R39. `topping` says that top-up runs whether or not a
reservation closes (R56). -/
def finishPosting (s : State) (b before : Nat) (topping : Bool) (cause : LowCause) (clamped : Bool) : Result :=
  match s.bin b with
  | none => s.done
  | some v =>
    let given := giveBack b v.onHand s.inv.reservations
    let kept := closeEmpty b given
    let s1 := s.setInv { s.inv with reservations := kept }
    let r := if topping || decide (kept.length < given.length) then topUp s1 b else s1.done
    (markEvents r.1 b before cause clamped, r.2 ++ [.posted b])

/-! ### Postings -/

/-- The outcome of a fill that its poster is handed (R40). -/
structure FillResult where
  result : Result
  accepted : Nat
  clamped : Bool

/-- A fill (R40). A fill of 0 grams posts nothing, and a posting to an undefined bin is discarded (R39). -/
def fill (s : State) (b mass : Nat) (pieces : List Piece) : FillResult :=
  match s.bin b with
  | none => ⟨s.done, 0, false⟩
  | some v =>
    if mass = 0 then ⟨s.done, 0, false⟩
    else
      let room := v.cfg.capacity - v.onHand
      let taken := min mass room
      let clamped := decide (room < mass)
      let lots := if keepsLots v.cfg.kind then addPieces v.lots taken pieces else v.lots
      let s1 := s.setBin b { v with onHand := v.onHand + taken, lots := lots }
      ⟨finishPosting s1 b v.onHand (decide (0 < taken)) .drawOrCount clamped, taken, clamped⟩

/-- The outcome of a draw that its drawer is handed (R41). `boundaries` lists the tags of its lot boundaries (R50). -/
structure DrawResult where
  result : Result
  removed : Nat
  consumed : List (Nat × Nat)
  boundaries : List Nat

/-- The held and wanted mass of a reservation fall by a draw of `x` grams from its bin (R54). -/
def chargeReservation (l : List Reservation) (id : Option Nat) (b x : Nat) : List Reservation :=
  l.map (fun r => if some r.id = id ∧ r.bin = b then
    { r with held := r.held - min x r.held, wanted := r.wanted - min x r.wanted } else r)

/-- A draw of `x` grams, by a reservation where one is named (R41, R54). -/
def draw (s : State) (b x : Nat) (id : Option Nat) : DrawResult :=
  match s.bin b with
  | none => ⟨s.done, 0, [], []⟩
  | some v =>
    let removed := min x v.onHand
    let taken := takeLots removed v.lots
    let s1 := s.setInv { s.inv with reservations := chargeReservation s.inv.reservations id b x }
    let s2 := s1.setBin b { v with onHand := v.onHand - removed, lots := taken.1 }
    ⟨finishPosting s2 b v.onHand false .drawOrCount false, removed, taken.2, lotBoundaries removed v.lots⟩

/-- A count (R43). -/
def countBin (s : State) (b mass tag : Nat) : Result :=
  match s.bin b with
  | none => s.done
  | some v =>
    let lots : List Lot :=
      if keepsLots v.cfg.kind && decide (0 < mass) then [⟨tag, v.cfg.code, mass, false⟩] else []
    finishPosting (s.setBin b { v with onHand := mass, counted := true, lots := lots }) b v.onHand true .drawOrCount false

/-- The high-probe correction of a bin that is being filled and whose high probe is COVERED (R45). -/
def highCorrection (s : State) (b : Nat) : Result :=
  match s.bin b with
  | none => s.done
  | some v =>
    if v.onHand < v.cfg.highMark then
      let lots := if keepsLots v.cfg.kind then liftNewest v.lots v.cfg.code (v.cfg.highMark - v.onHand) else v.lots
      finishPosting (s.setBin b { v with onHand := v.cfg.highMark, lots := lots }) b v.onHand true .drawOrCount false
    else s.done

/-- The write-off of a bin's whole on-hand (R46). -/
def writeOff (s : State) (b : Nat) : Result :=
  match s.bin b with
  | none => s.done
  | some v =>
    finishPosting (s.setBin b { v with
      onHand := 0
      lots := []
      writeOff := satAdd max32 v.writeOff v.onHand
      counted := false }) b v.onHand false .writeOff false

/-! ### Creation (R53) -/

/-- The id a creation takes: the counter's value, past 0, 65,536 and every live id (R52). -/
def freshId (live : List Nat) : Nat → Nat → Nat
  | 0, n => n
  | fuel + 1, n =>
    let m := if n = 0 ∨ max16 < n then 1 else n
    if live.contains m then freshId live fuel (m + 1) else m

/-- One reservation is created as the youngest of its bin (R52, R53). -/
def createOne (s : State) (b : Nat) (h : Holder) (wanted : Nat) : State × Nat :=
  let id := freshId (s.inv.reservations.map (·.id)) (Config.reservationCap + 2) s.inv.nextId
  let r : Reservation := ⟨id, b, h, wanted, min wanted (s.freeMass b)⟩
  (s.setInv { s.inv with
    reservations := s.inv.reservations ++ [r]
    nextId := if id = max16 then 1 else id + 1 }, id)

/-- The claims of a set are created in order (R53). -/
def createAll : State → List (Nat × Holder × Nat) → State × List Nat
  | s, [] => (s, [])
  | s, (b, h, wanted) :: rest =>
    let one := createOne s b h wanted
    let more := createAll one.1 rest
    (more.1, one.2 :: more.2)

/-- The check of a set of claims: the refusal and the place of the failing claim, if there is one (R53). -/
def claimRefusal (s : State) (claims : List (Nat × Holder × Nat)) : Option ReplyCode :=
  if claims.any (fun c => (s.bin c.1).isNone) then some .noSuch
  else if claims.any (fun c => ((s.bin c.1).map (·.locked)).getD false) then some .wrongState
  else if Config.reservationCap < s.inv.reservations.length + claims.length then some .noRoom
  else none

end Sys2Proof.Machine
end

