-- ==== Sys2Proof/Machine/Arbiter.lean ====
section
/-! DEFINITION. The Route Arbiter (R74 to R81) and what Plant I/O does at an input sample (R60, R63, R44). -/

namespace Sys2Proof.Machine

/-! ### The transfer table -/

/-- The transfer in a slot takes a new form. -/
def putTransfer (s : State) (slot : Nat) (t : Transfer) : State :=
  s.setArb { s.arb with transfers := Table.set s.arb.transfers slot t }

/-- A transfer's outputs are asked off: the feeders of the bins it empties and its gates (R78, R79). DESIGN CHOICE: a press's
request for its divert is withdrawn with its transfer, however that ends, and is not remembered over it
(notes/assumptions/85.md). -/
def dropOutputs (s : State) (t : Transfer) : State :=
  ((t.legs.filter (fun leg => !leg.fills)).foldl (fun u leg => u.askFeeder leg.bin 0) s).askAll t.gates false

/-- A transfer enters FLOWING: its bins are being filled, with the high-probe correction of R45 for one that begins to be,
and its owner is told (R78). -/
def enterFlowing (s : State) (slot : Nat) (t : Transfer) : Result :=
  let filled := (t.legs.filter (·.fills)).map (·.bin)
  let begun := filled.filter (fun b => !s.beingFilled b)
  let covered := begun.filter (fun b => decide ((s.bin b).bind (·.highCovered) = some true))
  let s1 := putTransfer s slot { t with state := .flowing, timer := none }
  let r := covered.foldl (fun r b => r.andThen (fun u => highCorrection u b)) s1.done
  (r.1, r.2 ++ [.ownerFlowing t.owner])

/-- A grant: the resources are marked as held, the transfer leaves the waiting list, and its permissives are judged (R76,
R77). -/
def grant (s : State) (slot : Nat) (t : Transfer) : Result :=
  let t := { t with held := s.legResources t.legs }
  let s1 := s.setArb { s.arb with waiting := s.arb.waiting.erase slot }
  if (s.failingPermissive t).isNone then enterFlowing s1 slot t
  else (putTransfer s1 slot { t with state := .permitWait, timer := some s.arb.permitTime }, [])

/-- Whether all resources of a transfer are free (R76). -/
def grantable (s : State) (t : Transfer) : Bool := (s.legResources t.legs).all (fun n => !s.resourceHeld n)

/-- The grant scan over slots, oldest request first (R76). -/
def grantScanOver : List Nat → State → Result
  | [], s => s.done
  | slot :: rest, s =>
    match Table.get s.arb.transfers slot with
    | none => grantScanOver rest s
    | some t =>
      if grantable s t then (grant s slot t).andThen (grantScanOver rest) else grantScanOver rest s

/-- The grant scan (R76). Nothing waits in a Line Stop (R81). -/
def grantScan (s : State) : Result := if s.stopped then s.done else grantScanOver s.arb.waiting s

/-- The lowest slot from 1 that holds no transfer (R75). -/
def freeSlot (s : State) : Nat :=
  (((List.range Config.slotCap).map (· + 1)).find? (fun n => (Table.get s.arb.transfers n).isNone)).getD 0

/-- The refusal of a transfer request, if it is refused (R75). -/
def transferRefusal (s : State) (o : Owner) (legs : List Leg) : Option ReplyCode :=
  if s.stopped then some .lineStopped
  else if s.hasTransfer o then some .inUse
  else if legs.any (fun leg => ((s.bin leg.bin).map (·.locked)).getD false) then some .wrongState
  else none

/-- A transfer is removed from the table and the waiting list, with no further effect. -/
def removeTransfer (s : State) (slot : Nat) : State :=
  s.setArb { s.arb with transfers := Table.del s.arb.transfers slot, waiting := s.arb.waiting.erase slot }

/-- An accepted transfer request: an ABORTED record of the owner is removed, the new transfer takes the lowest free slot at
the tail of the waiting list, and it is granted if its resources are free (R75). -/
def openTransfer (s : State) (o : Owner) (legs : List Leg) (gates : List Role) : Result :=
  let s1 := match s.transferOf o with
    | some (slot, _) => removeTransfer s slot
    | none => s
  let slot := freeSlot s1
  let t : Transfer := ⟨o, legs, gates, .waiting, [], none, false, none⟩
  let s2 := putTransfer s1 slot t
  let s3 := s2.setArb { s2.arb with waiting := s2.arb.waiting ++ [slot] }
  if grantable s3 t then grant s3 slot t else s3.done

/-- The owner ends its transfer (R80). An owner without one changes nothing. -/
def endTransfer (s : State) (o : Owner) : Result :=
  match s.transferOf o with
  | none => s.done
  | some (slot, t) =>
    let s1 := removeTransfer (dropOutputs s t) slot
    (s1, if t.held.isEmpty then [] else [.grantScan])

/-- A permissive loss aborts a FLOWING transfer, in the order of R79. -/
def abortTransfer (s : State) (slot : Nat) (t : Transfer) (route : Nat) (p : Permissive) : Result :=
  let s1 := dropOutputs s t
  let s2 := putTransfer s1 slot { t with state := .aborted, held := [], cause := some (.permit route p.input) }
  (s2, [.ownerAborted t.owner, .raise (.permissiveLost t.owner route p.input p.required), .grantScan])

/-- An input sample judges the transfer in a slot (R77, R79). -/
def judgeTransfer (s : State) (slot : Nat) : Result :=
  match Table.get s.arb.transfers slot with
  | none => s.done
  | some t =>
    match t.state with
    | .flowing =>
      match s.failingPermissive t with
      | some (route, p) => abortTransfer s slot t route p
      | none => s.done
    | .permitWait =>
      if t.expired = false ∧ (s.failingPermissive t).isNone then enterFlowing s slot t else s.done
    | _ => s.done

/-- The permit timer of the transfer in a slot expires (R77). -/
def permitExpiry (s : State) (slot : Nat) : Result :=
  match Table.get s.arb.transfers slot with
  | none => s.done
  | some t =>
    if t.state = .permitWait ∧ t.timer.isSome then
      (putTransfer s slot { t with timer := none, expired := true }, [.ownerNoPermit t.owner])
    else s.done

/-! ### Line Stop -/

/-- A cause joins the record of causes (R81). -/
def addCause (l : LineStop) : StopCause → LineStop
  | .input => { l with byInput := true }
  | .request => { l with byRequest := true }

/-- A transfer as a Line Stop leaves it (R81). -/
def stopTransfer (t : Transfer) : Transfer :=
  if t.state = .aborted then t
  else { t with state := .aborted, held := [], timer := none, cause := some .lineStop }

/-- How many transfers a Line Stop aborts (R81). -/
def abortCount (s : State) : Nat := (s.arb.transfers.filter (fun e => decide (e.2.state ≠ .aborted))).length

/-- A Line Stop comes into force, or its further cause is recorded (R81). DESIGN CHOICE: the doses are ended in the order MAIN,
MICRO, BAGGER, TRUCK, and the jobs are told in the order batches, mill, press 1, press 2, bagger, loadout
(notes/assumptions/60.md). -/
def bringLineStop (s : State) (cause : StopCause) : Result :=
  if s.stopped then (s.setArb { s.arb with stop := addCause s.arb.stop cause }).done
  else
    let active : Bool := s.useActive .lineStop
    let stop := addCause ⟨true, active, false⟩ cause
    let s1 := (s.arb.transfers.map (·.2)).foldl dropOutputs s
    let s2 := s1.setIO { s1.io with freeOn := [] }
    let s3 := s2.setArb { s2.arb with
      transfers := s2.arb.transfers.map (fun e => (e.1, stopTransfer e.2))
      waiting := []
      stop := stop }
    (s3, [.stopDose .main, .stopDose .micro, .stopDose .bagger, .stopDose .truck, .stopBatches, .stopMill,
      .stopPress .one, .stopPress .two, .stopBagger, .stopLoadout, .raise (.lineStop cause (abortCount s))])

/-! ### Input samples -/

/-- The raw state of an input whose pin is at `level` (R60). -/
def rawState (cfg : InputConfig) (level : Bool) : Bool := if cfg.inverted then !level else level

/-- An input after a sample (R60). -/
def debounce (p : InputPin) (level : Bool) : InputPin :=
  let raw := rawState p.cfg level
  match p.active with
  | none => { p with active := some raw, count := 0 }
  | some a =>
    if raw = a then { p with count := 0 }
    else if max 1 (p.cfg.debounce / 10) ≤ p.count + 1 then { p with active := some raw, count := 0 }
    else { p with count := p.count + 1 }

/-- All 64 inputs after a sample (R60). -/
def sampleInputs (s : State) (levels : Nat) : State :=
  (List.range Config.pinCount).foldl (fun t n => t.setPin n (debounce (t.pin n) (levels.testBit n))) s

/-- What a probe does at a sample whose input went from `old` to `new`: its state afterwards and whether the change is an
event. The first state of a probe or of its input is taken without an event, and so is that of the first sample after BIN_DEFINE
named its input (R44, R62). -/
def probeAt (renamed : Bool) (prev old new : Option Bool) : Option Bool × Bool :=
  if renamed = true ∨ prev = none ∨ old = none then (new, false)
  else if old = new then (prev, false)
  else (new, true)

/-- A bin's probes take a sample; `old` is the state before it. A covered high probe and an uncovered low probe are offered
as events, any other change only changes the probe state (R44 to R46). -/
def sampleProbes (old : State) (s : State) (b : Nat) : Result :=
  match s.bin b with
  | none => s.done
  | some v =>
    let high := match v.cfg.highProbe with
      | some n => probeAt v.renamed v.highCovered (old.pin n).active (s.pin n).active
      | none => (none, false)
    let low := match v.cfg.lowProbe with
      | some n => probeAt v.renamed v.lowCovered (old.pin n).active (s.pin n).active
      | none => (none, false)
    let highOffer := high.2 && decide (high.1 = some true)
    let lowOffer := low.2 && decide (low.1 = some false)
    let s1 := s.setBin b { v with
      highCovered := if highOffer then v.highCovered else high.1
      lowCovered := if lowOffer then v.lowCovered else low.1
      renamed := false }
    let s2 := if highOffer then s1.offer (.highProbe b) else s1
    let s3 := if lowOffer then s2.offer (.lowProbe b) else s2
    (s3, if low.2 && !lowOffer then
      ([PressId.one, PressId.two].filter (fun p => decide ((s.pressAt p).cfg.surgeBin = b))).map .starvedJudge else [])

/-- The event that an EDGE input of a use gives at its active edge (R61, R63). -/
def edgeEvent : InputUse → Option PlantEvent
  | .handAddButton => some .handAddButton
  | .spoutReadyButton => some .spoutReadyButton
  | .baggerStart => some .baggerStart
  | .baggerStop => some .baggerStop
  | .bagPresent => some .bagPresent
  | .bagGone => some .bagGone
  | .press1Button => some (.pressButton 1)
  | .press2Button => some (.pressButton 2)
  | _ => none

/-- The active edges of the EDGE inputs are offered to their users (R63). -/
def offerEdges (old s : State) : State :=
  (List.range Config.pinCount).foldl (fun t n =>
    if (old.pin n).active = some false ∧ (t.pin n).active = some true then
      match edgeEvent (t.pin n).cfg.use with
      | some e => t.offer e
      | none => t
    else t) s

/-- The LINE_STOP input: offered at its change to ACTIVE and when the first sample after a full reset finds it ACTIVE; in a
Line Stop an ACTIVE input joins the record of causes (R81). -/
def offerLineStop (old s : State) : State :=
  match s.inputWith .lineStop with
  | none => s
  | some n =>
    if (s.pin n).active = some true then
      if s.stopped then s.setArb { s.arb with stop := addCause s.arb.stop .input }
      else if old.io.firstSample || decide ((old.pin n).active = some false) then s.offer .lineStopInput
      else s
    else s

/-- The running input of a press (R61). -/
def pressRunning : PressId → InputUse
  | .one => .press1Running
  | .two => .press2Running

/-- Whether a press runs its motor under a found feedback, so that a loss of it matters (R154). -/
def Press.motorRuns (x : Press) : Bool :=
  x.feedbackFound && (match x.state with | .idle | .stopping => false | _ => true)

/-- A press's running feedback found and lost is offered to it (R141, R154). -/
def offerPressFeedback (s : State) (p : PressId) : State :=
  match s.inputWith (pressRunning p) with
  | none => s
  | some n =>
    let x := s.pressAt p
    let on := decide ((s.pin n).active = some true)
    if x.state = .starting ∧ x.feedbackFound = false ∧ on = true then s.offer (.pressFeedbackFound (match p with | .one => 1 | .two => 2))
    else if x.motorRuns = true ∧ on = false then s.offer (.pressFeedbackLost (match p with | .one => 1 | .two => 2))
    else s

/-- Whether the mill runs its motor under a found feedback (R129). -/
def Mill.motorRuns (m : Mill) : Bool :=
  m.feedbackFound && (match m.state with | .stopped | .stopping => false | _ => true)

/-- The mill's running feedback found and lost is offered to it (R122, R129). -/
def offerMillFeedback (s : State) : State :=
  match s.inputWith .millRunning with
  | none => s
  | some n =>
    let on := decide ((s.pin n).active = some true)
    if s.mill.state = .starting ∧ s.mill.feedbackFound = false ∧ on = true then s.offer .millFeedbackFound
    else if s.mill.motorRuns = true ∧ on = false then s.offer .millFeedbackLost
    else s

/-- An ACTIVE MIXER_EMPTY input is offered to a batch in RELEASING (R108). -/
def offerMixerEmpty (s : State) : State :=
  if s.useActive .mixerEmpty ∧ s.line.batches.any (fun b => decide (b.state = .releasing)) then s.offer .mixerEmpty
  else s

/-- The analog front ends take the positions given with a sample (R68). -/
def setAnalogPins : Nat → List Int → State → State
  | _, [], s => s
  | n, p :: ps, s => setAnalogPins (n + 1) ps (s.setAnalogPin n p)

/-- An input sample: debouncing, probes, the offers to the inputs' users, and the judgement of the FLOWING and PERMIT_WAIT
transfers, lowest slot first (R60, R63, R77, R79). -/
def takeInputSample (s : State) (levels : Nat) (analog : List Int) : Result :=
  let s1 := setAnalogPins 0 analog (sampleInputs s levels)
  let r := (s1.inv.bins.map (·.1)).foldl (fun r b => r.andThen (fun t => sampleProbes s t b)) s1.done
  let s2 := offerLineStop s (offerEdges s r.1)
  let s3 := offerMixerEmpty (offerMillFeedback (offerPressFeedback (offerPressFeedback s2 .one) .two))
  (s3.setIO { s3.io with firstSample := false }, r.2 ++ (s3.arb.transfers.map (fun e => .judgeTransfer e.1)))

/-- The high probe of a bin is found COVERED: the correction while the bin is being filled (R45); the mill judges it
(R124). DESIGN CHOICE: so it does for a bin whose definition names no high probe (notes/assumptions/12.md). -/
def highCover (s : State) (b : Nat) : Result :=
  let s1 := s.modBin b (fun v => { v with highCovered := some true })
  if s1.beingFilled b then highCorrection s1 b else s1.done

/-- The press that draws a SURGE bin: the press fed by it, while it has an active run (R44). -/
def drawingPress (s : State) (v : Bin) : Option PressId :=
  if v.cfg.kind = .surge then
    match (match v.cfg.outlet with | .press1 => some PressId.one | .press2 => some PressId.two | _ => none) with
    | some p => if (s.pressAt p).active.isSome then some p else none
    | none => none
  else none

/-- The low probe of a bin is found UNCOVERED (R46): the remaining on-hand, if any, is drawn in the name of the press that draws
the bin, or written off; a press whose surge bin it is hears of it (R148, notes/assumptions/26.md). DESIGN CHOICE: so it is for a bin
whose definition names no low probe (notes/assumptions/12.md). -/
def lowUncover (s : State) (b : Nat) : Result :=
  match s.bin b with
  | none => s.done
  | some v =>
    let s1 := s.setBin b { v with lowCovered := some false }
    match drawingPress s1 v with
    | some p =>
      if v.onHand = 0 then (s1, [.carryForward p b 0 [] []])
      else
        let d := draw s1 b v.onHand none
        (d.result.1, d.result.2 ++ [.carryForward p b d.removed d.consumed d.boundaries])
    | none => if 0 < v.onHand then writeOff s1 b else s1.done

end Sys2Proof.Machine
end

