-- ==== Sys2Proof/Machine/Weigh.lean ====
section
/-! DEFINITION. The Weigh Unit: conversion, filtering, stability and status (R8 to R12), zero and auto-zero (R16, R17), and
the dose order from its presentation to its report (R19 to R30). -/

namespace Sys2Proof.Machine

/-! ### Conversion, filtering, stability, status -/

/-- The raw mass of a count: (c − Z) × K / 65,536, rounded (R8). -/
def rawMass (cfg : ChannelConfig) (count : Int) : Int := rdiv ((count - cfg.zero) * cfg.span) 65536

/-- The filtered mass: the mean of the raw masses of the newest N entries held (R9). -/
def filteredMass (cfg : ChannelConfig) (samples : List Sample) : Int :=
  meanOf ((samples.take cfg.filterLen).map (·.raw))

/-- The mean of the newest N counts held, rounded (R16, R18). -/
def meanCount (c : Channel) : Int := meanOf ((c.samples.take c.cfg.filterLen).map (·.count))

/-- Stability from the histories (R10): over filtered masses, or over counts while K is 0. -/
def stableNow (cfg : ChannelConfig) (samples : List Sample) (filtered : List Int) : Bool :=
  if cfg.span = 0 then
    let w := (samples.take cfg.motionWindow).map (·.count)
    decide (w.length = cfg.motionWindow ∧ spreadOf w ≤ 64)
  else
    let w := filtered.take cfg.motionWindow
    decide (w.length = cfg.motionWindow ∧ spreadOf w ≤ cfg.motionBand)

/-- The status from f, by the cases of R11 after the first. -/
def statusOf (cfg : ChannelConfig) (f : Int) : ChannelStatus :=
  if cfg.span = 0 then .uncalibrated
  else if (cfg.capacity : Int) + 9 * cfg.division < f then .overRange
  else if f < -(20 * (cfg.division : Int)) then .underRange
  else .ok

/-- Whether a status is one of the fault statuses (R12). -/
def ChannelStatus.isFault : ChannelStatus → Bool
  | .overRange | .underRange | .converterFault => true
  | _ => false

/-- A valid count enters the histories; f, stability and status follow (R8 to R11). -/
def enterSample (c : Channel) (count : Int) : Channel :=
  let samples := (⟨count, rawMass c.cfg count⟩ :: c.samples).take Config.historyCap
  let f := filteredMass c.cfg samples
  let filtered := (f :: c.filtered).take Config.historyCap
  let status := statusOf c.cfg f
  { c with
    samples := samples
    filtered := filtered
    gross := f
    stable := stableNow c.cfg samples filtered
    status := status
    okGross := if status = .ok then f else c.okGross }

/-- A channel after a sample, and whether the count entered its histories (R6, R11). A count at either converter limit is
invalid. -/
def sampleChannel (c : Channel) (count : Int) (valid : Bool) : Channel × Bool :=
  if !valid || decide (count ≤ -8388608 ∨ 8388607 ≤ count) then
    ({ c with status := .converterFault, validRun := 0 }, false)
  else if c.status = .converterFault then
    if c.validRun + 1 < 5 then ({ c with validRun := c.validRun + 1 }, false)
    else (enterSample { c with validRun := c.validRun + 1, samples := [], filtered := [] } count, true)
  else (enterSample c count, true)

/-! ### Zero -/

/-- The state conditions of ZERO and auto-zero (R16 check 4). -/
def zeroAllowed (c : Channel) : Bool :=
  (c.status = .ok || c.status = .uncalibrated) && c.stable && decide (c.gross.natAbs ≤ c.cfg.zeroBand)

/-- The effect of ZERO and auto-zero (R16). -/
def takeZero (c : Channel) : Channel :=
  { c with
    cfg := { c.cfg with zero := meanCount c }
    samples := c.samples.map (fun e => { e with raw := 0 })
    filtered := c.filtered.map (fun _ => 0)
    gross := 0
    okGross := 0 }

/-- Auto-zero at the batch line's request (R17). -/
def autoZero (s : State) (sc : Scale) : State :=
  let c := s.chan sc
  if c.dose.isNone && !s.saving && zeroAllowed c then s.setChan sc (takeZero c) else s

/-! ### The dose -/

/-- What a dose drives its feeder at for a speed; a discrete feeder is switched on (R20). -/
def feederDrive (o : DoseOrder) (speed : Nat) : Nat :=
  match o.feeder with
  | some (.speed _) => speed
  | some (.discrete _) => 1000
  | none => 0

/-- The feeder of a dose is asked at a value; a hand-add has none. -/
def askDoseFeeder (s : State) (o : DoseOrder) (value : Nat) : State :=
  match o.bin, o.feeder with
  | some b, some _ => s.askFeeder b value
  | _, _ => s

/-- The open dose of a channel takes a new form. -/
def putDose (s : State) (sc : Scale) (d : OpenDose) : State := s.setChan sc { s.chan sc with dose := some d }

/-- The channel's settle time, as a timer just started. -/
def settleTimer (s : State) (sc : Scale) : Option Tenths := some (s.chan sc).cfg.settleTime

/-- In-flight adaptation of an ACCEPTED dose (R30). -/
def adaptInflight (s : State) (sc : Scale) (d : OpenDose) (actual : Int) (settled : Option Settled) : State :=
  let e := actual - d.order.target
  let cfg := (s.chan sc).cfg
  match d.order.bin with
  | none => s
  | some b =>
    if d.order.adapt = true ∧ d.jogs = 0 ∧ settled = some .stability ∧ e.natAbs ≤ cfg.window then
      s.modBin b (fun v => { v with inflight := (clampInt 0 cfg.fmax ((v.inflight : Int) + rdiv (e * cfg.gain) 8)).toNat })
    else s

/-- The holder of the reservation that a requester's dose draws by (R52, R54). -/
def requesterHolder : Requester → Holder
  | .batchMain n i | .batchMicro n i => .batchStep n i
  | .bagger n _ => .bagRun n
  | .loadout n i => .orderLine n i

/-- The reservation a dose draws by: the one its order names, while that is still its requester's (R54, R58). -/
def doseClaim (s : State) (o : DoseOrder) : Option Nat :=
  o.reservation.filter (fun id => (s.claim (requesterHolder o.requester) id).isSome)

/-- The draw a dose posts: its bin and its mass, when it names a bin and A is above 0 (R29). -/
def doseDraw (s : State) (d : OpenDose) (actual : Int) : DrawResult :=
  match d.order.bin with
  | some b => if 0 < actual then draw s b actual.toNat (doseClaim s d.order) else ⟨s.done, 0, [], []⟩
  | none => ⟨s.done, 0, [], []⟩

/-- The mass posted as the draw (R29). -/
def doseDrawn (d : OpenDose) (actual : Int) : Nat := if d.order.bin.isSome then actual.toNat else 0

/-- An ending of the open dose, in the order of R29. -/
def endDose (s : State) (sc : Scale) (d : OpenDose) (ending : DoseEnding) (actual : Int) (settled : Option Settled) :
    Result :=
  let s1 := askDoseFeeder s d.order 0
  let drawn := doseDraw s1 d actual
  let s2 := drawn.result.1
  let s3 := if ending = .accepted then adaptInflight s2 sc d actual settled else s2
  let rep : DoseReport :=
    { requester := d.order.requester, bin := d.order.bin, ending := ending, target := d.order.target, actual := actual,
      tare := d.tare, inflight := d.order.inflight, jogs := d.jogs, settled := settled, drawn := doseDrawn d actual }
  (s3.setChan sc { s3.chan sc with dose := none, report := some rep },
    drawn.result.2 ++ [.doseEnded rep drawn.consumed, .channelFree sc])

/-- The open dose of a channel, if any, ends with the net of its newest sample, 0 before the tare (R28). DESIGN CHOICE: it carries no
mark of settling, also where a judgement into a jog came before (R29, notes/assumptions/65.md). -/
def endOpenDose (s : State) (sc : Scale) (ending : DoseEnding) : Result :=
  match (s.chan sc).dose with
  | some d => endDose s sc d ending (netNow (s.chan sc)) none
  | none => s.done

/-- The dose enters SETTLING, its feeder off and its settle timer started (R22 to R25). -/
def enterSettling (s : State) (sc : Scale) (d : OpenDose) : Result :=
  ((putDose (askDoseFeeder s d.order 0) sc { d with state := .settling, timer := settleTimer s sc, nets := [] }), [])

/-- The dose enters FAST, SLOW or JOGGING with its feeder on. `first` is the net of the sample that switched it on, when a
sample did (R26). -/
def feedOn (s : State) (sc : Scale) (d : OpenDose) (state : DoseState) (speed : Nat) (timer : Option Tenths)
    (first : Option Int) : Result :=
  (putDose (askDoseFeeder s d.order (feederDrive d.order speed)) sc
    { d with state := state, timer := timer, nets := first.toList }, [])

/-- HAND_ADD_WAIT for a hand-add of the batch line that enters HAND_WAIT (R102, R193). -/
def raiseHandWait (s : State) (d : OpenDose) : State :=
  match d.order.requester with
  | .batchMain n _ | .batchMicro n _ =>
    s.raise (.handAddWait n (coarse (s.chan .micro).cfg.division max16 d.order.target))
  | _ => s

/-- The tare is taken and the dose goes on by the first case that applies (R21). -/
def takeTare (s : State) (sc : Scale) (d : OpenDose) (tare : Int) (first : Option Int) : Result :=
  let d := { d with tare := some tare }
  let cutoff : Int := (d.order.target : Int) - d.order.inflight
  if d.order.feeder.isNone then
    (raiseHandWait (putDose s sc { d with state := .handWait, timer := none }) d, [])
  else if cutoff ≤ 0 then
    if 1 ≤ d.order.jogLimit then
      feedOn s sc { d with jogs := 1 } .jogging d.order.slow (some d.order.jogTime) first
    else enterSettling s sc d
  else if cutoff - d.order.slowBand ≤ 0 then feedOn s sc d .slow d.order.slow none first
  else feedOn s sc d .fast d.order.fast none first

/-- A settled dose is judged with its actual (R23). -/
def judgeDose (s : State) (sc : Scale) (d : OpenDose) (actual : Int) (mark : Settled) (first : Option Int) : Result :=
  let e := actual - d.order.target
  if e < -(d.underTol : Int) then
    if d.jogs < d.order.jogLimit then
      feedOn s sc { d with jogs := d.jogs + 1 } .jogging d.order.slow (some d.order.jogTime) first
    else endDose s sc d .underWeight actual (some mark)
  else if (d.overTol : Int) < e then endDose s sc d .overWeight actual (some mark)
  else endDose s sc d .accepted actual (some mark)

/-- The stall watch at a sample of net `n`: the net joins the window, and the dose ends STALL when it has risen by less than
the stall mass over a whole window (R26). A window of w tenths is 5 × w samples
(notes/assumptions/21.md). Such an ending carries no mark of settling (notes/assumptions/65.md). -/
def stallWatch (s : State) (sc : Scale) (d : OpenDose) (n : Int) : Result :=
  let samples := 5 * d.order.stallWindow
  let nets := (n :: d.nets).take (samples + 1)
  let d := { d with nets := nets }
  match nets[samples]? with
  | some old =>
    if 0 < samples ∧ n - old < (d.order.stallMass : Int) then endDose s sc d .stall n none
    else (putDose s sc d, [])
  | none => (putDose s sc d, [])

/-- A sample of net `n` at an open dose, by the dose's state (R21 to R26). `f` is the sample's filtered mass. -/
def doseSample (s : State) (sc : Scale) (d : OpenDose) (f : Int) : Result :=
  let stable := (s.chan sc).stable
  let n := f - d.tare.getD 0
  let cutoff : Int := (d.order.target : Int) - d.order.inflight
  match d.state with
  | .taring => if stable then takeTare s sc d f (some 0) else s.done
  | .fast =>
    if cutoff ≤ n then enterSettling s sc d
    else if cutoff - d.order.slowBand ≤ n then
      stallWatch (askDoseFeeder s d.order (feederDrive d.order d.order.slow)) sc { d with state := .slow } n
    else stallWatch s sc d n
  | .slow => if cutoff ≤ n then enterSettling s sc d else stallWatch s sc d n
  | .settling => if stable then judgeDose s sc d n .stability (some n) else s.done
  | .jogging => stallWatch s sc d n
  | .handWait => s.done

/-- A sample of a channel: conversion, filtering and status, SCALE_FAULT and the end of an open dose at a channel fault, or
the open dose's own decision; then the users of the channel's weight judge it (R6, R12, R27). DESIGN CHOICE: a discharge that this very
sample brings about is judged by it too (notes/assumptions/76.md), and SCALE_FAULT is raised before what the end of the dose raises
(notes/assumptions/84.md). -/
def takeSample (s : State) (sc : Scale) (count : Int) (valid : Bool) : Result :=
  let c := s.chan sc
  let next := sampleChannel c count valid
  let s1 := s.setChan sc next.1
  let fault := next.1.status.isFault && decide (next.1.status ≠ c.status)
  let s2 := if fault then s1.raise (.scaleFault sc next.1.status) else s1
  let dosed : Result :=
    match c.dose with
    | none => s2.done
    | some d =>
      if fault then
        endDose s2 sc d .scale (match d.tare with | some t => c.okGross - t | none => 0) none
      else if next.2 then doseSample s2 sc d next.1.gross
      else s2.done
  (dosed.1, dosed.2 ++ [.sampled sc])

/-- The outcome of a presentation: whether it was refused for an open dose (R19). -/
structure Presented where
  result : Result
  refused : Bool

/-- A dose order is presented to a channel (R19, R20). -/
def presentDose (s : State) (sc : Scale) (o : DoseOrder) : Presented :=
  let c := s.chan sc
  if c.dose.isSome then ⟨s.done, true⟩
  else if c.status ≠ .ok then
    let rep : DoseReport :=
      { requester := o.requester, bin := o.bin, ending := .scale, target := o.target, actual := 0, tare := none,
        inflight := o.inflight, jogs := 0, settled := none, drawn := 0 }
    ⟨(s.setChan sc { c with report := some rep }, [.doseEnded rep []]), false⟩
  else
    let d : OpenDose :=
      { order := o, state := .taring, underTol := max o.underTol (2 * c.cfg.division),
        overTol := max o.overTol (2 * c.cfg.division), tare := none, jogs := 0, timer := some c.cfg.settleTime,
        nets := [] }
    ⟨(s.setChan sc { c with dose := some d }, []), false⟩

/-- The order a requester fills from a bin record (R19). -/
def binOrder (v : Bin) (req : Requester) (target underTol overTol b : Nat) (res : Option Nat) (jogLimit : Nat)
    (adapt : Bool) : DoseOrder :=
  { requester := req, target := target, underTol := underTol, overTol := overTol, bin := some b, reservation := res,
    feeder := some v.cfg.feeder, fast := v.cfg.fastSpeed, slow := v.cfg.slowSpeed, slowBand := v.cfg.slowBand,
    inflight := v.inflight, jogTime := v.cfg.jogTime, jogLimit := jogLimit, stallWindow := v.cfg.stallWindow,
    stallMass := v.cfg.stallMass, adapt := adapt }

/-- A hand-add order (R25, R102). -/
def handOrder (req : Requester) (target tol : Nat) : DoseOrder :=
  { requester := req, target := target, underTol := tol, overTol := tol, bin := none, reservation := none, feeder := none,
    fast := 0, slow := 0, slowBand := 0, inflight := 0, jogTime := 1, jogLimit := 0, stallWindow := 0, stallMass := 0,
    adapt := false }

/-! ### Expiries and the operator's hand -/

/-- The settle timer expires in TARING (R21). -/
def tareExpiry (s : State) (sc : Scale) : Result :=
  match (s.chan sc).dose with
  | some d => if d.state = .taring then takeTare s sc d (s.chan sc).gross none else s.done
  | none => s.done

/-- The settle timer expires in SETTLING (R23). -/
def settleExpiry (s : State) (sc : Scale) : Result :=
  match (s.chan sc).dose with
  | some d => if d.state = .settling then judgeDose s sc d (netNow (s.chan sc)) .timeout none else s.done
  | none => s.done

/-- The jog timer expires (R24). -/
def jogExpiry (s : State) (sc : Scale) : Result :=
  match (s.chan sc).dose with
  | some d => if d.state = .jogging then enterSettling s sc d else s.done
  | none => s.done

/-- HAND_DONE or the hand-add button reaches MICRO's dose (R25). -/
def handReady (s : State) : Result :=
  match (s.chan .micro).dose with
  | some d => if d.state = .handWait then enterSettling s .micro d else s.done
  | none => s.done

end Sys2Proof.Machine
end

