-- ==== Sys2Proof/Machine/Bagging.lean ====
section
/-! DEFINITION. The Bagger Controller: start and stop triggers (R164, R165, R170), the bag cycle (R166 to R169), run end
(R171) and holds (R172). -/

namespace Sys2Proof.Machine

/-! ### The head run -/

/-- The head run of the queue (R160). -/
def State.headRun (s : State) : Option BagRun := s.bag.queue.head?

/-- The head run takes a new form. -/
def putHead (s : State) (r : BagRun) : State := s.setBag { s.bag with queue := r :: s.bag.queue.tail }

/-- The bagger's timer is set or stopped. -/
def bagTimer (s : State) (t : Option BagTimer) : State := s.setBag { s.bag with timer := t }

/-- The stock check of a run (R166). -/
def stockCheck (s : State) (r : BagRun) : Bool :=
  match s.claim (.bagRun r.number) r.reservation with
  | some x => decide (min r.target x.wanted ≤ x.held)
  | none => false

/-- The held phase of a hold from a state (R172). -/
def heldPhase : BagState → BagPhase
  | .burstWait => .burstWait
  | .held _ _ phase => phase
  | _ => .waitBag

/-- The state of a held phase. -/
def phaseBagState : BagPhase → BagState
  | .waitBag => .waitBag
  | .burstWait => .burstWait

/-- The head run enters HELD (R172): the transfer is ended, the reject output asked off, and the clamp kept while a bag is
on the spout. -/
def holdBag (s : State) (r : BagRun) (reason : BagReason) (cause : BagCause) : Result :=
  let ended := endTransfer s .bagger
  let s1 := bagTimer (putHead ended.1 { r with state := .held reason cause (heldPhase r.state), permitLost := false }) none
  ((s1.ask .baggerReject false).ask .baggerClamp r.onSpout, ended.2)

/-! ### Run end -/

/-- Step 1 of the end of the head run `r`: its transfer is ended, which offers the released resources to the waiting list, and then
the other steps of R171 follow. -/
def endBagRun (s : State) (r : BagRun) (cause : BagEnd) : Result :=
  let ended := endTransfer (putHead s r) .bagger
  (ended.1, ended.2 ++ [.finishBagRun r.number cause])

/-- Steps 2 to 5 of the end of the head run, in the order of R171. -/
def finishBagRun (s : State) (run : Nat) (cause : BagEnd) : Result :=
  match s.headRun with
  | none => s.done
  | some r =>
    if r.number = run then
      let closed := closeClaim s (.bagRun r.number) r.reservation
      let rep : BagReport := ⟨r.number, cause, r.accepted, r.rejected, r.begun, r.tally⟩
      let s1 := closed.1.setBag { closed.1.bag with
        report := some rep, queue := closed.1.bag.queue.tail, timer := none, bagPresent := false }
      let s2 := (s1.ask .baggerClamp false).ask .baggerReject false
      (s2.raise (.bagRunEnd r.number cause), closed.2 ++ [.becomeHead])
    else s.done

/-- The end cause of a run that ends by itself or by its stop trigger (R171). -/
def ownEnd (r : BagRun) : BagEnd := if r.count ≤ r.accepted then .count else .stopped

/-- A run has become head, and its start trigger decides its state (R163). -/
def becomeHead (s : State) : Result :=
  match s.headRun with
  | none => s.done
  | some r =>
    if r.start = .command ∧ s.bag.startMark = true then
      (putHead (s.setBag { s.bag with startMark := false }) { r with burst := 0, state := .waitBag }, [.enterWaitBag])
    else (putHead s { r with state := .armed }).done

/-! ### The bag cycle -/

/-- The legs of the bagger's transfer (R166). -/
def bagLegs (s : State) (r : BagRun) : List Leg := [⟨r.bin, false, ((s.bin r.bin).map (·.cfg.outletRoute)).getD 0⟩]

/-- The head run enters WAIT_BAG: the stock check, the transfer if it has none, and the bag that may be present (R166). -/
def enterWaitBag (s : State) : Result :=
  match s.headRun with
  | none => s.done
  | some r =>
    let r := { r with state := .waitBag }
    let present := (s.inputWith .bagPresent).isNone || s.useActive .bagPresent
    let s1 := (putHead s r).setBag { (putHead s r).bag with bagPresent := present }
    if !stockCheck s1 r then holdBag s1 r .short .stock
    else if s1.hasTransfer .bagger then (s1, [.tryBegin])
    else
      match transferRefusal s1 .bagger (bagLegs s1 r) with
      | some .lineStopped => holdBag s1 r .lineStop .none
      | some _ => holdBag s1 r .permit .locked
      | none =>
        let opened := openTransfer s1 .bagger (bagLegs s1 r) []
        (opened.1, opened.2 ++ [.tryBegin])

/-- The bag's dose order (R166). -/
def bagOrder (v : Bin) (r : BagRun) : DoseOrder :=
  binOrder v (.bagger r.number r.begun) r.target r.underTol r.overTol r.bin (some r.reservation) 0 true

/-- A bag in FILLING whose dose is not open presents it (R19, R166). -/
def presentBag (s : State) : Result :=
  match s.headRun with
  | none => s.done
  | some r =>
    match s.bin r.bin with
    | none => s.done
    | some v =>
      if r.state = .filling ∧ (s.chan .bagger).dose = none then (presentDose s .bagger (bagOrder v r)).result else s.done

/-- A bag begins (R166). -/
def beginBag (s : State) (r : BagRun) : Result :=
  let r := { r with
    state := .filling
    onSpout := true
    begun := satAdd max16 r.begun 1
    tailLeft := if r.stopTaken then r.tailLeft - 1 else r.tailLeft }
  let s1 := (putHead s r).ask .baggerClamp true
  presentBag (s1.setBag { s1.bag with bagPresent := false })

/-- A bag begins when one is present, the transfer is FLOWING and the stock check passes (R166). -/
def tryBegin (s : State) : Result :=
  match s.headRun with
  | none => s.done
  | some r =>
    if r.state = .waitBag ∧ s.bag.bagPresent = true ∧ s.flowing .bagger = true then
      if stockCheck s r then beginBag s r else holdBag s r .short .stock
    else s.done

/-- A bag arrives on the spout (R166). -/
def bagArrives (s : State) : Result :=
  match s.headRun with
  | some r =>
    if r.state = .waitBag then tryBegin (s.setBag { s.bag with bagPresent := true }) else s.done
  | none => s.done

/-- The run enters RELEASING (R169). -/
def enterReleasing (s : State) (r : BagRun) : State :=
  (bagTimer (putHead s { r with state := .releasing }) (some (.release s.bag.releaseTime))).ask .baggerClamp false

/-- The run enters CHECKING; a check time of 0 ends at once (R168). -/
def enterChecking (s : State) (r : BagRun) : State :=
  if s.bag.checkTime = 0 then enterReleasing s r
  else bagTimer (putHead s { r with state := .checking }) (some (.check s.bag.checkTime))

/-- The bags a run has still to go (R169). -/
def bagsToGo (r : BagRun) : Nat :=
  if r.stopTaken then min (r.count - r.accepted) r.tailLeft else r.count - r.accepted

/-- The outcome of adjusting a reservation: the run with its reservation, and the refusal of a new one, if any (R169). -/
structure Adjusted where
  result : Result
  run : BagRun
  refusal : Option ReplyCode

/-- The head run's reservation is adjusted to the bags to go (R169). -/
def adjustReservation (s : State) (r : BagRun) : Adjusted :=
  let mass := r.target * bagsToGo r
  match s.claim (.bagRun r.number) r.reservation with
  | some x => if mass < x.wanted then ⟨changeWanted s r.reservation mass, r, none⟩ else ⟨s.done, r, none⟩
  | none =>
    if mass = 0 then ⟨s.done, r, none⟩
    else
      match claimRefusal s [(r.bin, .bagRun r.number, mass)] with
      | some code => ⟨s.done, r, some code⟩
      | none =>
        let one := createOne s r.bin (.bagRun r.number) mass
        let r := { r with reservation := one.2 }
        ⟨(putHead one.1 r).done, r, none⟩

/-- The run enters BURST_WAIT; a COMMAND run takes a set start mark at once (R164, R169). -/
def enterBurstWait (s : State) (r : BagRun) : Result :=
  let ended := endTransfer s .bagger
  if r.start = .command ∧ s.bag.startMark = true then
    let s1 := putHead ended.1 { r with burst := 0, state := .waitBag }
    (s1.setBag { s1.bag with startMark := false }, ended.2 ++ [.enterWaitBag])
  else (putHead ended.1 { r with state := .burstWait }, ended.2)

/-- Whether a run has made its last bag: accepted has reached count, or stop is taken with no tail left (R169). -/
def BagRun.over (r : BagRun) : Bool := decide (r.count ≤ r.accepted ∨ (r.stopTaken = true ∧ r.tailLeft = 0))

/-- Whether a run's burst is complete, so that it waits for its next start (R169). -/
def BagRun.burstFull (r : BagRun) : Bool :=
  match r.arming with
  | .burst k => decide (r.burst = k) && !r.stopTaken
  | .continuous => false

/-- What follows when a bag is gone, by the first case that applies (R169, R172). -/
def afterBag (s : State) (r : BagRun) : Result :=
  if r.over then endBagRun s r (ownEnd r)
  else if 3 ≤ r.consecutive then holdBag s r .rejects .none
  else if r.permitLost then holdBag s r .permit .lost
  else
    let adjusted := adjustReservation s r
    match adjusted.refusal with
    | some _ =>
      let held := holdBag adjusted.result.1 adjusted.run .short .noReservation
      (held.1, adjusted.result.2 ++ held.2)
    | none =>
      if r.burstFull then
        let waited := enterBurstWait adjusted.result.1 adjusted.run
        (waited.1, adjusted.result.2 ++ waited.2)
      else (putHead adjusted.result.1 { adjusted.run with state := .waitBag }, adjusted.result.2 ++ [.enterWaitBag])

/-- The bag is gone from RELEASING (R169). -/
def bagGone (s : State) : Result :=
  match s.headRun with
  | some r =>
    if r.state = .releasing then
      let r := { r with onSpout := false }
      afterBag ((bagTimer (putHead s r) none).ask .baggerReject false) r
    else s.done
  | none => s.done

/-- The check timer expires (R168). -/
def checkExpiry (s : State) : Result :=
  match s.headRun with
  | some r => if r.state = .checking then (enterReleasing s r).done else s.done
  | none => s.done

/-- A bag is recorded as accepted (R168). DESIGN CHOICE: the burst count saturates at 255, the end of its range, and not at the
65,535 that R160 gives for all counters but the lot tally (notes/assumptions/56.md). -/
def recordAccepted (s : State) (r : BagRun) : State :=
  let r := { r with
    accepted := satAdd max16 r.accepted 1
    consecutive := 0
    burst := match r.arming with | .burst _ => satAdd 255 r.burst 1 | .continuous => r.burst }
  (enterChecking s r).raise (.bagAccepted r.number r.accepted)

/-- A bag is recorded as rejected (R168). -/
def recordRejected (s : State) (r : BagRun) (ending : DoseEnding) : State :=
  let r := { r with rejected := satAdd max16 r.rejected 1, consecutive := satAdd max16 r.consecutive 1 }
  ((enterChecking s r).ask .baggerReject true).raise (.bagRejected r.number ending r.consecutive)

/-- An interrupted bag is recorded and the run held (R167, R168). -/
def recordInterrupted (s : State) (r : BagRun) (ending : DoseEnding) (reason : BagReason) (cause : BagCause) : Result :=
  let r := { r with
    rejected := satAdd max16 r.rejected 1
    onSpout := decide (ending ≠ .stopped) }
  holdBag (s.raise (.bagRejected r.number ending r.consecutive)) r reason cause

/-- The bag's dose has ended (R167). -/
def bagDoseEnded (s : State) (rep : DoseReport) (consumed : List (Nat × Nat)) : Result :=
  match s.headRun with
  | none => s.done
  | some r =>
    let r := { r with tally := r.tally.addAll consumed }
    match rep.ending with
    | .accepted => (recordAccepted s r).done
    | .underWeight | .overWeight | .stall => (recordRejected s r rep.ending).done
    | .scale => recordInterrupted s r .scale .scale .none
    | .permit => recordInterrupted s r .permit .permit .lost
    | .stopped => recordInterrupted s r .stopped .lineStop .none

/-! ### Triggers -/

/-- What a start trigger did, for the reply of BAG_RUN_START (R165). -/
inductive StartOutcome where
  | started | marked | already | discarded
  deriving DecidableEq, Repr

/-- The head run enters WAIT_BAG on a start trigger, its burst count cleared (R164). -/
def startRun (s : State) (r : BagRun) : Result := (putHead s { r with burst := 0, state := .waitBag }, [.enterWaitBag])

/-- Whether a run takes a start trigger in its state (R164). -/
def BagRun.startable (r : BagRun) : Bool :=
  match r.state with
  | .armed => true
  | .burstWait => !r.stopTaken
  | _ => false

/-- A BUTTON or SOURCE start of a class reaches the head run (R164). -/
def takeStart (s : State) (cls : StartTrigger) : Result :=
  match s.headRun with
  | some r => if !s.stopped && r.startable && decide (r.start = cls) then startRun s r else s.done
  | none => s.done

/-- A COMMAND start sets the start mark (R164). -/
def markStart (s : State) : Result × StartOutcome :=
  if s.bag.startMark then (s.done, .already)
  else ((s.setBag { s.bag with startMark := true }).done, .marked)

/-- A COMMAND start reaches the bagger (R164, R165). -/
def commandStart (s : State) : Result × StartOutcome :=
  if s.stopped then (s.done, .discarded)
  else
    match s.headRun with
    | none => markStart s
    | some r =>
      if r.state = .armed ∨ r.state = .burstWait then
        if r.start ≠ .command then (s.done, .discarded)
        else if r.startable then (startRun s r, .started)
        else (s.done, .discarded)
      else markStart s

/-- A stop trigger of the run's own class acts on the head run (R170). -/
def stopRun (s : State) (r : BagRun) : Result :=
  let r := { r with stopTaken := true, tailLeft := r.tail }
  let s1 := putHead s r
  match r.state with
  | .armed => endBagRun s1 r (ownEnd r)
  | .filling | .checking | .releasing => s1.done
  | .waitBag => if r.tail = 0 then endBagRun s1 r (ownEnd r) else s1.done
  | .burstWait =>
    if r.tail = 0 then endBagRun s1 r (ownEnd r)
    else (putHead s { r with state := .waitBag }, [.enterWaitBag])
  | .held _ _ _ => if r.tail = 0 ∧ r.onSpout = false then endBagRun s1 r (ownEnd r) else s1.done

/-- A stop trigger of a class reaches the head run (R170). -/
def takeStop (s : State) (cls : StopTrigger) : Result :=
  match s.headRun with
  | some r => if r.stop = cls ∧ r.stopTaken = false then stopRun s r else s.done
  | none => s.done

/-! ### Holds from outside, and the way back -/

/-- The bagger's transfer was aborted on a permissive loss (R172). -/
def bagTransferLost (s : State) : Result :=
  match s.headRun with
  | none => endTransfer s .bagger
  | some r =>
    match r.state with
    | .checking | .releasing => (putHead s { r with permitLost := true }).done
    | .waitBag | .filling => holdBag s r .permit .lost
    | _ => endTransfer s .bagger

/-- The permit time of the bagger's transfer expired (R166). -/
def bagTransferExpired (s : State) : Result :=
  match s.headRun with
  | none => endTransfer s .bagger
  | some r => if r.state = .waitBag then holdBag s r .permit .timeout else endTransfer s .bagger

/-- A run without a bag on its spout returns to its held phase (R172, R173). DESIGN CHOICE: with stop taken, a phase of
BURST_WAIT is WAIT_BAG, since the burst no longer applies (notes/assumptions/16.md). -/
def returnToPhase (s : State) (r : BagRun) : Result :=
  match heldPhase r.state with
  | .burstWait =>
    if r.stopTaken then (putHead s { r with state := .waitBag }, [.enterWaitBag]) else enterBurstWait s r
  | .waitBag => (putHead s { r with state := .waitBag }, [.enterWaitBag])

/-- A run without a bag on its spout continues after a hold: its reservation is adjusted, and it returns to its held phase;
a refused new reservation holds it again (R169, R172, R173). A run whose stop was taken with no tail while a bag was on the
spout, and whose bag a Line Stop took, ends here by the first case of R169 (R170, notes/assumptions/54.md). -/
def continueRun (s : State) (r : BagRun) : Result :=
  if r.over then endBagRun s r (ownEnd r)
  else
    let adjusted := adjustReservation (putHead s r) r
    let next := match adjusted.refusal with
      | some _ => holdBag adjusted.result.1 adjusted.run .short .noReservation
      | none => returnToPhase adjusted.result.1 adjusted.run
    (next.1, adjusted.result.2 ++ next.2)

/-- A run held SHORT for stock makes its stock check when its reservation `id` is given mass (R172). -/
def shortResume (s : State) (id : Nat) : Result :=
  match s.headRun with
  | none => s.done
  | some r =>
    match r.state with
    | .held .short .stock _ =>
      if r.reservation = id ∧ stockCheck s r = true ∧ s.stopped = false then continueRun s r else s.done
    | _ => s.done

/-- A run whose bag a Line Stop counts as gone goes on as R169 decides and is then held (R169, R172): its reservation is adjusted
but after a third reject or a lost permissive, and it is held from BURST_WAIT where that bag has filled its burst
(notes/assumptions/29.md). -/
def stopGone (s : State) (r : BagRun) : Result :=
  if r.over then endBagRun s r (ownEnd r)
  else if 3 ≤ r.consecutive ∨ r.permitLost = true then holdBag s r .lineStop .none
  else
    let adjusted := adjustReservation s r
    let next := if adjusted.refusal.isNone && r.burstFull then { adjusted.run with state := .burstWait } else adjusted.run
    let held := holdBag adjusted.result.1 next .lineStop .none
    (held.1, adjusted.result.2 ++ held.2)

/-- A Line Stop reaches the bagger (R172): it clears the start mark and drops the clamp, and a bag in check or release counts
as gone. -/
def stopBagger (s : State) : Result :=
  let s1 := s.setBag { s.bag with startMark := false }
  match s1.headRun with
  | none => s1.done
  | some r =>
    let gone := { r with onSpout := false }
    match r.state with
    | .armed => s1.done
    | .checking | .releasing => stopGone (bagTimer (putHead s1 gone) none) gone
    | _ => holdBag s1 gone .lineStop .none

end Sys2Proof.Machine
end

