-- ==== Sys2Proof/Machine/BatchLine.lean ====
section
/-! DEFINITION. The Batch Line: start selection (R97), dosing (R99 to R103), discharge, mixing and release (R105 to R109)
and what a Line Stop does to batches (R110). -/

namespace Sys2Proof.Machine

/-! ### Batches by number -/

/-- A live batch (R93). -/
def State.batch (s : State) (n : Nat) : Option Batch := s.line.batches.find? (fun b => decide (b.number = n))

/-- The live batches change one by one. -/
def State.mapBatches (s : State) (f : Batch → Batch) : State :=
  s.setLine { s.line with batches := s.line.batches.map f }

/-- A live batch takes a new form. -/
def State.putBatch (s : State) (b : Batch) : State := s.mapBatches (fun x => if x.number = b.number then b else x)

/-- A batch is removed (R93). -/
def State.dropBatch (s : State) (n : Nat) : State :=
  s.setLine { s.line with batches := s.line.batches.filter (fun b => decide (b.number ≠ n)) }

/-- A batch with step `i` in a new form. -/
def Batch.putStep (b : Batch) (i : Nat) (e : StepEntry) : Batch := { b with steps := b.steps.set (i - 1) e }

/-- Whether a batch has steps on a channel (R99). -/
def Batch.uses (b : Batch) (sc : Scale) : Bool := b.steps.any (fun e => decide (e.source.scale = sc))

/-- The transfer owner of a channel's steps (R100). -/
def stepOwner : Scale → Owner
  | .micro => .batchMicro
  | _ => .batchMain

/-- The requester of a channel's steps (R100). -/
def stepRequester (sc : Scale) (n i : Nat) : Requester :=
  match sc with
  | .micro => .batchMicro n i
  | _ => .batchMain n i

/-- The discharge gate of a channel (R105). -/
def dischargeGate : Scale → Role
  | .micro => .microDischargeGate
  | _ => .mainDischargeGate

/-- The roles of a step's gate pattern (R87). -/
def stepGates (e : FormulaStep) : List Role :=
  match e.scale with
  | .micro => e.aux.map (fun k => match k with | 1 => .microAux1 | 2 => .microAux2 | 3 => .microAux3 | _ => .microAux4)
  | _ => e.aux.map (fun k => match k with | 1 => .mainAux1 | 2 => .mainAux2 | 3 => .mainAux3 | _ => .mainAux4)

/-- Whether every step of a batch is DONE or SKIPPED (R99). -/
def Batch.stepsOver (b : Batch) : Bool := b.steps.all (fun e => e.status = .done || e.status = .skipped)

/-- Whether a step is HELD. -/
def StepEntry.isHeld (e : StepEntry) : Bool :=
  match e.status with
  | .held _ => true
  | _ => false

/-- The DOSING step of a channel with its index (R93). -/
def Batch.dosingStep (b : Batch) (sc : Scale) : Option (Nat × StepEntry) :=
  b.indexed.find? (fun e => decide (e.2.source.scale = sc ∧ e.2.status = .dosing))

/-- The index of a channel's last step; 0 when it has none (R99). -/
def Batch.lastStep (b : Batch) (sc : Scale) : Nat :=
  ((b.indexed.filter (fun e => decide (e.2.source.scale = sc))).map (·.1)).foldl max 0

/-! ### Start selection -/

/-- A batch enters DOSING: auto-zero on each channel with steps, MAIN before MICRO, and each such channel takes its first
step (R99). DESIGN CHOICE: MAIN takes its step before MICRO, an order that R99 gives for the auto-zero only
(notes/assumptions/72.md). -/
def enterDosing (s : State) (b : Batch) : Result :=
  let s1 := s.putBatch { b with state := .dosing }
  let s2 := if b.uses .main then autoZero s1 .main else s1
  let s3 := if b.uses .micro then autoZero s2 .micro else s2
  (s3, (if b.uses .main then [.takeStep b.number .main] else []) ++
    (if b.uses .micro then [.takeStep b.number .micro] else []))

/-- The start selection over batches in batch order (R97). -/
def selectOver : List Batch → State → Result
  | [], s => s.done
  | b :: rest, s =>
    if b.releaseWait = false ∧ (b.state = .queued ∨ b.state = .waitStock) then
      if s.shortCount b = 0 then enterDosing s b
      else if b.state = .queued then
        selectOver rest ((s.putBatch { b with state := .waitStock }).raise (.batchWaitStock b.number (s.shortCount b)))
      else selectOver rest s
    else selectOver rest s

/-- The start selection (R97). -/
def startSelection (s : State) : Result :=
  if s.scaleBatch.isSome || s.stopped then s.done else selectOver s.line.batches s

/-! ### Discharge, mixing, release -/

/-- The room check's first failing condition (R107). -/
def roomCause (s : State) (b : Batch) : Option WaitCause :=
  if s.stopped then some .lineStop
  else
    match s.bin b.destination with
    | none => some .noDestination
    | some v =>
      if v.locked then some .locked
      else if v.cfg.kind ≠ .surge ∧ v.cfg.kind ≠ .rework ∧ v.cfg.kind ≠ .finished then some .mismatch
      else if v.cfg.kind = .finished ∧ v.cfg.code ≠ b.product then some .mismatch
      else if v.cfg.capacity - v.onHand < b.total then some .room
      else none

/-- The room check of a batch, and the release transfer when it passes (R107). -/
def roomCheckOf (s : State) (b : Batch) : Result :=
  if b.state = .mixed ∧ b.waitCause ≠ some .transfer then
    match roomCause s b with
    | some cause => (s.putBatch { b with waitCause := some cause }).done
    | none =>
      let route := ((s.bin b.destination).map (·.cfg.inletRoute)).getD 0
      let legs : List Leg := [⟨b.destination, true, route⟩]
      match transferRefusal s .batchRelease legs with
      | some .lineStopped => (s.putBatch { b with waitCause := some .lineStop }).done
      | some .wrongState => (s.putBatch { b with waitCause := some .locked }).done
      | some _ => s.done
      | none =>
        openTransfer (s.putBatch { b with waitCause := some .transfer }) .batchRelease legs [.mixerGate]
  else s.done

/-- The room check of the batch in the mixer (R107). -/
def roomCheck (s : State) : Result :=
  match s.mixerBatch with
  | some b => roomCheckOf s b
  | none => s.done

/-- The room check when a bin is the batch's destination (R107). -/
def roomCheckAt (s : State) (bin : Nat) : Result :=
  match s.mixerBatch with
  | some b => if b.destination = bin then roomCheckOf s b else s.done
  | none => s.done

/-- A batch enters MIXED, and the room check runs (R106, R107). -/
def enterMixed (s : State) (b : Batch) : Result :=
  (s.putBatch { b with state := .mixed, timer := none, waitCause := none }, [.roomCheck])

/-- A batch enters MIXING with `left` tenths of mix time; none left passes straight to MIXED (R106). -/
def enterMixing (s : State) (b : Batch) (left : Tenths) : Result :=
  if left = 0 then enterMixed s { b with mixLeft := 0 }
  else (s.putBatch { b with state := .mixing, timer := some (.mix left), mixLeft := left }).done

/-- The gates of the channels not yet marked discharged are asked on or off (R105). -/
def askGates (s : State) (b : Batch) (on : Bool) : State :=
  let s1 := if b.mainDischarged then s else s.ask .mainDischargeGate on
  if b.microDischarged then s1 else s1.ask .microDischargeGate on

/-- A batch enters DISCHARGING (R105). -/
def enterDischarging (s : State) (b : Batch) : Result :=
  let b := { b with
    state := .discharging
    timer := some (.discharge s.line.times.discharge)
    mainDischarged := !b.uses .main
    microDischarged := !b.uses .micro }
  (askGates ((s.putBatch b).ask .mixerMotor true) b true).done

/-- A WEIGHED batch enters DISCHARGING when the mixer is EMPTY and no Line Stop is in force (R96, R110). -/
def tryDischarge (s : State) : Result :=
  if s.mixerBatch.isSome || s.stopped then s.done
  else
    match s.line.batches.find? (fun b => decide (b.state = .weighed)) with
    | some b => enterDischarging s b
    | none => s.done

/-- A sample of MAIN or MICRO judges the discharge of its channel (R105). -/
def judgeDischarge (s : State) (sc : Scale) : Result :=
  match s.line.batches.find? (fun b => decide (b.state = .discharging)) with
  | none => s.done
  | some b =>
    let c := s.chan sc
    let marked := match sc with
      | .main => b.mainDischarged
      | .micro => b.microDischarged
      | _ => true
    if marked = false ∧ c.status = .ok ∧ c.stable = true ∧ c.gross ≤ c.cfg.emptyBand then
      let s1 := s.ask (dischargeGate sc) false
      let b := if sc = .main then { b with mainDischarged := true } else { b with microDischarged := true }
      if b.mainDischarged && b.microDischarged then
        let r := enterMixing s1 b b.mixTime
        (r.1, r.2 ++ [.startSelection])
      else (s1.putBatch b).done
    else s.done

/-- The release transfer is FLOWING: the mixer gate is asked on and the release timer starts (R107, R108). DEDUCED: which of the two
release times it is, is fixed here, whatever INPUT_DEFINE does to the use MIXER_EMPTY later (notes/assumptions/62.md). -/
def releaseFlowing (s : State) : Result :=
  match s.mixerBatch with
  | none => s.done
  | some b =>
    if b.state = .mixed then
      let timer : BatchTimer :=
        if (s.inputWith .mixerEmpty).isSome then .release s.line.times.releaseTimeout false
        else .release s.line.times.release true
      ((s.putBatch { b with state := .releasing, timer := some timer, waitCause := none }).ask .mixerGate true).done
    else s.done

/-- A release completes: its transfer is ended, which offers the released resources to the waiting list, and then the other
steps of R108 follow. -/
def completeRelease (s : State) (b : Batch) : Result :=
  let ended := endTransfer s .batchRelease
  (ended.1, ended.2 ++ [.finishRelease b.number])

/-- Steps 2 to 6 of the completion of a release, in the order of R108: the fill, the completion record, BATCH_DONE, the end of
the batch, and the discharge of a WEIGHED one. -/
def finishRelease (s : State) (n : Nat) : Result :=
  match s.batch n with
  | none => s.done
  | some b =>
    let filled := fill s b.destination b.total [⟨b.lotTag, b.product, b.total⟩]
    let rec1 : Completion :=
      { number := b.number, formula := b.formula, lotTag := b.lotTag, destination := b.destination, total := b.total,
        accepted := filled.accepted, clamped := filled.clamped, abandoned := b.abandoned,
        steps := b.steps.map (fun e => (e.status, e.actual)) }
    let s1 := filled.result.1.setLine { filled.result.1.line with completion := some rec1 }
    let s2 := (s1.raise (.batchDone b.number b.lotTag)).dropBatch b.number
    (s2.ask .mixerMotor false, filled.result.2 ++ [.tryDischarge])

/-- A batch in the mixer is held (R109). -/
def holdMixer (s : State) (b : Batch) (phase : BatchPhase) (reason : BatchReason) : Result :=
  let ended := endTransfer s .batchRelease
  let s1 := ended.1.putBatch { b with state := .held phase reason, timer := none, waitCause := none }
  (s1.raise (.batchHeld b.number reason phase), ended.2)

/-! ### Dosing -/

/-- BATCH_CALL, once, when both channels have begun their final step; a channel with no steps has (R99). -/
def callBatch (s : State) (b : Batch) : State :=
  let both := (b.mainBegun || !b.uses .main) && (b.microBegun || !b.uses .micro)
  if both && !b.called then (s.putBatch { b with called := true }).raise (.batchCall b.number) else s.putBatch b

/-- A batch whose steps are all DONE or SKIPPED, with no dose open, enters WEIGHED (R99). -/
def judgeWeighed (s : State) (n : Nat) : Result :=
  match s.batch n with
  | none => s.done
  | some b =>
    if b.state = .dosing ∧ b.stepsOver = true ∧ s.batchDoseOpen n = false then
      (s.putBatch { b with state := .weighed }, [.tryDischarge])
    else s.done

/-- A DOSING step of the other channel whose dose has not been presented loses its transfer and returns to PENDING
(R103). -/
def returnStep (s : State) (n : Nat) (sc : Scale) : Result :=
  match s.batch n with
  | none => s.done
  | some b =>
    match b.dosingStep sc with
    | none => s.done
    | some (i, e) =>
      if s.batchDoseOn n sc then s.done
      else
        let ended := endTransfer s (stepOwner sc)
        ((ended.1.askAll (stepGates e.source) false).putBatch (b.putStep i { e with status := .pending }), ended.2)

/-- The other of the two batch channels. -/
def otherScale : Scale → Scale
  | .main => .micro
  | _ => .main

/-- A step is held (R101), and the first hold holds the batch (R103). In a Line Stop the other channel's waiting step is
held by R110 instead of returning to PENDING. -/
def holdStep (s : State) (n i : Nat) (reason : StepReason) : Result :=
  match s.batch n with
  | none => s.done
  | some b =>
    match b.steps[i - 1]? with
    | none => s.done
    | some e =>
      let b1 := b.putStep i { e with status := .held reason }
      let first := decide (b.state = .dosing)
      let b2 := if first then { b1 with state := .held .dosing (batchReasonOf reason) } else b1
      let s1 := (s.putBatch b2).raise (.stepHeld n i reason)
      if first && !s.stopped then returnStep s1 n (otherScale e.source.scale) else s1.done

/-- The dose order of a bin step (R100). A step that a RETRY has set going again is dosed with no adaptation, whatever it has
so far (R104, notes/assumptions/53.md). -/
def stepOrder (v : Bin) (n i : Nat) (e : StepEntry) : DoseOrder :=
  binOrder v (stepRequester e.source.scale n i) (e.target - e.actual) e.tolerance e.tolerance e.source.bin e.reservation
    v.cfg.jogLimit (decide (e.actual = 0) && !e.retried)

/-- The channel's DOSING step presents its dose order: a bin step whose transfer is FLOWING, or a hand-add (R100, R102). -/
def presentStep (s : State) (sc : Scale) : Result :=
  match s.line.batches.find? (fun b => (b.dosingStep sc).isSome) with
  | none => s.done
  | some b =>
    match b.dosingStep sc with
    | none => s.done
    | some (i, e) =>
      if (s.chan sc).dose.isSome then s.done
      else if e.source.hand then
        (presentDose (s.askAll (stepGates e.source) true) sc
          (handOrder (stepRequester sc b.number i) (e.target - e.actual) e.tolerance)).result
      else if s.flowing (stepOwner sc) then
        match s.bin e.source.bin with
        | some v => (presentDose (s.askAll (stepGates e.source) true) sc (stepOrder v b.number i e)).result
        | none => s.done
      else s.done

/-- The hold reason of a refused transfer (R100). -/
def refusedReason : ReplyCode → StepReason
  | .lineStopped => .lineStop
  | _ => .noPermit

/-- A channel takes its next PENDING step in list order, while the batch is in DOSING (R99, R100, R102). DESIGN CHOICE: BATCH_CALL is
raised before the STEP_HELD of a refused transfer request (notes/assumptions/84.md). -/
def takeStep (s : State) (n : Nat) (sc : Scale) : Result :=
  match s.batch n with
  | none => s.done
  | some b =>
    if b.state = .dosing ∧ b.dosingStep sc = none then
      match b.indexed.find? (fun e => decide (e.2.source.scale = sc ∧ e.2.status = .pending)) with
      | none => judgeWeighed s n
      | some (i, e) =>
        let b1 := b.putStep i { e with status := .dosing }
        let last := decide (i = b.lastStep sc)
        let b2 := { b1 with
          mainBegun := b1.mainBegun || (last && decide (sc = .main))
          microBegun := b1.microBegun || (last && decide (sc = .micro)) }
        let s1 := callBatch s b2
        if e.source.hand then presentStep s1 sc
        else
          let route := ((s1.bin e.source.bin).map (·.cfg.outletRoute)).getD 0
          let legs : List Leg := [⟨e.source.bin, false, route⟩]
          match transferRefusal s1 (stepOwner sc) legs with
          | some code => holdStep s1 n i (refusedReason code)
          | none => openTransfer s1 (stepOwner sc) legs (stepGates e.source)
    else s.done

/-- The step hold reason of a dose ending (R101). -/
def endingReason : DoseEnding → StepReason
  | .overWeight => .overWeight
  | .stall => .stall
  | .scale => .scale
  | .permit => .permit
  | .stopped => .lineStop
  | _ => .underWeight

/-- The dose of a step has ended: its actual and jogs are added and the transfer of a bin step is ended, which offers the released
resources, and then the step goes on (R101, R102). -/
def stepDoseEnded (s : State) (n i : Nat) (rep : DoseReport) : Result :=
  match s.batch n with
  | none => s.done
  | some b =>
    match b.steps[i - 1]? with
    | none => s.done
    | some e =>
      let sc := e.source.scale
      let e1 := { e with actual := e.actual + rep.actual.toNat, jogs := e.jogs + rep.jogs }
      let s1 := s.putBatch (b.putStep i e1)
      let ended : Result := if e.source.hand then s1.done else endTransfer s1 (stepOwner sc)
      (ended.1.askAll (stepGates e.source) false, ended.2 ++ [.finishStep n i rep.ending])

/-- A step goes on by the ending of its dose (R101, R102). -/
def finishStep (s : State) (n i : Nat) (ending : DoseEnding) : Result :=
  match s.batch n with
  | none => s.done
  | some b =>
    match b.steps[i - 1]? with
    | none => s.done
    | some e =>
      if ending = .accepted then
        let b1 := { (b.putStep i { e with status := .done }) with total := b.total + e.actual }
        let closed := closeHeld (s.putBatch b1) (.batchStep n i) e.reservation
        (closed.1, closed.2 ++ [.takeStep n e.source.scale])
      else holdStep s n i (endingReason ending)

/-- A channel's transfer failed before its dose was presented (R100, R101). -/
def stepTransferFailed (s : State) (sc : Scale) (reason : StepReason) : Result :=
  match s.line.batches.find? (fun b => (b.dosingStep sc).isSome) with
  | none => s.done
  | some b =>
    match b.dosingStep sc with
    | none => s.done
    | some (i, e) =>
      let ended := endTransfer s (stepOwner sc)
      let held := holdStep (ended.1.askAll (stepGates e.source) false) b.number i reason
      (held.1, ended.2 ++ held.2)

/-- A batch leaves HELD in its dosing phase when its last held step is resolved (R103). DESIGN CHOICE: MAIN takes up its work before
MICRO (notes/assumptions/72.md). -/
def leaveStepHold (s : State) (n : Nat) : Result :=
  match s.batch n with
  | none => s.done
  | some b =>
    if b.steps.any StepEntry.isHeld then s.done
    else (s.putBatch { b with state := .dosing }, [.takeStep n .main, .takeStep n .micro])

/-- A RELEASE_BATCH action: the oldest live batch with the flag set is released (R95, R203). -/
def releaseOldest (s : State) : Result :=
  match s.line.batches.find? (·.releaseWait) with
  | some b => (s.putBatch { b with releaseWait := false }, [.startSelection])
  | none => s.done

/-! ### Line Stop -/

/-- The waiting DOSING step of a channel is held LINE_STOP, its transfer ended (R110). -/
def stopStep (s : State) (n : Nat) (sc : Scale) : Result :=
  match s.batch n with
  | none => s.done
  | some b =>
    match b.dosingStep sc with
    | none => s.done
    | some (i, e) =>
      let ended := endTransfer s (stepOwner sc)
      let held := holdStep (ended.1.askAll (stepGates e.source) false) n i .lineStop
      (held.1, ended.2 ++ held.2)

/-- The mix time a batch has left (R110). -/
def Batch.mixRemaining (b : Batch) : Tenths :=
  match b.timer with
  | some (.mix left) => left
  | _ => b.mixLeft

/-- A Line Stop reaches a batch in the mixer, which withdraws its output requests (R110). -/
def stopInMixer (s : State) (b : Batch) (phase : BatchPhase) : Result :=
  let ended := endTransfer s .batchRelease
  let s1 := ended.1.askAll [.mainDischargeGate, .microDischargeGate, .mixerGate, .mixerMotor] false
  let s2 := s1.putBatch { b with
    state := .held phase .lineStop
    timer := none
    mixLeft := b.mixRemaining
    waitCause := none }
  (s2.raise (.batchHeld b.number .lineStop phase), ended.2)

/-- A Line Stop reaches one batch (R110). DEDUCED: a MIXED batch without a transfer keeps the wait cause of its last room check,
since the onset of a Line Stop is none of the triggers of R107 (notes/assumptions/61.md). DESIGN CHOICE: the waiting step of MAIN is
held before that of MICRO (notes/assumptions/60.md). -/
def stopBatch (s : State) (b : Batch) : Result :=
  match b.state with
  | .dosing | .held .dosing _ => (stopStep s b.number .main).andThen (fun t => stopStep t b.number .micro)
  | .discharging => stopInMixer s b .discharging
  | .mixing => stopInMixer s b .mixing
  | .mixed => if b.waitCause = some .transfer then stopInMixer s b .mixed else s.done
  | .releasing => stopInMixer s b .releasing
  | _ => s.done

/-- A Line Stop reaches the Batch Line. DESIGN CHOICE: the oldest batch first (R110, notes/assumptions/60.md). -/
def stopBatches (s : State) : Result :=
  s.line.batches.foldl (fun r b => r.andThen (fun t =>
    match t.batch b.number with
    | some x => stopBatch t x
    | none => t.done)) s.done

end Sys2Proof.Machine
end

