-- ==== Sys2Proof/Machine/Loading.lean ====
section
/-! DEFINITION. The Order Book and the Loadout: posted bags (R180), the choice of the next line (R185), loading (R186,
R187) and holds (R188). -/

namespace Sys2Proof.Machine

/-! ### Orders by number -/

/-- An order in the book (R176). -/
def State.order (s : State) (n : Nat) : Option Order := s.book.orders.find? (fun o => decide (o.number = n))

/-- An order takes a new form at its place in the book. -/
def State.putOrder (s : State) (o : Order) : State :=
  s.setBook { s.book with orders := s.book.orders.map (fun x => if x.number = o.number then o else x) }

/-- An order leaves the book. -/
def State.dropOrder (s : State) (n : Nat) : State :=
  s.setBook { s.book with orders := s.book.orders.filter (fun o => decide (o.number ≠ n)) }

/-- Line `i` of an order, from 1 (R176). -/
def Order.line (o : Order) (i : Nat) : Option OrderLine := if i = 0 then none else o.lines[i - 1]?

/-- An order with line `i` in a new form. -/
def Order.putLine (o : Order) (i : Nat) (l : OrderLine) : Order := { o with lines := o.lines.set (i - 1) l }

/-- The lines of an order with their numbers. -/
def Order.indexed (o : Order) : List (Nat × OrderLine) := ((List.range o.lines.length).map (· + 1)).zip o.lines

/-- Whether a line has a final status (R177). -/
def OrderLine.final (l : OrderLine) : Bool :=
  match l.status with
  | .done | .overWeight | .closedShort => true
  | _ => false

/-- A BULK line's remaining mass (R177). -/
def OrderLine.remaining (l : OrderLine) : Nat := l.quantity - l.delivered

/-- A compartment's room (R183). -/
def Compartment.room (c : Compartment) : Nat := c.capacity - c.loaded

/-- The Loadout takes a new form. -/
def State.setLoadout (s : State) (v : Loadout) : State := s.setBook { s.book with loadout := v }

/-- The order of the truck at the spout (R183). -/
def State.truckOrder (s : State) : Option Order := s.book.loadout.truck.bind (fun t => s.order t.order)

/-- The current line of the loadout with its order and number (R183). -/
def State.currentLine (s : State) : Option (Order × Nat × OrderLine) :=
  match s.book.loadout.truck with
  | some t =>
    match s.order t.order, t.current with
    | some o, some i =>
      match o.line i with
      | some l => some (o, i, l)
      | none => none
    | _, _ => none
  | none => none

/-- Compartment `k` of the truck, from 1. -/
def State.compartment (s : State) (k : Nat) : Option Compartment :=
  match s.book.loadout.truck with
  | some t => if k = 0 then none else t.compartments[k - 1]?
  | none => none

/-- Compartment `k` of the truck takes a new form. -/
def State.putCompartment (s : State) (k : Nat) (c : Compartment) : State :=
  match s.book.loadout.truck with
  | some t =>
    s.setLoadout { s.book.loadout with truck := some { t with compartments := t.compartments.set (k - 1) c } }
  | none => s

/-- The truck's current line is set. -/
def State.setCurrent (s : State) (i : Option Nat) : State :=
  match s.book.loadout.truck with
  | some t => s.setLoadout { s.book.loadout with truck := some { t with current := i } }
  | none => s

/-- The loadout's state is set. -/
def State.setLoadState (s : State) (v : LoadState) : State := s.setLoadout { s.book.loadout with state := v }

/-! ### Choice of the next line, and the judgement of the order -/

/-- The truck's order is judged for LOADED while the loadout is FINISHED (R185). -/
def judgeLoaded (s : State) : Result :=
  match s.truckOrder with
  | none => s.done
  | some o =>
    if s.book.loadout.state = .finished ∧ o.state = .loading ∧ o.lines.all OrderLine.final = true then
      ((s.putOrder { o with state := .loaded }).raise (.orderLoaded o.number)).done
    else s.done

/-- The first BULK line of an order without a final status (R185). -/
def Order.nextBulk (o : Order) : Option (Nat × OrderLine) := o.indexed.find? (fun e => e.2.bulk && !e.2.final)

/-- The loadout chooses its next line (R185). DESIGN CHOICE: in READY and in FINISHED no line is current
(notes/assumptions/74.md). -/
def chooseLine (s : State) : Result :=
  match s.truckOrder with
  | none => s.done
  | some o =>
    match o.nextBulk with
    | none => judgeLoaded ((s.setCurrent none).setLoadState .finished)
    | some (i, l) =>
      if l.status = .assigned then
        (((s.setCurrent (some i)).setLoadState .spoutWait).raise
          (.spoutWait i l.compartment (coarse 1000 max16 l.remaining))).done
      else ((s.setCurrent none).setLoadState .ready).done

/-- COMPARTMENT_DONE when the line that has just reached a final status was the last BULK line without one in its
compartment (R187). -/
def judgeCompartment (s : State) (o : Order) (k : Nat) : State :=
  if o.lines.any (fun l => l.bulk && !l.final && decide (l.compartment = k)) then s
  else
    match s.compartment k with
    | some c => s.raise (.compartmentDone k (coarse 1000 max16 c.loaded))
    | none => s

/-! ### Posted bags -/

/-- The status of a BAGGED line after a count: DONE at its quantity less its under allowance (R180). -/
def baggedStatus (l : OrderLine) : LineStatus :=
  if l.status = .opened ∧ l.quantity - l.underTol ≤ l.delivered then .done else l.status

/-- One posted bag for a line of an order (R180). -/
def postBag (s : State) (order line : Nat) : Result :=
  match s.order order with
  | none => s.done
  | some o =>
    match o.line line with
    | none => s.done
    | some l =>
      if l.bulk = true ∨ l.status = .closedShort then s.done
      else if l.quantity + l.overTol < l.delivered + 1 then (s.raise (.lineOver order)).done
      else
        let l1 := { l with delivered := l.delivered + 1 }
        (s.putOrder (o.putLine line { l1 with status := baggedStatus l1 }), [.judgeLoaded])

/-! ### Loading -/

/-- The loadout is held on its current line, its transfer ended (R188). DEDUCED: an ABORTED transfer's record goes with it, as at
the other jobs' holds, although the worked sequence 3.8 shows it until LOADOUT_RESUME (notes/assumptions/58.md). -/
def holdLoadout (s : State) (reason : LoadReason) (cause : LoadCause) : Result :=
  let ended := endTransfer s .loadout
  let line := (ended.1.book.loadout.truck.bind (·.current)).getD 0
  ((ended.1.setLoadState (.held reason cause)).raise (.loadoutHeld line reason cause), ended.2)

/-- The legs of the loadout's transfer (R186). -/
def loadLegs (s : State) (l : OrderLine) : List Leg :=
  let b := l.bin.getD 0
  [⟨b, false, ((s.bin b).map (·.cfg.outletRoute)).getD 0⟩]

/-- The target of the current line's dose: the smaller of its remaining mass and its compartment's room (R186). -/
def loadTarget (s : State) (l : OrderLine) : Nat :=
  min l.remaining (((s.compartment l.compartment).map Compartment.room).getD 0)

/-- The loadout enters LOADING on its current line: held for a full compartment, or its transfer requested (R186, R189).
`retrying` forbids the adaptation of the dose (R189). -/
def startLoading (s : State) (retrying : Bool) : Result :=
  match s.currentLine with
  | none => s.done
  | some (o, i, l) =>
    let s1 := s.putOrder (o.putLine i { l with status := .loading })
    let s2 := s1.setLoadout { s1.book.loadout with
      state := .loading, retrying := retrying, clipped := decide (loadTarget s l < l.remaining) }
    if loadTarget s l = 0 then holdLoadout s2 .compartmentFull .none
    else
      match transferRefusal s2 .loadout (loadLegs s2 l) with
      | some .lineStopped => holdLoadout s2 .lineStop .none
      | some _ => holdLoadout s2 .permit .locked
      | none => openTransfer s2 .loadout (loadLegs s2 l) []

/-- The refusal of SPOUT_READY, if it is refused (R186). -/
def spoutRefusal (s : State) : Option ReplyCode :=
  if s.stopped then some .lineStopped
  else if s.book.loadout.state ≠ .spoutWait then some .wrongState
  else
    match s.currentLine with
    | some (o, i, l) => if s.heldBy (.orderLine o.number i) l.reservation < l.remaining then some .short else none
    | none => some .wrongState

/-- The compartment dose is presented while the loadout is LOADING with its transfer FLOWING (R186). -/
def presentLoad (s : State) : Result :=
  match s.currentLine with
  | none => s.done
  | some (o, i, l) =>
    match s.bin (l.bin.getD 0) with
    | none => s.done
    | some v =>
      if s.book.loadout.state = .loading ∧ s.flowing .loadout = true ∧ (s.chan .truck).dose = none then
        let target := loadTarget s l
        let adapt := !s.book.loadout.retrying && decide (l.delivered = 0 ∧ target = l.remaining)
        (presentDose
          (s.setLoadout { s.book.loadout with clipped := decide (target < l.remaining) }) .truck
          (binOrder v (.loadout o.number i) target l.underTol l.overTol (l.bin.getD 0) l.reservation v.cfg.jogLimit
            adapt)).result
      else s.done

/-- The current line reaches a final status: its reservation is closed, and its compartment is judged (R187). DESIGN CHOICE: in this
order, so that what the closing's top-up raises comes before COMPARTMENT_DONE (notes/assumptions/84.md). -/
def finishLine (s : State) (o : Order) (i : Nat) (l : OrderLine) (status : LineStatus) : Result :=
  let o1 := o.putLine i { l with status := status }
  let closed := closeHeld (s.putOrder o1) (.orderLine o.number i) l.reservation
  (judgeCompartment closed.1 o1 l.compartment, closed.2)

/-- A compartment dose has ended: the transfer is ended first, which offers the released resources to the waiting list, and then the
line goes on (R187). -/
def loadDoseEnded (s : State) (rep : DoseReport) (consumed : List (Nat × Nat)) : Result :=
  let ended := endTransfer s .loadout
  (ended.1, ended.2 ++ [.finishLoad rep consumed])

/-- The current line goes on by the ending of its compartment dose (R187). DESIGN CHOICE: at an OVER ending that finishes its
compartment, COMPARTMENT_DONE is raised before LOADOUT_HELD (notes/assumptions/84.md). -/
def finishLoad (s : State) (rep : DoseReport) (consumed : List (Nat × Nat)) : Result :=
  match s.currentLine with
  | none => s.done
  | some (o, i, l) =>
    let l1 := { l with delivered := l.delivered + rep.actual.toNat, tally := l.tally.addAll consumed }
    let s1 := s.putOrder (o.putLine i l1)
    let s2 := match s1.compartment l.compartment with
      | some c => s1.putCompartment l.compartment { c with loaded := c.loaded + rep.actual.toNat }
      | none => s1
    match rep.ending with
    | .accepted =>
      if s.book.loadout.clipped = false ∨ l.quantity - l.underTol ≤ l1.delivered then
        let finished := finishLine s2 o i l1 .done
        (finished.1, finished.2 ++ [.chooseLine])
      else holdLoadout s2 .compartmentFull .none
    | .underWeight => holdLoadout s2 .underWeight .weight
    | .stall => holdLoadout s2 .underWeight .stall
    | .overWeight =>
      let finished := finishLine s2 o i l1 .overWeight
      let held := holdLoadout finished.1 .overWeight .none
      (held.1, finished.2 ++ held.2)
    | .scale => holdLoadout s2 .scale .none
    | .permit => holdLoadout s2 .permit .lost
    | .stopped => holdLoadout s2 .lineStop .none

/-- The status a held BULK line takes at ACCEPT (R189). -/
def acceptedStatus (l : OrderLine) : LineStatus :=
  if l.status = .overWeight then .overWeight
  else if l.quantity - l.underTol ≤ l.delivered then .done
  else .closedShort

/-- A sample of TRUCK takes the tare in TARING (R185). -/
def truckTare (s : State) : Result :=
  let c := s.chan .truck
  match s.book.loadout.truck with
  | some t =>
    if s.book.loadout.state = .taring ∧ c.status = .ok ∧ c.stable = true then
      let s1 := s.setLoadout { s.book.loadout with truck := some { t with tare := some c.gross }, state := .ready }
      (s1.raise (.truckReady t.order), [.chooseLine])
    else s.done
  | none => s.done

/-- The loadout's transfer failed with no dose open (R188). -/
def loadTransferFailed (s : State) (cause : LoadCause) : Result :=
  if s.book.loadout.state = .loading then holdLoadout s .permit cause else endTransfer s .loadout

/-- A Line Stop reaches the loadout (R188). -/
def stopLoadout (s : State) : Result :=
  match s.book.loadout.state with
  | .loading => holdLoadout s .lineStop .none
  | .held reason _ => if reason = .lineStop then endTransfer s .loadout else holdLoadout s .lineStop .none
  | _ => s.done

end Sys2Proof.Machine
end

