-- ==== Sys2Proof/Machine/Mill.lean ====
section
/-! DEFINITION. The Mill Controller: serving selection (R119), states and holds (R122, R123, R128, R129), the loop interval
(R124 to R127) and auto-grind (R117). -/

namespace Sys2Proof.Machine

/-! ### Requests by number -/

/-- A live grind request (R115). -/
def State.grind (s : State) (n : Nat) : Option GrindRequest := s.mill.queue.find? (fun r => decide (r.number = n))

/-- A live grind request takes a new form at its place in the queue. -/
def State.putGrind (s : State) (r : GrindRequest) : State :=
  s.setMill { s.mill with queue := s.mill.queue.map (fun x => if x.number = r.number then r else x) }

/-- A grind request leaves the queue. -/
def State.dropGrind (s : State) (n : Nat) : State :=
  s.setMill { s.mill with queue := s.mill.queue.filter (fun r => decide (r.number ≠ n)) }

/-- The mill's current request (section 5.5). -/
def State.currentGrind (s : State) : Option GrindRequest := s.mill.current.bind s.grind

/-- Whether a source is a RAW bin with outlet MILL and a speed output as its feeder (R116). -/
def sourceFit (s : State) (b : Nat) : Bool :=
  match s.bin b with
  | some v => decide (v.cfg.kind = .raw ∧ v.cfg.outlet = .mill) && v.cfg.feeder.isSpeed
  | none => false

/-- Whether a destination is a GROUND bin (R116). -/
def destinationFit (s : State) (b : Nat) : Bool :=
  match s.bin b with
  | some v => decide (v.cfg.kind = .ground)
  | none => false

/-- Whether a request's destination stands at its target level; level 0 means the high mark (R115, R124). -/
def atLevel (s : State) (r : GrindRequest) : Bool :=
  match s.bin r.destination with
  | some v => decide ((if r.level = 0 then v.cfg.highMark else r.level) ≤ v.onHand)
  | none => false

/-- Whether the high probe of a bin is COVERED (R44). -/
def probeCovered (s : State) (b : Nat) : Bool := decide ((s.bin b).bind (·.highCovered) = some true)

/-! ### The feed -/

/-- The mill's feeder goes to 0 and the loop disengages. DEDUCED: the feeder speed u is then 0
(notes/assumptions/14.md). -/
def millFeedOff (s : State) : State :=
  let s1 := match s.currentGrind with
    | some r => s.askFeeder r.source 0
    | none => s
  s1.setMill { s1.mill with engaged := false, u := 0 }

/-- The mill motor is asked on or off; off forgets the running feedback. -/
def millMotor (s : State) (on : Bool) : State :=
  let s1 := s.ask .millMotor on
  if on then s1 else s1.setMill { s1.mill with feedbackFound := false }

/-- GRIND_DONE for a request (R124, R193). -/
def raiseGrindDone (s : State) (r : GrindRequest) : State :=
  s.raise (.grindDone r.number r.destination (coarse 100000 255 r.ground))

/-- The current request returns to WAITING at its place, and the mill has none (R131). -/
def millReturn (s : State) : State :=
  let s1 := match s.currentGrind with
    | some r => s.putGrind { r with state := .waiting }
    | none => s
  s1.setMill { s1.mill with current := none }

/-! ### States -/

/-- The mill enters HELD (R129). -/
def holdMill (s : State) (reason : MillReason) (motor : Bool) : Result :=
  let ended := endTransfer (millFeedOff s) .mill
  let s1 := ended.1.setMill { ended.1.mill with state := .held reason, timer := none }
  let s2 := if motor then s1 else millMotor s1 false
  (s2.raise (.millHeld reason (s2.mill.current.getD 0)), ended.2)

/-- The mill enters IDLE_RUN (R128). -/
def enterIdleRun (s : State) : State :=
  s.setMill { s.mill with state := .idleRun, timer := some (.idle s.mill.settings.idleTime) }

/-- The mill enters STOPPING (R128). -/
def enterStopping (s : State) : State :=
  let s1 := millMotor s false
  s1.setMill { s1.mill with state := .stopping, timer := some (.rundown s1.mill.settings.rundownTime) }

/-- The end of the drain time (R128). -/
def drainEnd (s : State) : Result :=
  if s.mill.stopMark then (enterStopping s).done
  else (s.setMill { s.mill with timer := none }, [.servingOrIdle])

/-- The mill enters DRAINING; a drain time of 0 ends at once (R128). -/
def enterDraining (s : State) : Result :=
  let s1 := s.setMill { s.mill with state := .draining, timer := some (.drain s.mill.settings.drainTime) }
  if s.mill.settings.drainTime = 0 then drainEnd s1 else s1.done

/-- The end of the warm time: RUNNING with a current request, a selection without one (R122). -/
def warmEnd (s : State) : Result :=
  (s.setMill { s.mill with timer := none }, if s.currentGrind.isSome then [.millRun] else [.servingOrIdle])

/-- The running feedback is found in STARTING: the warm time runs; one of 0 ends at once (R122). -/
def millFound (s : State) : Result :=
  let s1 := s.setMill { s.mill with feedbackFound := true, timer := some (.warm s.mill.settings.warmTime) }
  if s.mill.settings.warmTime = 0 then warmEnd s1 else s1.done

/-- The mill enters STARTING (R122). DESIGN CHOICE: a feedback that counts as present for want of a MILL_RUNNING input is taken as
found (notes/assumptions/67.md). -/
def enterStarting (s : State) : Result :=
  let s1 := millMotor s true
  let s2 := s1.setMill { s1.mill with
    state := .starting
    feedbackFound := false
    timer := some (.start s1.mill.settings.startTime) }
  if (s2.inputWith .millRunning).isNone then millFound s2 else s2.done

/-- The legs of the mill's transfer (R123). -/
def millLegs (s : State) (r : GrindRequest) : List Leg :=
  [⟨r.source, false, ((s.bin r.source).map (·.cfg.outletRoute)).getD 0⟩,
    ⟨r.destination, true, ((s.bin r.destination).map (·.cfg.inletRoute)).getD 0⟩]

/-- The mill enters RUNNING with its current request (R123). -/
def enterRunning (s : State) : Result :=
  match s.currentGrind with
  | none => s.done
  | some r =>
    let s1 := s.setMill { s.mill with state := .running, timer := none, engaged := false }
    match transferRefusal s1 .mill (millLegs s r) with
    | some .lineStopped => holdMill s1 .lineStop false
    | some _ => holdMill s1 .noPermit true
    | none => openTransfer s1 .mill (millLegs s r) []

/-! ### Serving selection -/

/-- What a selection finds: the state it leaves and the request it stops at (R119). -/
def serveOver : List GrindRequest → State → State × Option GrindRequest
  | [], s => (s, none)
  | r :: rest, s =>
    if r.state = .waiting ∧ r.screen = s.mill.fitted ∧ s.mill.fitted ≠ 0 then
      if !(sourceFit s r.source && destinationFit s r.destination) then
        serveOver rest ((s.putGrind { r with state := .held .noSource }).raise (.millHeld .noSource r.number))
      else if atLevel s r || probeCovered s r.destination then
        serveOver rest (raiseGrindDone (s.dropGrind r.number) r)
      else (s, some r)
    else serveOver rest s

/-- SCREEN_NEEDED when WAITING requests remain and none is servable, once per change of the head request (R119). DEDUCED: the
memory is the request's number, so that a new request under the remembered number is no change
(notes/assumptions/52.md). -/
def screenCheck (s : State) : State :=
  match s.mill.queue.find? (fun r => decide (r.state = .waiting)) with
  | none => s
  | some head =>
    if s.mill.screenMemory = some head.number then s
    else (s.setMill { s.mill with screenMemory := some head.number }).raise (.screenNeeded head.number head.screen)

/-- A request becomes GRINDING and the mill's current request (R119). -/
def takeGrind (s : State) (r : GrindRequest) : State :=
  let s1 := s.putGrind { r with state := .grinding }
  s1.setMill { s1.mill with current := some r.number }

/-- The serving selection in the mill's state (R119). -/
def serving (s : State) : Result :=
  if s.mill.state = .stopped ∧ (s.stopped = true ∨ s.mill.stopMark = true) then s.done
  else if s.mill.state = .idleRun ∧ s.stopped = true then s.done
  else
    let found := serveOver s.mill.queue s
    match found.2 with
    | none => (screenCheck found.1).done
    | some r =>
      match s.mill.state with
      | .stopped => enterStarting found.1
      | .idleRun => (takeGrind found.1 r, [.millRun])
      | _ => found.1.done

/-- The serving selection at the end of the drain or warm time: RUNNING with what it finds, IDLE_RUN otherwise (R119). -/
def servingOrIdle (s : State) : Result :=
  let found := serveOver s.mill.queue s
  match found.2 with
  | none => (enterIdleRun (screenCheck found.1)).done
  | some r => (takeGrind found.1 r, [.millRun])

/-! ### Completion and the loop interval -/

/-- Whether the mill is HELD (section 5.5). -/
def Mill.held (m : Mill) : Bool :=
  match m.state with
  | .held _ => true
  | _ => false

/-- Steps 1 and 2 of the completion of the current request: the released resources are offered to the waiting list, and then the
other steps of R124 follow. -/
def completeGrind (s : State) (r : GrindRequest) : Result :=
  let ended := endTransfer (millFeedOff s) .mill
  (ended.1, ended.2 ++ [.finishGrind r.number])

/-- Steps 3 to 5 of the completion of the current request, in the order of R124; a held mill stays held (R129). A mill that is
still STARTING with the request enters DRAINING like one in RUNNING. DESIGN CHOICE: a feedback not found till then is not watched
afterwards (notes/assumptions/66.md). -/
def finishGrind (s : State) (n : Nat) : Result :=
  match s.currentGrind with
  | none => s.done
  | some r =>
    if r.number = n then
      let s1 := s.dropGrind r.number
      let s2 := raiseGrindDone (s1.setMill { s1.mill with current := none }) r
      if s2.mill.held then s2.done else enterDraining s2
    else s.done

/-- A posting to a bin judges the current request by its level (R124). -/
def millJudgePosting (s : State) (b : Nat) : Result :=
  match s.currentGrind with
  | some r => if r.destination = b ∧ atLevel s r = true then completeGrind s r else s.done
  | none => s.done

/-- A high probe's change to COVERED judges the current request (R124). -/
def millJudgeProbe (s : State) (b : Nat) : Result :=
  match s.currentGrind with
  | some r => if r.destination = b then completeGrind s r else s.done
  | none => s.done

/-- Steps 1 and 2 of setting the current request aside for no flow; the other steps of R127 follow the offer of the released
resources. -/
def noFlow (s : State) : Result :=
  match s.currentGrind with
  | none => s.done
  | some r =>
    let ended := endTransfer (millFeedOff s) .mill
    (ended.1, ended.2 ++ [.finishNoFlow r.number])

/-- Steps 3 to 5 of setting the current request aside, in the order of R127. -/
def finishNoFlow (s : State) (n : Nat) : Result :=
  match s.currentGrind with
  | none => s.done
  | some r =>
    if r.number = n then
      let s1 := s.putGrind { r with state := .held .noFlow }
      enterDraining ((s1.setMill { s1.mill with current := none }).raise (.millHeld .noFlow r.number))
    else s.done

/-- The overload trip (R126). -/
def overload (s : State) : Result := holdMill s .overload true

/-- The change of speed and the new speed of the load loop from the error (R125). -/
def loopSpeed (m : MillSettings) (u ePrev e : Int) : Int :=
  clampInt m.uMin m.uMax (u + rdiv (m.kp * (e - ePrev) + m.ki * e) 64)

/-- Steps 3 to 5 of an engaged loop interval: overload watch, load loop, no-flow watch (R124 to R127). -/
def millWatch (s : State) : Result :=
  match s.currentGrind with
  | none => s.done
  | some r =>
    if s.mill.state = .running ∧ s.mill.engaged = true then
      let m := s.mill.settings
      let i := (s.readAnalog 0).1
      let trips := if (m.iTrip : Int) < i then s.mill.overloadCount + 1 else 0
      let s1 := s.setMill { s.mill with overloadCount := trips }
      if intervalsOf m.tripTime 5 ≤ trips then overload s1
      else
        let e := (m.isp : Int) - i
        let u := loopSpeed m s.mill.u s.mill.ePrev e
        let flow := if u = m.uMax ∧ i < m.iNoload then s.mill.noFlowCount + 1 else 0
        let s2 := (s1.askFeeder r.source u.toNat).setMill { s1.mill with u := u, ePrev := e, noFlowCount := flow }
        if intervalsOf m.noFlowTime 5 ≤ flow then noFlow s2 else s2.done
    else s.done

/-- The mass a mill feeds over an interval: R × u / 2,000, rounded (R124). -/
def millEstimate (fullRate : Nat) (u : Int) : Nat := rdivNat (fullRate * u.toNat) 2000

/-- A loop interval of the mill (R123, R124). -/
def loopInterval (s : State) : Result :=
  match s.currentGrind with
  | none => s.done
  | some r =>
    if s.mill.state = .running ∧ s.flowing .mill = true then
      if s.mill.engaged then
        let rate := ((s.bin r.source).map (·.cfg.fullRate)).getD 0
        let m := millEstimate rate s.mill.u
        if m = 0 then (s, [.millWatch])
        else
          let s1 := s.putGrind { r with ground := satAdd max32 r.ground m }
          let d := draw s1 r.source m none
          let f := fill d.result.1 r.destination m []
          (f.result.1, d.result.2 ++ f.result.2 ++ [.millWatch])
      else
        let u := s.mill.settings.uStart
        ((s.askFeeder r.source u).setMill
          { s.mill with engaged := true, u := u, ePrev := 0, overloadCount := 0, noFlowCount := 0 }).done
    else s.done

/-! ### Auto-grind -/

/-- BIN_LOW of a bin reaches auto-grind (R117). -/
def autoGrind (s : State) (b : Nat) : Result :=
  match s.bin b with
  | none => s.done
  | some v =>
    if v.cfg.kind ≠ .ground ∨ v.cfg.arming = .off then s.done
    else if s.mill.queue.any (fun r => decide (r.destination = b)) then s.done
    else if !sourceFit s v.cfg.grindSource then (s.raise (.millHeld .noSource b)).done
    else if Config.grindCap ≤ s.mill.queue.length then (s.raise (.millHeld .queueFull b)).done
    else
      let r : GrindRequest := ⟨61440 + b, v.cfg.grindSource, b, v.cfg.grindScreen, 0, .waiting, 0⟩
      let s1 := s.setMill { s.mill with queue := s.mill.queue ++ [r] }
      let s2 := if v.cfg.arming = .single then s1.setBin b { v with cfg := { v.cfg with arming := .off } } else s1
      (s2, [.serving])

/-! ### Expiries and holds from outside -/

/-- The mill's transfer was aborted on a permissive loss, or its permit time expired (R129). -/
def millTransferFailed (s : State) (reason : MillReason) : Result :=
  if s.mill.state = .running then holdMill s reason true else endTransfer s .mill

/-- The running feedback is lost (R129). -/
def millFeedbackLoss (s : State) : Result :=
  if s.mill.motorRuns then holdMill s .feedbackLost false else s.done

/-- A Line Stop reaches the mill (R129). -/
def stopMill (s : State) : Result :=
  match s.mill.state with
  | .stopped | .stopping => s.done
  | .held .lineStop => s.done
  | _ => holdMill s .lineStop false

end Sys2Proof.Machine
end

