-- ==== Sys2Proof/Machine/Pelleting.lean ====
section
/-! DEFINITION. The Press Controllers: starting (R141 to R143), feeding (R144 to R147), starvation (R148, R149), the
changeover unit (R150 to R153) and holds (R154). -/

namespace Sys2Proof.Machine

/-! ### What belongs to a press (R136) -/

/-- The motor role of a press. -/
def pressMotor : PressId → Role
  | .one => .press1Motor
  | .two => .press2Motor

/-- The divert role of a press. -/
def pressDivert : PressId → Role
  | .one => .press1Divert
  | .two => .press2Divert

/-- The transfer owner of a press. -/
def pressOwner : PressId → Owner
  | .one => .press1
  | .two => .press2

/-- The analog input of a press's motor current (R68). -/
def currentInput : PressId → Nat
  | .one => 1
  | .two => 2

/-- The analog input of a press's conditioning temperature (R68). -/
def temperatureInput : PressId → Nat
  | .one => 3
  | .two => 4

/-- The analog output of a press's steam setpoint (R69). -/
def steamOutput : PressId → Nat
  | .one => 0
  | .two => 1

/-- The active temperature: the profile copy's setpoint plus the trim (R143). -/
def ActiveRun.temperature (a : ActiveRun) : Int := (a.profile.temperature : Int) + a.tempTrim

/-- The trimmed rate in kg/h (R145). -/
def ActiveRun.trimmedRate (a : ActiveRun) : Nat := (rdiv (a.profile.feedRate * (1000 + a.rateTrim)) 1000).toNat

/-- The steam setpoint output for a temperature, in permille (R143). -/
def steamValue (temperature : Int) : Nat := (clampInt 0 1000 (rdiv (temperature * 1000) 1200)).toNat

/-- The steam setpoint output of a press is written from its active run (R143). -/
def writeSteam (s : State) (p : PressId) (a : ActiveRun) : State :=
  s.setAnalogOut (steamOutput p) (steamValue a.temperature)

/-- PRESSn_HELD with the active run's number, 0 if none (R154). -/
def raisePressHeld (s : State) (p : PressId) (reason : PressReason) (cause : PressCause) : State :=
  s.raise (.pressHeld p reason cause (((s.pressAt p).active.map (·.number)).getD 0))

/-! ### Feed, motor, phase -/

/-- The feeder of a press goes to 0, and the press is no longer engaged. -/
def pressFeedOff (s : State) (p : PressId) : State :=
  (s.askFeeder (s.pressAt p).cfg.surgeBin 0).modPress p (fun x => { x with engaged := false })

/-- The motor of a press is asked on or off; off forgets the running feedback. -/
def askPressMotor (s : State) (p : PressId) (on : Bool) : State :=
  let s1 := s.ask (pressMotor p) on
  if on then s1 else s1.modPress p (fun x => { x with feedbackFound := false })

/-- A press enters HELD, its transfer ended (R154). -/
def holdPress (s : State) (p : PressId) (reason : PressReason) (cause : PressCause) (motor : Bool) : Result :=
  let ended := endTransfer (pressFeedOff s p) (pressOwner p)
  let s1 := ended.1.modPress p (fun x => { x with state := .held reason cause, timer := none })
  let s2 := if motor then s1 else askPressMotor s1 p false
  (raisePressHeld s2 p reason cause, ended.2)

/-- The state of a run's phase (R140, R143). -/
def phaseState : RunPhase → PressState
  | .flush => .flushing
  | .deliver => .running

/-- The legs of a press's transfer (R143). -/
def pressLegs (s : State) (p : PressId) (a : ActiveRun) : List Leg :=
  let surge := (s.pressAt p).cfg.surgeBin
  let outlet (b : Nat) : Nat := ((s.bin b).map (·.cfg.outletRoute)).getD 0
  let inlet (b : Nat) : Nat := ((s.bin b).map (·.cfg.inletRoute)).getD 0
  [⟨surge, false, outlet surge⟩, ⟨a.destination, true, inlet a.destination⟩] ++
    (match s.reworkBin with
      | some w => [⟨w, true, inlet w⟩]
      | none => [])

/-- A press asks its divert on in FLUSHING and off in RUNNING (R143). -/
def askDivert (s : State) (p : PressId) (phase : RunPhase) : State := s.ask (pressDivert p) (decide (phase = .flush))

/-- A press enters FLUSHING or RUNNING by its run's phase, asks its divert and requests its transfer (R143). The occurrences
`events` are raised once the request has been made and everything that follows from its grant has been done; a refused
request holds the press after them (R153). -/
def enterPhaseRaising (s : State) (p : PressId) (events : List Event) : Result :=
  match (s.pressAt p).active with
  | none => s.done
  | some a =>
    let s1 := s.modPress p (fun x => { x with state := phaseState a.phase, timer := none, engaged := false })
    match transferRefusal s1 (pressOwner p) (pressLegs s1 p a) with
    | some .lineStopped => holdPress (events.foldl State.raise s1) p .lineStop .none false
    | some _ => holdPress (events.foldl State.raise s1) p .noPermit .none true
    | none =>
      let opened := openTransfer (askDivert s1 p a.phase) (pressOwner p) (pressLegs s1 p a) [pressDivert p]
      (opened.1, opened.2 ++ events.map .raise)

/-- The same with no occurrence of its own. -/
def enterPhase (s : State) (p : PressId) : Result := enterPhaseRaising s p []

/-! ### Fitness (R142) -/

/-- What PRESS_START would refuse a run with, if the run is not fit (R142). -/
def runRefusal (s : State) (p : PressId) (r : Run) : Option ReplyCode :=
  match s.bin (s.pressAt p).cfg.surgeBin, Table.get s.press.profiles r.profile, s.bin r.destination with
  | some v, some _, some d =>
    if v.cfg.kind ≠ .surge ∨ v.cfg.outlet ≠ pressOutlet p ∨ v.cfg.feeder.isSpeed = false ∨ v.cfg.fullRate = 0 ∨
        d.cfg.kind ≠ .finished then some .wrongState
    else if d.cfg.code ≠ r.product then some .inUse
    else none
  | _, _, _ => some .noSuch

/-! ### Runs -/

/-- The head of a queue has its skip counter loaded (R137). -/
def loadHead : List Run → List Run
  | [] => []
  | r :: rest => { r with skipCounter := r.skip } :: rest

/-- The active run ends with a reason: its report is written and PRESSn_RUN_END raised (R140). -/
def endRun (s : State) (p : PressId) (reason : RunEnd) : State :=
  match (s.pressAt p).active with
  | none => s
  | some a =>
    let rep : RunReport := ⟨a.number, reason, a.drawn, a.delivered, a.flushed, a.ignored, a.tally⟩
    (s.modPress p (fun x => { x with active := none, report := some rep })).raise (.pressRunEnd p a.number reason)

/-- The profile that an activated run copies (R134). -/
def profileCopy (s : State) (n : Nat) : Profile :=
  (Table.get s.press.profiles n).getD ⟨1, 0, 1, 2, 1, 0, 0, false⟩

/-- The active run that a queued run becomes (R153 step 4). -/
def newActive (s : State) (r : Run) (dropped : Bool) : ActiveRun :=
  let prof := profileCopy s r.profile
  let flush := decide (0 < r.flushMass)
  { number := r.number, profileNumber := r.profile, product := r.product, destination := r.destination,
    flushMass := r.flushMass, massLimit := r.massLimit, profile := prof, rateTrim := 0, tempTrim := 0,
    activeRate := prof.feedRate, phase := if flush && s.reworkBin.isSome then .flush else .deliver,
    drawn := 0, delivered := 0, flushed := 0, tally := ⟨[], false⟩, ignored := 0, limitMark := false,
    copyDropped := dropped, flushSkipped := flush && s.reworkBin.isNone, chokeCurrent := none }

/-- The head run leaves the queue and becomes the active run (R153 steps 3 and 4). -/
def activateHead (s : State) (p : PressId) : State :=
  match (s.pressAt p).queue with
  | [] => s
  | r :: rest =>
    let room := decide (rest.length < Config.runCap)
    let queue := if r.copies && room then rest ++ [r] else rest
    let a := newActive s r (r.copies && !room)
    writeSteam (s.modPress p (fun x => { x with queue := loadHead queue, active := some a })) p a

/-- Carry-back of the outgoing run's trimmed values into its profile entry (R153 step 1). -/
def carryBack (s : State) (a : ActiveRun) : State :=
  match a.profile.carryBack, Table.get s.press.profiles a.profileNumber with
  | true, some entry =>
    let next := { entry with
      feedRate := max 1 (min 60000 a.trimmedRate)
      temperature := (clampInt 0 1200 a.temperature).toNat }
    s.setPresses { s.press with profiles := Table.set s.press.profiles a.profileNumber next }
  | _, _ => s

/-- A changeover: the carry-back and the end of the outgoing transfer, which offers the released resources at once; the other steps
of R153 follow as tasks. -/
def changeover (s : State) (p : PressId) : Result :=
  match (s.pressAt p).active with
  | some a =>
    let ended := endTransfer (pressFeedOff (carryBack s a) p) (pressOwner p)
    (ended.1, ended.2 ++ [.pressChange p])
  | none => (activateHead s p, [.pressEnter p 0])

/-- The end of the outgoing run and steps 3 and 4 of a changeover, in the order of R153. -/
def pressChange (s : State) (p : PressId) : Result :=
  match (s.pressAt p).active with
  | some a => (activateHead (endRun s p .changeover) p, [.pressEnter p a.number])
  | none => s.done

/-- Steps 5 and 6 of a changeover (R153): the new transfer is requested, and then the event is raised. -/
def pressEnter (s : State) (p : PressId) (outgoing : Nat) : Result :=
  match (s.pressAt p).active with
  | none => s.done
  | some a => enterPhaseRaising s p [.pressChangeover p outgoing a.number]

/-! ### Signals and triggers -/

/-- What acting on a signal did, for the reply of CHANGEOVER_NOW (R158). -/
inductive SignalOutcome where
  | changed (incoming : Nat)
  | skipped (left : Nat)
  | heldNoRun
  | marked
  | ignored
  deriving DecidableEq, Repr

/-- A press with no next run to take is held NO_RUN, its mark set (R152). -/
def holdNoRun (s : State) (p : PressId) (cause : PressCause) : Result :=
  holdPress (s.modPress p (fun x => { x with signalPending := true })) p .noRun cause true

/-- A skip lets the press go on with its active run: feeding goes on as it is, STARTING and a resume enter the run's phase,
and a starved press returns to it with its transfer (R152). DESIGN CHOICE: a skip with no active run to go on with holds the
press NO_RUN with its mark set (notes/assumptions/15.md). -/
def goOnAfterSkip (s : State) (p : PressId) (place : SignalPlace) : Result :=
  match (s.pressAt p).active with
  | none => holdNoRun s p .none
  | some a =>
    match place with
    | .feeding => s.done
    | .starting | .resumed => enterPhase s p
    | .starved => (askDivert (s.modPress p (fun x => { x with state := phaseState a.phase })) p a.phase).done

/-- The press acts on a signal (R152). -/
def actSignal (s : State) (p : PressId) (place : SignalPlace) : Result × SignalOutcome :=
  match (s.pressAt p).queue with
  | [] => (holdNoRun s p .emptyQueue, .heldNoRun)
  | r :: rest =>
    if 0 < r.skipCounter then
      let s1 := s.modPress p (fun x => { x with
        queue := { r with skipCounter := r.skipCounter - 1 } :: rest
        signalPending := false })
      (goOnAfterSkip s1 p place, .skipped (r.skipCounter - 1))
    else if (runRefusal s p r).isSome then (holdNoRun s p .bins, .heldNoRun)
    else (changeover (s.modPress p (fun x => { x with signalPending := false })) p, .changed r.number)

/-- A trigger is counted as ignored (R150). -/
def countIgnored (s : State) (p : PressId) : State :=
  s.modPress p (fun x => { x with active := x.active.map (fun a => { a with ignored := satAdd 255 a.ignored 1 }) })

/-- A trigger of a class in the press's set reaches its changeover unit (R150). -/
def takeTrigger (s : State) (p : PressId) : State :=
  let x := s.pressAt p
  if x.active.isNone then s
  else if x.delay.isNone && !x.signalPending then s.modPress p (fun x => { x with delay := some x.cfg.delay })
  else countIgnored s p

/-- A trigger of a class reaches the changeover unit when the class is in the set (R150). -/
def triggerIf (s : State) (p : PressId) (inSet : TriggerSet → Bool) : State :=
  if inSet (s.pressAt p).cfg.triggers then takeTrigger s p else s

/-- Lot boundaries, each with the tag that has become the oldest, are taken as triggers, in order (R50, R144). The trigger is
the boundary itself, whatever its tag (R150). -/
def boundaryTriggers : List Nat → PressId → State → State
  | [], _, s => s
  | _ :: tags, p, s => boundaryTriggers tags p (triggerIf s p (·.lotBoundary))

/-- A changeover signal is produced (R151): acted on at once in FLUSHING and RUNNING, otherwise the mark is set. -/
def produceSignal (s : State) (p : PressId) (immediate : Bool) : Result × SignalOutcome :=
  let x := s.pressAt p
  if x.state = .flushing ∨ x.state = .running then actSignal s p .feeding
  else if immediate && x.signalPending then ((countIgnored s p).done, .ignored)
  else ((s.modPress p (fun x => { x with signalPending := true })).done, .marked)

/-- An immediate signal: it cancels a pending delay (R151). -/
def immediateSignal (s : State) (p : PressId) : Result × SignalOutcome :=
  produceSignal (s.modPress p (fun x => { x with delay := none })) p true

/-- The press's button (R150, R151). -/
def pressButton (s : State) (p : PressId) : Result :=
  let x := s.pressAt p
  if x.active.isNone || !x.cfg.triggers.button then s.done
  else if x.cfg.buttonImmediate then (immediateSignal s p).1
  else (takeTrigger s p).done

/-- The delay timer expires: by CHANGEOVER_DELAY_TIMEOUT, or within the control interval whose step 1 started it at 0 (R144, R150,
R151). -/
def delayExpiry (s : State) (p : PressId) : Result :=
  if (s.pressAt p).delay.isSome then
    (produceSignal (s.modPress p (fun x => { x with delay := none })) p false).1
  else s.done

/-! ### Starting -/

/-- The end of STARTING: the pending signal, or the run's phase (R141). -/
def startingEnd (s : State) (p : PressId) : Result :=
  let s1 := s.modPress p (fun x => { x with timer := none })
  if (s1.pressAt p).signalPending then (actSignal s1 p .starting).1 else enterPhase s1 p

/-- The running feedback is found in STARTING: the cold check begins, or the press goes on (R141). DESIGN CHOICE: a feedback that
counts as present for want of an input is found like any other (notes/assumptions/67.md). -/
def pressFound (s : State) (p : PressId) : Result :=
  let s1 := s.modPress p (fun x => { x with feedbackFound := true, timer := some (.cold x.cfg.coldWait) })
  if (s1.pressAt p).active.isSome then s1.done else startingEnd s1 p

/-- The press enters STARTING (R141). -/
def pressStarting (s : State) (p : PressId) : Result :=
  let s1 := askPressMotor s p true
  let s2 := s1.modPress p (fun x => { x with
    state := .starting, engaged := false, feedbackFound := false, timer := some (.start x.cfg.startTime) })
  if (s2.inputWith (pressRunning p)).isNone then pressFound s2 p else s2.done

/-- Whether the conditioning temperature lies below the active temperature less the cold band (R141, R147). -/
def tooCold (s : State) (p : PressId) (a : ActiveRun) : Bool :=
  decide ((s.readAnalog (temperatureInput p)).1 < a.temperature - a.profile.coldBand)

/-! ### Starvation -/

/-- The four steps that starve a press (R148). -/
def starve (s : State) (p : PressId) : State :=
  let s1 := (pressFeedOff s p).modPress p (fun x => { x with state := .starved, timer := some (.starve x.cfg.starveTime) })
  raisePressHeld s1 p .starved .none

/-- A starved press is judged (R149). -/
def starvedJudge (s : State) (p : PressId) : Result :=
  let x := s.pressAt p
  match x.state, s.bin x.cfg.surgeBin, x.active with
  | .starved, some v, some a =>
    if x.cfg.resumeMass ≤ v.onHand ∧ v.lowCovered ≠ some false then
      let s1 := s.modPress p (fun x => { x with timer := none })
      if x.signalPending then (actSignal s1 p .starved).1
      else (askDivert (s1.modPress p (fun x => { x with state := phaseState a.phase, engaged := false })) p a.phase).done
    else s.done
  | _, _, _ => s.done

/-- The starve timer expires: the run ends and its transfer with it, and the other steps of R149 follow the offer of the released
resources. -/
def starveExpiry (s : State) (p : PressId) : Result :=
  let x := s.pressAt p
  match x.state, x.active with
  | .starved, some a =>
    let ended := endTransfer (endRun (pressFeedOff s p) p .starvedOut) (pressOwner p)
    (ended.1, ended.2 ++ [.finishStarved p a.number])
  | _, _ => s.done

/-- The steam setpoint and steps 3 and 4 of a starving out, in the order of R149. -/
def finishStarved (s : State) (p : PressId) (run : Nat) : State :=
  ((s.setAnalogOut (steamOutput p) 0).modPress p (fun x => { x with
    delay := none, signalPending := true, state := .held .starvedOut .none, timer := none })).raise
      (.pressHeld p .starvedOut .none run)

/-! ### The estimate -/

/-- A flush with no REWORK bin becomes a delivery, and a press in FLUSHING enters RUNNING (R144, R148). -/
def endFlush (s : State) (p : PressId) : State :=
  let x := s.pressAt p
  let s1 := s.modPress p (fun x => { x with active := x.active.map (fun a => { a with phase := .deliver }) })
  if x.state = .flushing then (s1.modPress p (fun x => { x with state := .running })).ask (pressDivert p) false else s1

/-- The mass of a draw in the press's name is counted as drawn and as delivered or flushed, and its consumed list joins the
tally (R144). -/
def countDraw (a : ActiveRun) (x : Nat) (consumed : List (Nat × Nat)) : ActiveRun :=
  { a with
    drawn := satAdd max32 a.drawn x
    flushed := if a.phase = .flush then satAdd max32 a.flushed x else a.flushed
    delivered := if a.phase = .deliver then satAdd max32 a.delivered x else a.delivered
    tally := a.tally.addAll consumed }

/-- The bin that takes the press's output: REWORK in phase FLUSH, the destination in phase DELIVER (R144). -/
def outputBin (s : State) (a : ActiveRun) : Nat :=
  match a.phase with
  | .flush => s.reworkBin.getD 0
  | .deliver => a.destination

/-- A draw's mass goes on into the receiving bin and the counters, and a completed flush ends (R144, R148). -/
def passOn (s : State) (p : PressId) (x : Nat) (consumed : List (Nat × Nat)) : Result :=
  match (s.pressAt p).active with
  | none => s.done
  | some a =>
    let pieces := consumed.map (fun e => (⟨e.1, a.product, e.2⟩ : Piece))
    let filled := fill s (outputBin s a) x pieces
    let s1 := filled.result.1.modPress p (fun y => { y with active := y.active.map (fun b => countDraw b x consumed) })
    (s1, filled.result.2)

/-- A flush that has reached its flush mass ends (R144). -/
def judgeFlush (s : State) (p : PressId) : State :=
  match (s.pressAt p).active with
  | some a => if a.phase = .flush ∧ a.flushMass ≤ a.flushed then endFlush s p else s
  | none => s

/-- The LIMIT trigger, once per run (R144). -/
def judgeLimit (s : State) (p : PressId) : State :=
  match (s.pressAt p).active with
  | some a =>
    if 0 < a.massLimit ∧ a.limitMark = false ∧ a.massLimit ≤ a.drawn then
      triggerIf (s.modPress p (fun x => { x with active := x.active.map (fun b => { b with limitMark := true }) })) p
        (·.limit)
    else s
  | none => s

/-- Whether the destination of a run is still defined, FINISHED and of its product (R144). -/
def destinationOk (s : State) (a : ActiveRun) : Bool :=
  match s.bin a.destination with
  | some v => decide (v.cfg.kind = .finished ∧ v.cfg.code = a.product)
  | none => false

/-- The mass a press feeds over an interval: permille × full rate / 1,000, rounded (R144). -/
def pressEstimate (permille fullRate : Nat) : Nat := rdivNat (permille * fullRate) 1000

/-- The expiry of a delay timer that step 1 of a control interval has started at 0, from `before` to `after`: its signal, and the
changeover that may come of it, precede steps 2 to 6 (R144, R150). DESIGN CHOICE: the expiry comes once step 1 is whole, so that a
further trigger of the same step is ignored; a delay of 0 that is started elsewhere waits for its CHANGEOVER_DELAY_TIMEOUT
(notes/assumptions/81.md). -/
def zeroDelay (before after : State) (p : PressId) : List Task :=
  if (before.pressAt p).delay = none ∧ (after.pressAt p).delay = some 0 then [.delayExpired p] else []

/-- Step 1 of an engaged control interval, with mass `m` above 0, and the rest of the interval after it (R144). -/
def pressPost (s : State) (p : PressId) (a : ActiveRun) (m : Nat) : Result :=
  let s1 := if a.phase = .flush ∧ s.reworkBin = none then endFlush s p else s
  let deliver := decide (a.phase = .deliver) || s.reworkBin.isNone
  if deliver && !destinationOk s1 a then holdPress s1 p .noRun .destination true
  else
    let d := draw s1 (s1.pressAt p).cfg.surgeBin m none
    let f := passOn d.result.1 p d.removed d.consumed
    let s2 := judgeFlush (judgeLimit (boundaryTriggers d.boundaries p f.1) p) p
    (s2, d.result.2 ++ f.2 ++ zeroDelay s s2 p ++ [.pressWatch p])

/-- A control interval of a press (R141, R144). -/
def controlInterval (s : State) (p : PressId) : Result :=
  let x := s.pressAt p
  match x.active with
  | none => s.done
  | some a =>
    if x.state = .starting then
      match x.timer with
      | some (.cold _) => if tooCold s p a then s.done else startingEnd s p
      | _ => s.done
    else if (x.state = .flushing ∨ x.state = .running) ∧ s.flowing (pressOwner p) = true then
      if x.engaged then
        let v := s.bin x.cfg.surgeBin
        let m := pressEstimate ((v.map (·.feederAsk)).getD 0) ((v.map (·.cfg.fullRate)).getD 0)
        if m = 0 then (s, [.pressWatch p]) else pressPost s p a m
      else
        (s.modPress p (fun x => { x with engaged := true, chokeCount := 0, coldCount := 0 }), [.pressWatch p])
    else s.done

/-- The active rate after the load clamp (R145). -/
def clampRate (a : ActiveRun) (i : Int) : Nat :=
  let rate := a.profile.feedRate
  if (a.profile.loadLimit : Int) < i then
    min (max (a.activeRate - rdivNat (2 * rate) 100) (rdivNat (40 * rate) 100)) a.trimmedRate
  else if i < (a.profile.loadLimit : Int) - a.profile.hysteresis then
    min (a.activeRate + rdivNat rate 100) a.trimmedRate
  else min a.activeRate a.trimmedRate

/-- The feeder permille for an active rate (R145). -/
def pressPermille (rate fullRate : Nat) : Nat := min 1000 (rdivNat (rdivNat (rate * 1000) 3600 * 1000) fullRate)

/-- Steps 1 and 2 of a choke on a reading; the other steps of R146 follow the offer of the released resources. -/
def choke (s : State) (p : PressId) (i : Int) : Result :=
  let ended := endTransfer (pressFeedOff s p) (pressOwner p)
  (ended.1, ended.2 ++ [.finishChoke p i])

/-- Steps 3 and 4 of a choke, in the order of R146. -/
def finishChoke (s : State) (p : PressId) (i : Int) : State :=
  raisePressHeld (s.modPress p (fun x => { x with
    state := .choked, active := x.active.map (fun a => { a with chokeCurrent := some i }) })) p .choke .none

/-- Steps 2 to 6 of an engaged control interval: starvation, choke watch, load clamp, cold watch, drive. A press that step 1 has
held, or that a changeover has left not engaged, takes none of them (R144). DEDUCED:
while the cold count of the interval before stands above 0 the feed is paused, and the load clamp leaves the active rate
(R147, notes/assumptions/50.md). -/
def pressWatch (s : State) (p : PressId) : Result :=
  let x := s.pressAt p
  match x.active, s.bin x.cfg.surgeBin with
  | some a, some v =>
    if (x.state = .flushing ∨ x.state = .running) ∧ x.engaged = true then
      if v.onHand = 0 then (starve s p).done
      else
        let i := (s.readAnalog (currentInput p)).1
        let chokes := if (a.profile.tripLevel : Int) < i then x.chokeCount + 1 else 0
        let s1 := s.modPress p (fun x => { x with chokeCount := chokes })
        if intervalsOf a.profile.tripTime 10 ≤ chokes then choke s1 p i
        else
          let rate := if 0 < x.coldCount then a.activeRate else clampRate a i
          let cold := tooCold s p a
          let colds := if cold then x.coldCount + 1 else 0
          let s2 := s1.modPress p (fun x => { x with
            coldCount := colds, active := x.active.map (fun b => { b with activeRate := rate }) })
          if intervalsOf x.cfg.coldWait 10 ≤ colds then holdPress s2 p .cold .none true
          else (s2.askFeeder x.cfg.surgeBin (if cold then 0 else pressPermille rate v.cfg.fullRate)).done
    else s.done
  | _, _ => s.done

/-- The low-probe draw of bin `b` is handed to the press, which then starves if `b` is its surge bin and it feeds
(R148). DESIGN CHOICE: a drawn mass that reaches the mass limit here raises no trigger before the next posting interval
(notes/assumptions/73.md), and a delay of 0 that a boundary starts here expires by its own command, after the starving
(notes/assumptions/81.md). -/
def carryForward (s : State) (p : PressId) (b removed : Nat) (consumed : List (Nat × Nat)) (boundaries : List Nat) : Result :=
  match (s.pressAt p).active with
  | none => s.done
  | some a =>
    let s1 := if 0 < removed ∧ a.phase = .flush ∧ s.reworkBin = none then endFlush s p else s
    let f := passOn s1 p removed consumed
    let s2 := judgeFlush (boundaryTriggers boundaries p f.1) p
    let x := s2.pressAt p
    if (x.state = .flushing ∨ x.state = .running) ∧ x.cfg.surgeBin = b then (starve s2 p, f.2) else (s2, f.2)

/-! ### Holds from outside -/

/-- The press's transfer was aborted on a permissive loss, or its permit time expired (R154). -/
def pressTransferFailed (s : State) (p : PressId) (reason : PressReason) : Result :=
  match (s.pressAt p).state with
  | .flushing | .running | .starved => holdPress s p reason .none true
  | _ => endTransfer s (pressOwner p)

/-- The running feedback is lost (R154). -/
def pressFeedbackLoss (s : State) (p : PressId) : Result :=
  if (s.pressAt p).motorRuns then holdPress s p .motor .none false else s.done

/-- A Line Stop reaches a press, whose ABORTED transfer record stays (R154). -/
def stopPress (s : State) (p : PressId) : Result :=
  match (s.pressAt p).state with
  | .idle | .stopping => s.done
  | .held .lineStop _ => s.done
  | _ =>
    let s1 := askPressMotor (pressFeedOff s p) p false
    let s2 := s1.modPress p (fun x => { x with state := .held .lineStop .none, timer := none })
    (raisePressHeld s2 p .lineStop .none).done

/-- Step 1 of PRESS_STOP on a press that is neither IDLE nor STOPPING; the other steps of R156 follow the offer of the released
resources. -/
def pressStopNow (s : State) (p : PressId) : Result :=
  let ended := endTransfer (pressFeedOff s p) (pressOwner p)
  (ended.1.modPress p (fun x => { x with delay := none, signalPending := false, timer := none }),
    ended.2 ++ [.finishPressStop p])

/-- Steps 2 and 3 of PRESS_STOP, in the order of R156. -/
def finishPressStop (s : State) (p : PressId) : State :=
  let s1 := if (s.pressAt p).active.isSome then (endRun s p .stopped).setAnalogOut (steamOutput p) 0 else s
  (askPressMotor s1 p false).modPress p (fun x => { x with
    state := .stopping, timer := some (.rundown x.cfg.rundownTime) })

end Sys2Proof.Machine
end

