-- ==== Sys2Proof/Machine/Router.lean ====
section
/-! DEFINITION. The Event Router: notices (R197 to R199), the listeners of an occurrence (R196) and the tally slots (R202,
R203). -/

namespace Sys2Proof.Machine

/-- The level of a source; sources 1 and 2 have level 7 at all times (R194). -/
def State.level (s : State) (source : Nat) : Nat := Table.getD (defaultLevel source) s.router.levels source

/-- The state with a source's level set; a level at its default is not listed. -/
def State.setLevel (s : State) (source level : Nat) : State :=
  s.setRouter { s.router with levels := Table.put (defaultLevel source) s.router.levels source level }

/-- Tally slot `k` (R200). -/
def State.slot (s : State) (k : Nat) : Slot := Table.getD emptySlot s.router.slots k

/-- The state with a tally slot in a new form. -/
def State.setSlot (s : State) (k : Nat) (v : Slot) : State :=
  s.setRouter { s.router with slots := Table.put emptySlot s.router.slots k v }

/-- An occurrence reaches the notice table (R197). -/
def pendNotice (s : State) (e : Event) : State :=
  let level := s.level e.source
  if level = 0 then s
  else
    let next : Notice := match Table.get s.router.notices e.source with
      | none => ⟨1, level, e.detail⟩
      | some n => { n with count := satAdd 255 n.count 1 }
    s.setRouter { s.router with notices := Table.set s.router.notices e.source next }

/-- The notices that are eligible at the present floor (R198). -/
def State.eligible (s : State) : List (Nat × Notice) := s.router.notices.filter (fun e => decide (s.router.floor < e.2.level))

/-- The eligible notice with the highest level, the lowest source among equals (R199). -/
def bestNotice : List (Nat × Notice) → Option (Nat × Notice)
  | [] => none
  | e :: rest =>
    match bestNotice rest with
    | none => some e
    | some b => if e.2.level < b.2.level ∨ (e.2.level = b.2.level ∧ b.1 < e.1) then some b else some e

/-- The lowest armed slot bound to a source (R195, R202). -/
def State.servingSlot (s : State) (source : Nat) : Option Nat :=
  (List.range 8).find? (fun k => (s.slot k).armed && decide ((s.slot k).source = source))

/-- What a slot's action tells its job (R203). -/
def actionTasks (v : Slot) : List Task :=
  match v.action with
  | .postBag => [.postBag v.order v.line]
  | .releaseBatch => [.releaseBatch]
  | .changeover => [.slotTrigger (if v.press = 2 then .two else .one)]
  | .bagStart => [.bagStart]
  | .count => []

/-- Stages 2 and 3 of an offering: the lowest armed slot serves the occurrence, or it goes to the notice table (R195). -/
def slotOrNotice (s : State) (e : Event) : Result :=
  match s.servingSlot e.source with
  | some k => (s, actionTasks (s.slot k) ++ [.slotCount k])
  | none => (pendNotice s e).done

/-- A slot's count after its action; one that runs out disarms and raises its done event (R202). -/
def slotCount (s : State) (k : Nat) : State :=
  let v := s.slot k
  let left := v.remaining - 1
  let s1 := s.setSlot k { v with remaining := left, armed := v.armed && decide (left ≠ 0) }
  if left = 0 then s1.raise (.slotDone k v.source v.action) else s1

/-- The listeners of an occurrence in the order of R196, press 1 before press 2, and then its slot or notice (R195). The
bagger's two listeners are told which run is head as the occurrence is offered. -/
def offerTasks (s : State) (e : Event) : List Task :=
  let run := ((s.bag.queue.head?).map (·.number)).getD 0
  [.listenSource .one e, .listenSource .two e, .listenSurgeLow .one e, .listenSurgeLow .two e, .listenBagStop run e,
    .listenBagStart run e, .listenGrind e, .listenBatch e, .listenShort e, .slotOrNotice e]

/-- The router offers the next waiting occurrence (R195). -/
def offerNext (s : State) : Result :=
  match s.router.waiting with
  | [] => s.done
  | e :: rest => let s1 := s.setRouter { s.router with waiting := rest }
    (s1, offerTasks s1 e)

end Sys2Proof.Machine
end

