-- ==== Sys2Proof/Machine/Cascade.lean ====
section
/-! DEFINITION. How what a block is told reaches it, and how everything that follows from a command is worked out before the
command is finished. -/

namespace Sys2Proof.Machine

/-- The press that owns a transfer. -/
def ownerPress : Owner → PressId
  | .press2 => .two
  | _ => .one

/-- A dose report reaches its requester (R29). -/
def handReport (s : State) (rep : DoseReport) (consumed : List (Nat × Nat)) : Result :=
  match rep.requester with
  | .batchMain n i | .batchMicro n i => stepDoseEnded s n i rep
  | .bagger _ _ => bagDoseEnded s rep consumed
  | .loadout _ _ => loadDoseEnded s rep consumed

/-- The channel on which an owner doses. -/
def ownerScale : Owner → Option Scale
  | .batchMain => some .main
  | .batchMicro => some .micro
  | .bagger => some .bagger
  | .loadout => some .truck
  | _ => none

/-- The owner of the requester of an open dose. -/
def requesterOwner : Requester → Owner
  | .batchMain _ _ => .batchMain
  | .batchMicro _ _ => .batchMicro
  | .bagger _ _ => .bagger
  | .loadout _ _ => .loadout

/-- Whether an owner has an open dose that runs under its transfer (R28). A hand-add has no transfer. -/
def ownerDosing (s : State) (o : Owner) : Option Scale :=
  match ownerScale o with
  | some sc =>
    match (s.chan sc).dose with
    | some d => if requesterOwner d.order.requester = o ∧ d.order.bin.isSome = true then some sc else none
    | none => none
  | none => none

/-- An owner is told that its transfer is FLOWING (R78). -/
def tellFlowing (s : State) : Owner → Result
  | .batchMain => presentStep s .main
  | .batchMicro => presentStep s .micro
  | .batchRelease => releaseFlowing s
  | .mill | .press1 | .press2 => s.done
  | .bagger => tryBegin s
  | .loadout => presentLoad s

/-- An owner is told that its transfer was aborted: its open dose ends PERMIT, or it goes to its held state (R79). -/
def tellAborted (s : State) (o : Owner) : Result :=
  match ownerDosing s o with
  | some sc => endOpenDose s sc .permit
  | none =>
    match o with
    | .batchMain => stepTransferFailed s .main .permit
    | .batchMicro => stepTransferFailed s .micro .permit
    | .batchRelease =>
      match s.line.batches.find? (fun b => decide (b.state = .releasing)) with
      | some b => holdMixer s b .releasing .permit
      | none => endTransfer s .batchRelease
    | .mill => millTransferFailed s .permit
    | .press1 | .press2 => pressTransferFailed s (ownerPress o) .permit
    | .bagger => bagTransferLost s
    | .loadout => loadTransferFailed s .lost

/-- An owner is told NO_PERMIT (R77). -/
def tellNoPermit (s : State) (o : Owner) : Result :=
  match o with
  | .batchMain => stepTransferFailed s .main .noPermit
  | .batchMicro => stepTransferFailed s .micro .noPermit
  | .batchRelease =>
    match s.line.batches.find? (fun b => decide (b.state = .mixed)) with
    | some b => holdMixer s b .mixed .noPermit
    | none => endTransfer s .batchRelease
  | .mill => millTransferFailed s .noPermit
  | .press1 | .press2 => pressTransferFailed s (ownerPress o) .noPermit
  | .bagger => bagTransferExpired s
  | .loadout => loadTransferFailed s .timeout

/-- A channel without an open dose: a requester that was refused presents its order again (R19). -/
def presentAgain (s : State) : Scale → Result
  | .main => presentStep s .main
  | .micro => presentStep s .micro
  | .bagger => presentBag s
  | .truck => presentLoad s

/-- The users of a channel's weight judge a sample (R105, R185). -/
def judgeSample (s : State) : Scale → Result
  | .main => judgeDischarge s .main
  | .micro => judgeDischarge s .micro
  | .bagger => s.done
  | .truck => truckTare s

/-- The bin of a BIN_LOW occurrence. -/
def lowBin : Event → Option Nat
  | .binLow b _ => some b
  | _ => none

/-- The reservation of a RESERVATION_FILLED occurrence. -/
def filledId : Event → Option Nat
  | .reservationFilled id _ => some id
  | _ => none

/-- Whether a reservation belongs to a QUEUED or WAIT_STOCK batch (R196). -/
def waitingClaim (s : State) (id : Nat) : Bool :=
  s.line.batches.any (fun b => decide (b.state = .queued ∨ b.state = .waitStock) &&
    b.claims.any (fun c => decide (c.2 = id) && (s.claim c.1 id).isSome))

/-- One task: what the block that is told it does. DESIGN CHOICE: a posting is judged by the mill, then by the presses that starve, then
by the Batch Line (notes/assumptions/79.md). -/
def handle (t : Task) (s : State) : Result :=
  match t with
  | .posted b =>
    let r := millJudgePosting s b
    (r.1, r.2 ++ (([PressId.one, PressId.two].filter (fun p => decide ((s.pressAt p).cfg.surgeBin = b))).map
      .starvedJudge) ++ [.roomCheckAt b])
  | .highCovered b => millJudgeProbe s b
  | .toppedUp id => shortResume s id
  | .raise e => (s.raise e).done
  | .stopDose sc => endOpenDose s sc .stopped
  | .doseEnded rep consumed => handReport s rep consumed
  | .channelFree sc => presentAgain s sc
  | .sampled sc => judgeSample s sc
  | .grantScan => grantScan s
  | .judgeTransfer slot => judgeTransfer s slot
  | .ownerFlowing o => tellFlowing s o
  | .ownerAborted o => tellAborted s o
  | .ownerNoPermit o => tellNoPermit s o
  | .stopBatches => stopBatches s
  | .stopMill => stopMill s
  | .stopPress p => stopPress s p
  | .stopBagger => stopBagger s
  | .stopLoadout => stopLoadout s
  | .startSelection => startSelection s
  | .takeStep n sc => takeStep s n sc
  | .finishStep n i ending => finishStep s n i ending
  | .tryDischarge => tryDischarge s
  | .roomCheck => roomCheck s
  | .roomCheckAt b => roomCheckAt s b
  | .finishRelease n => finishRelease s n
  | .finishGrind n => finishGrind s n
  | .finishNoFlow n => finishNoFlow s n
  | .serving => serving s
  | .servingOrIdle => servingOrIdle s
  | .millRun => enterRunning s
  | .millWatch => millWatch s
  | .pressChange p => pressChange s p
  | .pressEnter p outgoing => pressEnter s p outgoing
  | .delayExpired p => delayExpiry s p
  | .pressWatch p => pressWatch s p
  | .starvedJudge p => starvedJudge s p
  | .finishChoke p current => (finishChoke s p current).done
  | .finishStarved p run => (finishStarved s p run).done
  | .finishPressStop p => (finishPressStop s p).done
  | .carryForward p b removed consumed boundaries => carryForward s p b removed consumed boundaries
  | .slotTrigger p => (triggerIf s p (·.source.isSome)).done
  | .enterWaitBag => enterWaitBag s
  | .tryBegin => tryBegin s
  | .finishBagRun run cause => finishBagRun s run cause
  | .becomeHead => becomeHead s
  | .bagStart => (commandStart s).1
  | .finishLoad rep consumed => finishLoad s rep consumed
  | .chooseLine => chooseLine s
  | .judgeLoaded => judgeLoaded s
  | .postBag order line => postBag s order line
  | .releaseBatch => releaseOldest s
  | .listenSource p e => (triggerIf s p (fun t => decide (t.source = some e.source))).done
  | .listenSurgeLow p e =>
    if lowBin e = some (s.pressAt p).cfg.surgeBin then (triggerIf s p (·.surgeLow)).done else s.done
  | .listenBagStop run e =>
    if s.headRun.map (·.number) = some run then takeStop s (.source e.source) else s.done
  | .listenBagStart run e =>
    if s.headRun.map (·.number) = some run then takeStart s (.source e.source) else s.done
  | .listenGrind e =>
    match lowBin e with
    | some b => autoGrind s b
    | none => s.done
  | .listenBatch e =>
    match filledId e with
    | some id => if waitingClaim s id then startSelection s else s.done
    | none => s.done
  | .listenShort e =>
    match filledId e with
    | some id => shortResume s id
    | none => s.done
  | .slotOrNotice e => slotOrNotice s e
  | .slotCount k => (slotCount s k).done

/-- Runs tasks in order, each with everything that follows from it before the next. `none` when more than `fuel` tasks
would be run (notes/assumptions/2.md). -/
def runTasks : Nat → List Task → State → Option State
  | _, [], s => some s
  | 0, _ :: _, _ => none
  | fuel + 1, t :: ts, s => runTasks fuel ((handle t s).2 ++ ts) (handle t s).1

/-- The end of a command: everything that follows is worked out. -/
def settle (r : Result) : Option State := runTasks Config.cascadeBound r.2 r.1

/-- The outcome of an event command: the state it leaves, or the fault of a cascade that does not end in the bound. -/
def outcome (r : Result) : Host.Outcome State Fault Refusal :=
  match settle r with
  | some s => .next s
  | none => .fault .cascadeUnfinished

/-! ### Requests -/

/-- A block's judgement of a request (R3, R210): a refusal with its code and index, or the state and tasks of its execution
and the reply's items, built from the state the execution leaves (R214). -/
inductive Verdict where
  | refuse (code : ReplyCode) (index : Nat)
  | accept (r : Result) (items : State → List Item)

/-- The verdict when every check before it passes; the first check that fails refuses with its code (R210). -/
def checked : List (Bool × ReplyCode) → Verdict → Verdict
  | [], v => v
  | (ok, code) :: rest, v => if ok then checked rest v else .refuse code 0

/-- An execution with nothing further to follow. -/
def plain (s : State) (items : List Item) : Verdict := .accept s.done (fun _ => items)

/-- Whether it is a request's turn: the frame at the head of the receive queue carries it, so that no request runs past an older
frame (R214). DESIGN CHOICE: a request given while no frame waits is one received and taken at once
(notes/assumptions/4.md). -/
def State.turnOf (s : State) (c : Instr) : Bool :=
  match s.link.rxQueue with
  | f :: _ => decide (requestOf f = some c)
  | [] => true

/-- The frame at the head of the receive queue leaves it when it is taken (R214). -/
def dropFrame (s : State) : State := s.setLink { s.link with rxQueue := s.link.rxQueue.tail }

/-- A reply joins the tail of the reply queue (R214). -/
def answer (s : State) (r : Reply) : State := s.setLink { s.link with replies := s.link.replies ++ [r] }

/-- The kind and the tag that a request's frame carries. -/
def requestHead (c : Instr) : Byte × Byte :=
  match requestItems c with
  | some (kind, tag, _) => (kind, tag)
  | none => (0, 0)

/-- The reply to a request: its kind + 0x80 and its tag (R206, R214). -/
def replyTo (c : Instr) (code : ReplyCode) (index : Nat) (items : List Item) : Reply :=
  ⟨(requestHead c).1 + 128, (requestHead c).2, code, index, items⟩

/-- Whether the reply queue has room, so that a request is taken (R214). -/
def State.replyRoom (s : State) : Bool := decide (s.link.replies.length < Config.linkCap)

/-- Whether a request is taken: the reply queue has room and it is the request's turn (R214). -/
def State.takes (s : State) (c : Instr) : Bool := s.replyRoom && s.turnOf c

/-- A request that is taken is judged, executed whole, and answered from the state its execution leaves; while the reply queue is
full, or another frame is at the head of the receive queue, it is not taken and nothing changes (R214). -/
def serve (c : Instr) (judge : State → Verdict) (s : State) : Host.Outcome State Fault Refusal :=
  if s.takes c then
    match judge (dropFrame s) with
    | .refuse code index => .next (answer (dropFrame s) (replyTo c code index []))
    | .accept r items =>
      match settle r with
      | some u => .next (answer u (replyTo c .ok 0 (items u)))
      | none => .fault .cascadeUnfinished
  else .next s

end Sys2Proof.Machine
end

