-- ==== Sys2Proof/Machine/WeighCommands.lean ====
section
/-! DEFINITION. Meanings of the Weigh Unit's requests (R14 to R18, R31) and events (R6, R21 to R25). -/

namespace Sys2Proof.Machine

/-! ### Reply items -/

/-- Items that may be absent: a presence byte, and zeros of the same sizes when absent (R207). -/
def maybe (present : Bool) (items : List Item) (blank : List Item) : List Item :=
  if present then Item.u8 1 :: items else Item.u8 0 :: blank

/-- A signed mass that may be absent. -/
def maybeMass (v : Option Int) : List Item := maybe v.isSome [Item.i32 (v.getD 0)] [Item.i32 0]

/-- A lot tally: its pairs of tag and mass in grams, and the "more lots" flag (R51). -/
def tallyItems (t : Tally) : List Item :=
  listItems t.pairs (fun e => [Item.u16 e.1, Item.u32 e.2]) ++ [Item.u8 (flagCode t.more)]

/-- A requester with its record and step, bag or line. DESIGN CHOICE: one byte for the requester, four for the record and two
for the rest (notes/assumptions/6.md). -/
def requesterItems : Requester → List Item
  | .batchMain n i => [Item.u8 0, Item.u32 n, Item.u16 i]
  | .batchMicro n i => [Item.u8 1, Item.u32 n, Item.u16 i]
  | .bagger n i => [Item.u8 2, Item.u32 n, Item.u16 i]
  | .loadout n i => [Item.u8 3, Item.u32 n, Item.u16 i]

/-- The open dose as CHANNEL_READ shows it (R15). DESIGN CHOICE: the tare is shown in grams, the net alone rounded to d
(notes/assumptions/64.md). -/
def doseItems (c : Channel) : List Item :=
  match c.dose with
  | none => Item.u8 0 :: [Item.u8 0, Item.u32 0, Item.u16 0, Item.u8 0, Item.u8 0, Item.u32 0] ++ maybeMass none ++ [Item.i32 0, Item.u8 0]
  | some d =>
    Item.u8 1 :: requesterItems d.order.requester ++
      [Item.u8 (d.order.bin.getD 0), Item.u8 (doseStateCode d.state), Item.u32 d.order.target] ++ maybeMass d.tare ++
      [Item.i32 (roundTo c.cfg.division (netNow c)), Item.u8 d.jogs]

/-- The last dose report (R29). -/
def reportItems (r : Option DoseReport) : List Item :=
  match r with
  | none =>
    Item.u8 0 :: [Item.u8 0, Item.u32 0, Item.u16 0] ++ optItem Item.u8 none ++ [Item.u8 0, Item.u32 0, Item.i32 0, Item.i32 0] ++ maybeMass none ++
      [Item.u32 0, Item.u8 0] ++ optItem Item.u8 none ++ [Item.u32 0]
  | some r =>
    Item.u8 1 :: requesterItems r.requester ++ optItem Item.u8 r.bin ++
      [Item.u8 (doseEndingCode r.ending), Item.u32 r.target, Item.i32 r.actual, Item.i32 (r.actual - r.target)] ++ maybeMass r.tare ++
      [Item.u32 r.inflight, Item.u8 r.jogs] ++ optItem Item.u8 (r.settled.map settledCode) ++ [Item.u32 r.drawn]

/-- The items of CHANNEL_READ (R15). DESIGN CHOICE: the gross and the other masses with a sign are sent in 4 bytes, so that one
outside their range, such as the gross of an OVER_RANGE channel with a high K and a low Z, is sent modulo 2 ^ 32
(notes/assumptions/80.md). -/
def channelReadItems (c : Channel) : List Item :=
  channelItems c.cfg ++
    [Item.u8 (channelStatusCode c.status), Item.u8 c.samples.length, Item.i32 (roundTo c.cfg.division c.gross),
      Item.u8 (firstCode c.stable), Item.i32 ((c.samples.head?.map (·.count)).getD 0)] ++ doseItems c ++ reportItems c.report

/-! ### Requests -/

/-- The runtime in-flight of the bins of a channel is lowered to the new limit (R14). -/
def lowerInflights (s : State) (sc : Scale) (fmax : Nat) : State :=
  s.setInv { s.inv with bins := s.inv.bins.map (fun e =>
    if outletScale e.2.cfg.outlet = some sc ∧ fmax < e.2.inflight then (e.1, { e.2 with inflight := fmax }) else e) }

/-- How many bins that lowers (R14). -/
def loweredCount (s : State) (sc : Scale) (fmax : Nat) : Nat :=
  (s.inv.bins.filter (fun e => decide (outletScale e.2.cfg.outlet = some sc ∧ fmax < e.2.inflight))).length

/-- A channel with a new configuration, its histories emptied (R14). -/
def configureChannel (c : Channel) (cfg : ChannelConfig) : Channel :=
  { c with cfg := cfg, samples := [], filtered := [], gross := 0, stable := false, okGross := 0 }

/-- CHANNEL_SET (R14). The failing field is counted from 1, the channel number first. -/
def execChannelSet (tag : Byte) (channel : Nat) (cfg : ChannelConfig) (s : State) : Host.Outcome State Fault Refusal :=
  serve (.channelSet tag channel cfg) (fun s =>
    match scaleOf channel with
    | none => .refuse .outOfRange 1
    | some sc =>
      let bad := firstFailing (true :: channelChecks sc cfg)
      if bad ≠ 0 then .refuse .outOfRange bad
      else checked [((s.chan sc).dose.isNone, .inUse), (!s.saving, .busy)]
        (plain (lowerInflights (s.setChan sc (configureChannel (s.chan sc) cfg)) sc cfg.fmax)
          [Item.u8 (loweredCount s sc cfg.fmax)])) s

/-- CHANNEL_READ (R15). -/
def execChannelRead (tag : Byte) (channel : Nat) (s : State) : Host.Outcome State Fault Refusal :=
  serve (.channelRead tag channel) (fun s =>
    match scaleOf channel with
    | none => .refuse .outOfRange 0
    | some sc => plain s (channelReadItems (s.chan sc))) s

/-- ZERO (R16). -/
def execZero (tag : Byte) (channel : Nat) (s : State) : Host.Outcome State Fault Refusal :=
  serve (.zero tag channel) (fun s =>
    match scaleOf channel with
    | none => .refuse .outOfRange 0
    | some sc =>
      let c := s.chan sc
      checked [(c.dose.isNone, .inUse), (!s.saving, .busy), (zeroAllowed c, .wrongState)]
        (plain (s.setChan sc (takeZero c)) [Item.i32 (meanCount c)])) s

/-- The new span of CAL_SPAN: W × 65,536 / (c̄ − Z), rounded (R18). -/
def newSpan (c : Channel) (mass : Nat) : Nat := rdivNat (mass * 65536) (meanCount c - c.cfg.zero).toNat

/-- A channel with a new span (R18). -/
def takeSpan (c : Channel) (span : Nat) : Channel :=
  let cfg := { c.cfg with span := span }
  { c with cfg := cfg, samples := c.samples.map (fun e => { e with raw := rawMass cfg e.count }), filtered := [],
           stable := false }

/-- CAL_SPAN (R18). -/
def execCalSpan (tag : Byte) (channel mass : Nat) (s : State) : Host.Outcome State Fault Refusal :=
  serve (.calSpan tag channel mass) (fun s =>
    match scaleOf channel with
    | none => .refuse .outOfRange 0
    | some sc =>
      let c := s.chan sc
      checked [(decide (1 ≤ mass ∧ mass ≤ c.cfg.capacity), .outOfRange), (c.dose.isNone, .inUse), (!s.saving, .busy),
          (decide (c.status ≠ .converterFault) && c.stable, .wrongState),
          (decide (1000 ≤ meanCount c - c.cfg.zero), .outOfRange),
          (decide (1 ≤ newSpan c mass ∧ newSpan c mass ≤ 16777215), .outOfRange)]
        (plain (s.setChan sc (takeSpan c (newSpan c mass))) [Item.u32 (newSpan c mass)])) s

/-- INFLIGHT_SET (R31). -/
def execInflightSet (tag : Byte) (bin value : Nat) (s : State) : Host.Outcome State Fault Refusal :=
  serve (.inflightSet tag bin value) (fun s =>
    if bin = 0 ∨ Config.binCount < bin ∨ max32 < value then .refuse .outOfRange 0
    else
      match s.bin bin with
      | none => .refuse .noSuch 0
      | some v =>
        match outletScale v.cfg.outlet with
        | none => .refuse .wrongState 0
        | some sc =>
          let used := min value (s.chan sc).cfg.fmax
          plain (s.setBin bin { v with inflight := used }) [Item.u32 used, Item.u8 (flagCode (decide (used < value)))]) s

/-! ### Events -/

/-- CHANNEL_SAMPLE (R6). A number that is no channel's names no sample. -/
def execChannelSample (channel : Nat) (count : Int) (valid : Bool) (s : State) : Host.Outcome State Fault Refusal :=
  match scaleOf channel with
  | some sc => outcome (takeSample s sc count valid)
  | none => .next s

/-- TARE_TIMEOUT (R21). -/
def execTareTimeout (channel : Nat) (s : State) : Host.Outcome State Fault Refusal :=
  match scaleOf channel with
  | some sc => outcome (tareExpiry s sc)
  | none => .next s

/-- SETTLE_TIMEOUT (R23). -/
def execSettleTimeout (channel : Nat) (s : State) : Host.Outcome State Fault Refusal :=
  match scaleOf channel with
  | some sc => outcome (settleExpiry s sc)
  | none => .next s

/-- JOG_TIMEOUT (R24). -/
def execJogTimeout (channel : Nat) (s : State) : Host.Outcome State Fault Refusal :=
  match scaleOf channel with
  | some sc => outcome (jogExpiry s sc)
  | none => .next s

/-- HAND_ADD_BUTTON_PRESS (R25). -/
def execHandAddButtonPress (s : State) : Host.Outcome State Fault Refusal :=
  outcome (handReady (s.takeOffered .handAddButton))

end Sys2Proof.Machine
end

