-- ==== Sys2Proof/Machine/BaggerCommands.lean ====
section
/-! DEFINITION. Meanings of the Bagger Controller's requests (R161 to R175) and of its buttons, bag inputs and timers (R164 to
R170). -/

namespace Sys2Proof.Machine

/-- BAGGER_SET (R161). -/
def execBaggerSet (tag : Byte) (checkTime releaseTime : Tenths) (s : State) : Host.Outcome State Fault Refusal :=
  serve (.baggerSet tag checkTime releaseTime) (fun s =>
    checked [(decide (checkTime ≤ 100 ∧ 1 ≤ releaseTime ∧ releaseTime ≤ 600), .outOfRange), (!s.saving, .busy)]
      (plain (s.setBag { s.bag with checkTime := checkTime, releaseTime := releaseTime }) [])) s

/-! ### BAG_QUEUE -/

/-- The ranges of BAG_QUEUE (R160, R162 check 1). -/
def bagInRange (s : State) (f : BagFields) : Bool :=
  decide (1 ≤ f.number ∧ f.number ≤ max16 ∧ 1 ≤ f.bin ∧ f.bin ≤ Config.binCount ∧ 1 ≤ f.target ∧
    f.target ≤ (s.chan .bagger).cfg.capacity ∧ 1 ≤ f.count ∧ f.count ≤ max16 ∧ f.underTol ≤ 100000 ∧
    f.overTol ≤ 100000 ∧ f.tail ≤ 255 ∧ f.target * f.count ≤ max32)

/-- The run that fields in range give, its counters at 0 (R162). -/
def bagRunOf (f : BagFields) (start : StartTrigger) (arming : BagArming) (stop : StopTrigger) (reservation : Nat) :
    BagRun where
  number := f.number
  bin := f.bin
  target := f.target
  count := f.count
  underTol := f.underTol
  overTol := f.overTol
  start := start
  arming := arming
  stop := stop
  tail := f.tail
  reservation := reservation
  accepted := 0
  rejected := 0
  consecutive := 0
  begun := 0
  burst := 0
  stopTaken := false
  tailLeft := f.tail
  onSpout := false
  tally := emptyTally
  state := .armed
  permitLost := false

/-- The claim of a bag run (R162 check 5). -/
def bagClaim (f : BagFields) : Nat × Holder × Nat := (f.bin, .bagRun f.number, f.target * f.count)

/-- The execution of BAG_QUEUE (R162). -/
def acceptBagRun (s : State) (f : BagFields) (start : StartTrigger) (arming : BagArming) (stop : StopTrigger) : Verdict :=
  let made := createOne s f.bin (.bagRun f.number) (f.target * f.count)
  let run := bagRunOf f start arming stop made.2
  let s1 := made.1.setBag { made.1.bag with queue := made.1.bag.queue ++ [run] }
  .accept (s1, if s.bag.queue.isEmpty then [.becomeHead] else [])
    (fun _ => [Item.u16 made.2, Item.u8 (flagCode (!made.1.reservationFull made.2))])

/-- BAG_QUEUE (R162). -/
def execBagQueue (tag : Byte) (run : BagFields) (s : State) : Host.Outcome State Fault Refusal :=
  serve (.bagQueue tag run) (fun s =>
    match startTriggerOf run.startTrigger run.startSource, bagArmingOf run.arming run.burstSize,
        stopTriggerOf run.stopTrigger run.stopSource with
    | some start, some arming, some stop =>
      checked
        [(bagInRange s run, .outOfRange), (s.bag.queue.all (fun r => decide (r.number ≠ run.number)), .inUse),
          (decide (s.bag.queue.length < Config.bagCap), .noRoom), ((s.bin run.bin).isSome, .noSuch),
          (((s.bin run.bin).map (fun v => decide (v.cfg.kind = .finished ∧ v.cfg.outlet = .bagger))).getD false,
            .wrongState)]
        (match claimRefusal s [bagClaim run] with
          | some code => .refuse code 0
          | none => acceptBagRun s run start arming stop)
    | _, _, _ => .refuse .outOfRange 0) s

/-! ### Triggers from the host -/

/-- What a COMMAND start did, in the reply of BAG_RUN_START: STARTED 0, MARKED 1, ALREADY 2 (R165). -/
def startCode : StartOutcome → Nat
  | .started => 0
  | .marked => 1
  | .already => 2
  | .discarded => 3

/-- Whether BAG_RUN_START finds a head run in ARMED or BURST_WAIT of another start class (R165). -/
def startForeign (s : State) : Bool :=
  match s.headRun with
  | some r => decide ((r.state = .armed ∨ r.state = .burstWait) ∧ r.start ≠ .command)
  | none => false

/-- BAG_RUN_START (R165). -/
def execBagRunStart (tag : Byte) (s : State) : Host.Outcome State Fault Refusal :=
  serve (.bagRunStart tag) (fun s =>
    checked [(!s.stopped, .lineStopped), (!startForeign s, .wrongState)]
      (.accept (commandStart s).1 (fun _ => [Item.u8 (startCode (commandStart s).2)]))) s

/-- The head run, or NO_SUCH on an empty queue. -/
def withHead (s : State) (f : BagRun → Verdict) : Verdict :=
  match s.headRun with
  | none => .refuse .noSuch 0
  | some r => f r

/-- The tail remaining of run `r` in the state its stop leaves: that of the head while the run is still head, and its tail count
once it has ended (R170, R214, notes/assumptions/54.md). -/
def tailRemaining (s : State) (r : BagRun) : Nat :=
  match s.headRun with
  | some x => if x.number = r.number then x.tailLeft else r.tail
  | none => r.tail

/-- BAG_RUN_STOP (R170). -/
def execBagRunStop (tag : Byte) (s : State) : Host.Outcome State Fault Refusal :=
  serve (.bagRunStop tag) (fun s =>
    withHead s (fun r =>
      checked [(decide (r.stop = .command ∧ r.stopTaken = false), .wrongState)]
        (.accept (stopRun s r) (fun u => [Item.u8 (tailRemaining u r)])))) s

/-! ### BAGGER_RESUME and BAG_CANCEL -/

/-- Why BAGGER_RESUME is refused by the hold's reason, if it is (R173). -/
def bagResumeRefusal (s : State) (r : BagRun) : Option ReplyCode :=
  match r.state with
  | .held .short .noReservation _ => (adjustReservation s r).refusal
  | .held .short .stock _ => if stockCheck s r then none else some .short
  | .held .scale _ _ => if (s.chan .bagger).status = .ok then none else some .wrongState
  | .held _ _ _ => none
  | _ => some .wrongState

/-- A held run as its resume finds it: REJECTS clears its consecutive rejects (R173). -/
def resumedRun (r : BagRun) : BagRun :=
  match r.state with
  | .held .rejects _ _ => { r with consecutive := 0 }
  | _ => r

/-- The execution of BAGGER_RESUME (R173): a bag on the spout is turned aside; otherwise the reservation is adjusted and the
run returns to its held phase. -/
def resumeBag (s : State) (r : BagRun) : Result :=
  let r := resumedRun r
  if r.onSpout then ((enterReleasing s r).ask .baggerReject true).done
  else continueRun s r

/-- BAGGER_RESUME (R173). -/
def execBaggerResume (tag : Byte) (s : State) : Host.Outcome State Fault Refusal :=
  serve (.baggerResume tag) (fun s =>
    checked [(!s.stopped, .lineStopped)]
      (withHead s (fun r =>
        match bagResumeRefusal s r with
        | some code => .refuse code 0
        | none => .accept (resumeBag s r) (fun _ => [])))) s

/-- A run leaves the queue with no report and no event, its reservation closed (R174). -/
def dropBagRun (s : State) (r : BagRun) (head : Bool) : Result :=
  let s1 := s.setBag { s.bag with queue := s.bag.queue.filter (fun x => decide (x.number ≠ r.number)) }
  let closed := closeClaim s1 (.bagRun r.number) r.reservation
  (closed.1, closed.2 ++ (if head then [.becomeHead] else []))

/-- The judgement of BAG_CANCEL for the head run, by its state (R174). -/
def cancelHead (s : State) (r : BagRun) : Verdict :=
  let reply : State → List Item := fun _ => [Item.u16 r.accepted]
  match r.state with
  | .armed => .accept (dropBagRun s r true) reply
  | .waitBag | .burstWait => .accept (endBagRun s r .cancelled) reply
  | .held _ _ _ => if r.onSpout then .refuse .wrongState 0 else .accept (endBagRun s r .cancelled) reply
  | _ => .refuse .wrongState 0

/-- BAG_CANCEL (R174). -/
def execBagCancel (tag : Byte) (number : Nat) (s : State) : Host.Outcome State Fault Refusal :=
  serve (.bagCancel tag number) (fun s =>
    match s.bag.queue.find? (fun r => decide (r.number = number)) with
    | none => .refuse .noSuch 0
    | some r =>
      if s.headRun.map (·.number) = some number then cancelHead s r
      else .accept (dropBagRun s r false) (fun _ => [Item.u16 r.accepted])) s

/-! ### BAGGER_READ (R175) -/

/-- The hold of a bag run's state, absent while it is not HELD. -/
def BagState.hold : BagState → Option (BagReason × BagCause × BagPhase)
  | .held reason cause phase => some (reason, cause, phase)
  | _ => none

/-- The hold reason, cause and held phase of a state that may be absent, each of which may be absent (R163, R207). -/
def bagHoldItems (v : Option BagState) : List Item :=
  let hold := v.bind BagState.hold
  optItem Item.u8 (hold.map (fun h => bagReasonCode h.1)) ++ optItem Item.u8 (hold.map (fun h => bagCauseCode h.2.1)) ++
    optItem Item.u8 (hold.map (fun h => bagPhaseCode h.2.2))

/-- The state of the bagger: that of its head run, IDLE without one (R163). -/
def State.bagState (s : State) : Option BagState := s.headRun.map (·.state)

/-- The bagger's state with reason, cause and held phase while HELD (R163). -/
def bagStateItems (s : State) : List Item := Item.u8 ((s.bagState.map bagStateCode).getD 0) :: bagHoldItems s.bagState

/-- The kind of the bagger's timer, check 0 or release 1, and its remaining time. -/
def BagTimer.code : BagTimer → Nat × Tenths
  | .check left => (0, left)
  | .release left => (1, left)

/-- A bag run as the fields of R160, number to tail count. -/
def bagFieldsOf (r : BagRun) : BagFields where
  number := r.number
  bin := r.bin
  target := r.target
  count := r.count
  underTol := r.underTol
  overTol := r.overTol
  startTrigger := (startTriggerCode r.start).1
  startSource := (startTriggerCode r.start).2
  arming := (bagArmingCode r.arming).1
  burstSize := (bagArmingCode r.arming).2
  stopTrigger := (stopTriggerCode r.stop).1
  stopSource := (stopTriggerCode r.stop).2
  tail := r.tail

/-- A run of the queue with every field of R160. A run that is not the head has no state of its own, so that its state is
absent. -/
def bagRunItems (s : State) (r : BagRun) : List Item :=
  let state : Option BagState := if s.headRun.map (·.number) = some r.number then some r.state else none
  bagItems (bagFieldsOf r) ++
    [Item.u16 r.reservation, Item.u16 r.accepted, Item.u16 r.rejected, Item.u16 r.consecutive, Item.u16 r.begun,
      Item.u8 r.burst, Item.u8 (flagCode r.stopTaken), Item.u8 r.tailLeft, Item.u8 (flagCode r.onSpout)] ++
    tallyItems r.tally ++ optItem Item.u8 (state.map bagStateCode) ++ bagHoldItems state

/-- The wanted and the held mass of a holder's reservation, each absent when it is not live (R207). -/
def claimItems (claim : Option Reservation) : List Item :=
  optItem Item.u32 (claim.map (·.wanted)) ++ optItem Item.u32 (claim.map (·.held))

/-- The last bag run report, or absent (R171). -/
def bagReportItems : Option BagReport → List Item
  | none => [Item.u8 0, Item.u16 0, Item.u8 0, Item.u16 0, Item.u16 0, Item.u16 0] ++ tallyItems emptyTally
  | some r =>
    [Item.u8 1, Item.u16 r.number, Item.u8 (bagEndCode r.cause), Item.u16 r.accepted, Item.u16 r.rejected,
      Item.u16 r.begun] ++ tallyItems r.tally

/-- The items of BAGGER_READ (R175). -/
def baggerReadItems (s : State) : List Item :=
  bagStateItems s ++
    [Item.u8 (firstCode s.bag.startMark), Item.u8 (firstCode (s.asked .baggerClamp)),
      Item.u8 (firstCode (s.asked .baggerReject))] ++
    timerItems (s.bag.timer.map BagTimer.code) ++ doseItems (s.chan .bagger) ++ [Item.u8 s.bag.checkTime, Item.u16 s.bag.releaseTime] ++
    listItems s.bag.queue (bagRunItems s) ++
    claimItems (s.headRun.bind (fun r => s.claim (.bagRun r.number) r.reservation)) ++ bagReportItems s.bag.report

/-- BAGGER_READ (R175). -/
def execBaggerRead (tag : Byte) (s : State) : Host.Outcome State Fault Refusal :=
  serve (.baggerRead tag) (fun s => plain s (baggerReadItems s)) s

/-! ### Events -/

/-- BAGGER_START_PRESS (R164). -/
def execBaggerStartPress (s : State) : Host.Outcome State Fault Refusal :=
  outcome (takeStart (s.takeOffered .baggerStart) .button)

/-- BAGGER_STOP_PRESS (R170). -/
def execBaggerStopPress (s : State) : Host.Outcome State Fault Refusal :=
  outcome (takeStop (s.takeOffered .baggerStop) .button)

/-- BAG_PRESENT_PRESS (R166). -/
def execBagPresentPress (s : State) : Host.Outcome State Fault Refusal :=
  outcome (bagArrives (s.takeOffered .bagPresent))

/-- BAG_GONE_PRESS (R169). -/
def execBagGonePress (s : State) : Host.Outcome State Fault Refusal := outcome (bagGone (s.takeOffered .bagGone))

/-- CHECK_TIMEOUT (R168). -/
def execCheckTimeout (s : State) : Host.Outcome State Fault Refusal := outcome (checkExpiry s)

/-- The release timer expires (R169). -/
def bagReleaseExpiry (s : State) : Result :=
  match s.bag.timer with
  | some (.release _) => bagGone s
  | _ => s.done

/-- BAG_RELEASE_TIMEOUT (R169). -/
def execBagReleaseTimeout (s : State) : Host.Outcome State Fault Refusal := outcome (bagReleaseExpiry s)

end Sys2Proof.Machine
end

