-- ==== Sys2Proof/Machine/BatchCommands.lean ====
section
/-! DEFINITION. Meanings of the Batch Line's requests (R88 to R114) and of its timers and the mixer's empty input (R105 to
R108). -/

namespace Sys2Proof.Machine

/-! ### Formulas -/

/-- Whether a number is a formula's (R86). -/
def formulaNumber (n : Nat) : Bool := decide (1 ≤ n ∧ n ≤ Config.formulaCount)

/-- Whether a live batch names a formula (R86). -/
def formulaInUse (s : State) (n : Nat) : Bool := s.line.batches.any (fun b => decide (b.formula = n))

/-- The formula table with an entry in a new form; EMPTY removes it (R86). -/
def putFormula (s : State) (n : Nat) (f : Option Formula) : State :=
  s.setLine { s.line with
    formulas := match f with
      | some f => Table.set s.line.formulas n f
      | none => Table.del s.line.formulas n }

/-- Whether a formula is OPEN (R86). -/
def formulaOpened (s : State) (n : Nat) : Bool :=
  match Table.get s.line.formulas n with
  | some f => !f.closed
  | none => false

/-- FORMULA_OPEN (R88). -/
def execFormulaOpen (tag : Byte) (formula product mixTime : Nat) (s : State) : Host.Outcome State Fault Refusal :=
  serve (.formulaOpen tag formula product mixTime) (fun s =>
    checked [(formulaNumber formula && decide (1 ≤ product ∧ product ≤ max16 ∧ mixTime ≤ 6000), .outOfRange),
        (!s.saving, .busy), (!formulaInUse s formula, .inUse)]
      (plain (putFormula s formula (some ⟨false, product, mixTime, []⟩)) [])) s

/-- The formula step that fields in range give (R87). -/
def formulaStepOf (f : StepFields) : Option FormulaStep :=
  match (if f.channel = 0 then some Scale.main else if f.channel = 1 then some .micro else none), flagOf f.mark with
  | some sc, some hand =>
    if f.bin ≤ Config.binCount ∧ 1 ≤ f.amount ∧ f.amount ≤ 1000000 ∧ f.tolerance ≤ 100 ∧ f.pattern < 16 then
      some ⟨sc, f.bin, f.amount, f.tolerance, hand, auxOf f.pattern⟩
    else none
  | _, _ => none

/-- FORMULA_STEP (R89). -/
def execFormulaStep (tag : Byte) (formula : Nat) (fields : StepFields) (s : State) : Host.Outcome State Fault Refusal :=
  serve (.formulaStep tag formula fields) (fun s =>
    match formulaStepOf fields with
    | none => .refuse .outOfRange 0
    | some step =>
      match Table.get s.line.formulas formula with
      | none => checked [(formulaNumber formula, .outOfRange), (!s.saving, .busy)] (.refuse .wrongState 0)
      | some f =>
        checked [(formulaNumber formula, .outOfRange), (!s.saving, .busy), (!f.closed, .wrongState),
            (decide (f.steps.length < Config.stepCap), .noRoom)]
          (plain (putFormula s formula (some { f with steps := f.steps ++ [step] })) [Item.u8 (f.steps.length + 1)])) s

/-- Why a step fails the examination of a close, if it does (R90). -/
def stepFailure (s : State) (e : FormulaStep) : Option ReplyCode :=
  if e.hand then (if e.bin ≠ 0 ∨ e.scale ≠ .micro then some .outOfRange else none)
  else if e.bin = 0 then some .outOfRange
  else
    match s.bin e.bin with
    | none => some .noSuch
    | some v => if outletScale v.cfg.outlet = some e.scale then none else some .wrongState

/-- The first entry of a list that fails, with its index from 1 and why. -/
def firstFailure {α : Type} (why : α → Option ReplyCode) : Nat → List α → Option (Nat × ReplyCode)
  | _, [] => none
  | i, e :: rest =>
    match why e with
    | some code => some (i, code)
    | none => firstFailure why (i + 1) rest

/-- FORMULA_CLOSE (R90). -/
def execFormulaClose (tag : Byte) (formula : Nat) (s : State) : Host.Outcome State Fault Refusal :=
  serve (.formulaClose tag formula) (fun s =>
    match Table.get s.line.formulas formula with
    | none => checked [(formulaNumber formula, .outOfRange), (!s.saving, .busy)] (.refuse .wrongState 0)
    | some f =>
      checked [(formulaNumber formula, .outOfRange), (!s.saving, .busy), (!f.closed, .wrongState)]
        (if f.steps.isEmpty then plain (putFormula s formula none) [Item.u8 0]
        else
          match firstFailure (stepFailure s) 1 f.steps with
          | some (i, code) => .refuse code i
          | none => plain (putFormula s formula (some { f with closed := true })) [Item.u8 f.steps.length])) s

/-- A formula step as the fields of R87. -/
def stepFieldsOf (e : FormulaStep) : StepFields where
  channel := scaleCode e.scale
  bin := e.bin
  amount := e.amount
  tolerance := e.tolerance
  mark := flagCode e.hand
  pattern := auxCode e.aux

/-- FORMULA_READ (R91): EMPTY 0, OPEN 1, CLOSED 2. DESIGN CHOICE: the step count of the header (R86) is sent once, as the count
byte that R207 puts before the step list (notes/assumptions/6.md). -/
def execFormulaRead (tag : Byte) (formula : Nat) (s : State) : Host.Outcome State Fault Refusal :=
  serve (.formulaRead tag formula) (fun s =>
    checked [(formulaNumber formula, .outOfRange)]
      (plain s (match Table.get s.line.formulas formula with
        | none => [Item.u8 0]
        | some f =>
          [Item.u8 (if f.closed then 2 else 1), Item.u16 f.product, Item.u16 f.mixTime] ++
            listItems f.steps (fun e => stepItems (stepFieldsOf e)) ++
            [Item.u8 (s.line.batches.filter (fun b => decide (b.formula = formula))).length]))) s

/-- BATCHLINE_SET (R92). -/
def execBatchlineSet (tag : Byte) (discharge release releaseTimeout : Tenths) (s : State) :
    Host.Outcome State Fault Refusal :=
  serve (.batchlineSet tag discharge release releaseTimeout) (fun s =>
    let ok (t : Nat) : Bool := decide (1 ≤ t ∧ t ≤ 6000)
    checked [(ok discharge && ok release && ok releaseTimeout, .outOfRange), (!s.saving, .busy)]
      (plain (s.setLine { s.line with times := ⟨discharge, release, releaseTimeout⟩ }) [])) s

/-! ### BATCH_QUEUE (R94) -/

/-- A step's target: a × B / 1,000,000, rounded (R94). -/
def stepTarget (size : Nat) (e : FormulaStep) : Nat := rdivNat (e.amount * size) 1000000

/-- A step's tolerance in grams (R94). -/
def stepTolerance (size : Nat) (e : FormulaStep) : Nat := rdivNat (stepTarget size e * e.tolerance) 1000

/-- Why a step's bin fails, if it does (R94 check 6). -/
def stepBinFailure (s : State) (e : FormulaStep) : Option ReplyCode :=
  if e.hand then none
  else
    match s.bin e.bin with
    | none => some .noSuch
    | some v => if outletScale v.cfg.outlet = some e.scale then none else some .wrongState

/-- The first step whose target is below 20 d of its channel (R94 check 7). -/
def smallStep (s : State) (size : Nat) (l : List FormulaStep) : Option (Nat × ReplyCode) :=
  firstFailure (fun e => if stepTarget size e < 20 * (s.chan e.scale).cfg.division then some .outOfRange else none) 1 l

/-- The first step, in list order, at which its channel's running sum of targets exceeds the capacity (R94 check 8). -/
def fullStep (s : State) (size : Nat) : Nat → Nat → Nat → List FormulaStep → Option (Nat × ReplyCode)
  | _, _, _, [] => none
  | i, main, micro, e :: rest =>
    let onMain := decide (e.scale = .main)
    let main1 := if onMain then main + stepTarget size e else main
    let micro1 := if onMain then micro else micro + stepTarget size e
    if (s.chan e.scale).cfg.capacity < (if onMain then main1 else micro1) then some (i, .outOfRange)
    else fullStep s size (i + 1) main1 micro1 rest

/-- The claims of a batch: one per bin step, in step order (R94 check 9). -/
def batchClaims (number size : Nat) : Nat → List FormulaStep → List (Nat × Holder × Nat)
  | _, [] => []
  | i, e :: rest =>
    if e.hand then batchClaims number size (i + 1) rest
    else (e.bin, .batchStep number i, stepTarget size e) :: batchClaims number size (i + 1) rest

/-- The step entries of a new batch; the ids go to the bin steps in order (R94). -/
def newSteps (size : Nat) : List FormulaStep → List Nat → List StepEntry
  | [], _ => []
  | e :: rest, ids =>
    let res : Option Nat := if e.hand then none else ids.head?
    ⟨e, stepTarget size e, stepTolerance size e, 0, .pending, 0, res, false⟩ ::
      newSteps size rest (if e.hand then ids else ids.tail)

/-- A new batch (R93, R94). -/
def newBatch (number formula size lotTag destination : Nat) (wait : Bool) (f : Formula) (ids : List Nat) : Batch where
  number := number
  formula := formula
  product := f.product
  mixTime := f.mixTime
  size := size
  lotTag := lotTag
  destination := destination
  releaseWait := wait
  state := .queued
  abandoned := false
  called := false
  mainBegun := false
  microBegun := false
  steps := newSteps size f.steps ids
  total := 0
  mixLeft := 0
  mainDischarged := false
  microDischarged := false
  timer := none
  waitCause := none

/-- Why a destination is refused, if it is (R94 check 5). -/
def destinationFailure (s : State) (product destination : Nat) : Option ReplyCode :=
  match s.bin destination with
  | none => some .noSuch
  | some v =>
    if v.cfg.kind ≠ .surge ∧ v.cfg.kind ≠ .rework ∧ v.cfg.kind ≠ .finished then some .wrongState
    else if v.cfg.kind = .finished ∧ v.cfg.code ≠ product then some .inUse
    else none

/-- The reply's items of BATCH_QUEUE: each step's target and reservation, and how many were created short (R94). -/
def queueItems (b : Batch) (short : Nat) : List Item :=
  listItems b.steps (fun e => Item.u32 e.target :: optItem Item.u16 e.reservation) ++ [Item.u8 short]

/-- The execution of BATCH_QUEUE after its checks (R94). -/
def acceptBatch (s : State) (number formula size lotTag destination : Nat) (wait : Bool) (f : Formula) : Verdict :=
  let made := createAll s (batchClaims number size 1 f.steps)
  let b := newBatch number formula size lotTag destination wait f made.2
  let s1 := made.1.setLine { made.1.line with batches := made.1.line.batches ++ [b] }
  .accept (s1, [.startSelection]) (fun _ => queueItems b (s1.shortCount b))

/-- BATCH_QUEUE (R94). -/
def execBatchQueue (tag : Byte) (number formula size lotTag destination waitFlag : Nat) (s : State) :
    Host.Outcome State Fault Refusal :=
  serve (.batchQueue tag number formula size lotTag destination waitFlag) (fun s =>
    match flagOf waitFlag with
    | none => .refuse .outOfRange 0
    | some wait =>
      checked
        [(decide (1 ≤ number ∧ number ≤ max16 ∧ 100000 ≤ size ∧ size ≤ 4000000 ∧ lotTag ≤ max16 ∧ 1 ≤ destination ∧
            destination ≤ Config.binCount) && formulaNumber formula, .outOfRange),
          ((s.batch number).isNone, .inUse), (decide (s.line.batches.length < Config.batchCap), .noRoom)]
        (match Table.get s.line.formulas formula with
          | none => .refuse .noSuch 0
          | some f =>
            if !f.closed then .refuse .wrongState 0
            else
              match destinationFailure s f.product destination with
              | some code => .refuse code 0
              | none =>
                match (firstFailure (stepBinFailure s) 1 f.steps).or
                    ((smallStep s size f.steps).or (fullStep s size 1 0 0 f.steps)) with
                | some (i, code) => .refuse code i
                | none =>
                  match claimRefusal s (batchClaims number size 1 f.steps) with
                  | some code => .refuse code 0
                  | none => acceptBatch s number formula size lotTag destination wait f)) s

/-! ### Requests on a live batch -/

/-- A live batch named by a request, or NO_SUCH. -/
def withBatch (s : State) (n : Nat) (f : Batch → Verdict) : Verdict :=
  match s.batch n with
  | none => .refuse .noSuch 0
  | some b => f b

/-- BATCH_RELEASE (R95). -/
def execBatchRelease (tag : Byte) (number : Nat) (s : State) : Host.Outcome State Fault Refusal :=
  serve (.batchRelease tag number) (fun s =>
    checked [(decide (1 ≤ number ∧ number ≤ max16), .outOfRange)]
      (withBatch s number (fun b =>
        checked [(b.releaseWait, .wrongState)]
          (.accept (s.putBatch { b with releaseWait := false }, [.startSelection]) (fun _ => []))))) s

/-- Whether MICRO's open dose is a hand-add of batch `n` in HAND_WAIT (R102). -/
def handWaits (s : State) (n : Nat) : Bool :=
  s.batchDoseOn n .micro &&
    (match (s.chan .micro).dose with
      | some d => decide (d.state = .handWait)
      | none => false)

/-- HAND_DONE (R102, R25). -/
def execHandDone (tag : Byte) (number : Nat) (s : State) : Host.Outcome State Fault Refusal :=
  serve (.handDone tag number) (fun s =>
    withBatch s number (fun _ =>
      checked [(handWaits s number, .wrongState)] (.accept (handReady s) (fun _ => [])))) s

/-- The actions of STEP_RESUME (R104). -/
inductive StepAction where
  | retry | accept | skip
  deriving DecidableEq, Repr

/-- The action a code names (R104). -/
def stepActionOf : Nat → Option StepAction
  | 0 => some .retry
  | 1 => some .accept
  | 2 => some .skip
  | _ => none

/-- A held step resolved by an action, with its batch's total (R104). -/
def resolveStep (b : Batch) (i : Nat) (e : StepEntry) (action : StepAction) : Batch :=
  match action with
  | .retry => b.putStep i { e with status := .pending, retried := true }
  | .accept => { (b.putStep i { e with status := .done }) with total := b.total + e.actual }
  | .skip => { (b.putStep i { e with status := .skipped }) with total := b.total + e.actual }

/-- The execution of STEP_RESUME (R104): the reservation of an accepted or skipped step is closed, and the batch may leave
HELD. -/
def resumeStep (s : State) (b : Batch) (i : Nat) (e : StepEntry) (action : StepAction) : Result :=
  let s1 := s.putBatch (resolveStep b i e action)
  (if action = .retry then s1.done else closeHeld s1 (.batchStep b.number i) e.reservation).andThen (fun t => leaveStepHold t b.number)

/-- STEP_RESUME (R104). -/
def execStepResume (tag : Byte) (number step action : Nat) (s : State) : Host.Outcome State Fault Refusal :=
  serve (.stepResume tag number step action) (fun s =>
    match stepActionOf action with
    | none => .refuse .outOfRange 0
    | some act =>
      checked [(decide (1 ≤ step ∧ step ≤ Config.stepCap), .outOfRange)]
        (withBatch s number (fun b =>
          match b.steps[step - 1]? with
          | none => .refuse .outOfRange 0
          | some e =>
            checked [(!s.stopped, .lineStopped), (e.isHeld, .wrongState),
                (decide (e.status ≠ .held .overWeight ∨ act = .accept), .wrongState),
                (decide (act ≠ .retry ∨ 1 ≤ e.target - e.actual), .wrongState)]
              (.accept (resumeStep s b step e act) (fun _ => []))))) s

/-- A batch in the mixer goes on by its held phase (R111, R113): DISCHARGING opens the gates left open and starts its timer
afresh, MIXING goes on from the remaining time, and MIXED and RELEASING make the room check. -/
def resumeMixer (s : State) (b : Batch) (phase : BatchPhase) : Result :=
  let s1 := s.ask .mixerMotor true
  match phase with
  | .discharging =>
    let b := { b with state := .discharging, timer := some (.discharge s.line.times.discharge) }
    (askGates (s1.putBatch b) b true).done
  | .mixing => enterMixing s1 b b.mixLeft
  | _ => enterMixed s1 b

/-- BATCH_RESUME (R111). -/
def execBatchResume (tag : Byte) (number : Nat) (s : State) : Host.Outcome State Fault Refusal :=
  serve (.batchResume tag number) (fun s =>
    withBatch s number (fun b =>
      match b.state with
      | .held .dosing _ => checked [(!s.stopped, .lineStopped)] (.refuse .wrongState 0)
      | .held phase _ =>
        checked [(!s.stopped, .lineStopped), (!b.steps.any StepEntry.isHeld, .wrongState)]
          (.accept (resumeMixer s b phase) (fun _ => []))
      | _ => checked [(!s.stopped, .lineStopped)] (.refuse .wrongState 0))) s

/-- BATCH_CANCEL (R112). -/
def execBatchCancel (tag : Byte) (number : Nat) (s : State) : Host.Outcome State Fault Refusal :=
  serve (.batchCancel tag number) (fun s =>
    withBatch s number (fun b =>
      checked [(decide (b.state = .queued ∨ b.state = .waitStock), .wrongState)]
        (let closed := closeAll s b.claims
        .accept (closed.1.dropBatch number, closed.2) (fun _ => [])))) s

/-- An abandoned batch: its open steps SKIPPED with their actuals, bound for rework (R113). -/
def abandoned (b : Batch) (rework : Nat) : Batch :=
  let opened (e : StepEntry) : Bool := decide (e.status ≠ .done ∧ e.status ≠ .skipped)
  { b with
    abandoned := true
    destination := rework
    total := b.total + ((b.steps.filter opened).map (·.actual)).sum
    steps := b.steps.map (fun e => if opened e then { e with status := .skipped } else e) }

/-- The transfers of a batch's DOSING steps are ended (R113). -/
def endStepTransfers (s : State) (b : Batch) : Result :=
  [Scale.main, .micro].foldl (fun r sc =>
    match b.dosingStep sc with
    | some (_, e) => (r.andThen (fun t => endTransfer t (stepOwner sc))).andThen
        (fun t => (t.askAll (stepGates e.source) false).done)
    | none => r) s.done

/-- An abandoned batch goes on by its state or held phase (R113). A release transfer that was requested for the old
destination is ended first. -/
def goOnAbandoned (s : State) (b : Batch) : Result :=
  match b.state with
  | .held .dosing _ => (s.putBatch { b with state := .weighed }, [.tryDischarge])
  | .held phase _ => resumeMixer s b phase
  | _ =>
    let ended := endTransfer s .batchRelease
    let r := resumeMixer ended.1 b .mixed
    (r.1, ended.2 ++ r.2)

/-- The execution of BATCH_ABANDON (R113). -/
def abandonBatch (s : State) (b : Batch) (rework : Nat) : Result :=
  ((endStepTransfers s b).andThen (fun t => closeAll (t.putBatch (abandoned b rework)) b.claims)).andThen
    (fun t => goOnAbandoned t (abandoned b rework))

/-- BATCH_ABANDON (R113). -/
def execBatchAbandon (tag : Byte) (number : Nat) (s : State) : Host.Outcome State Fault Refusal :=
  serve (.batchAbandon tag number) (fun s =>
    withBatch s number (fun b =>
      let heldOrMixed : Bool := match b.state with
        | .held _ _ | .mixed => true
        | _ => false
      checked [(!s.stopped, .lineStopped), (heldOrMixed, .wrongState), (!s.batchDoseOpen number, .wrongState)]
        (match s.reworkBin with
          | none => .refuse .noSuch 0
          | some rework => .accept (abandonBatch s b rework) (fun _ => [Item.u32 (abandoned b rework).total])))) s

/-! ### BATCH_READ (R114) -/

/-- The held phase and the hold reason of a batch, absent while it is not HELD (R93). -/
def Batch.hold (b : Batch) : Option (BatchPhase × BatchReason) :=
  match b.state with
  | .held phase reason => some (phase, reason)
  | _ => none

/-- The held phase of a batch, which may be absent (R93). -/
def heldPhaseItems (b : Batch) : List Item := optItem Item.u8 (b.hold.map (fun h => batchPhaseCode h.1))

/-- The held phase and the hold reason of a batch, each of which may be absent (R93). -/
def heldItems (b : Batch) : List Item :=
  heldPhaseItems b ++ optItem Item.u8 (b.hold.map (fun h => batchReasonCode h.2))

/-- Whether a batch is in a phase or is held from it. -/
def Batch.inPhase (b : Batch) (phase : BatchPhase) : Bool :=
  match b.state, phase with
  | .discharging, .discharging | .mixing, .mixing => true
  | .held p _, _ => decide (p = phase)
  | _, _ => false

/-- The remaining time of the timer a batch runs (R114). -/
def timerLeft (b : Batch) : Option Tenths :=
  match b.timer with
  | some (.discharge left) | some (.mix left) | some (.release left _) => some left
  | none => none

/-- A step entry (R93, R114). -/
def stepEntryItems (e : StepEntry) : List Item :=
  [Item.u8 (scaleCode e.source.scale), Item.u8 e.source.bin, Item.u32 e.target, Item.u32 e.tolerance, Item.u32 e.actual,
    Item.u8 (stepStatusCode e.status)] ++
    optItem Item.u8 (match e.status with
      | .held reason => some (stepReasonCode reason)
      | _ => none) ++
    [Item.u16 e.jogs] ++ optItem Item.u16 e.reservation

/-- The completion record (R108). -/
def completionItems : Option Completion → List Item
  | none => Item.u8 0 :: [Item.u16 0, Item.u8 0, Item.u16 0, Item.u8 0, Item.u32 0, Item.u32 0, Item.u8 0, Item.u8 0, Item.u8 0]
  | some c =>
    Item.u8 1 :: [Item.u16 c.number, Item.u8 c.formula, Item.u16 c.lotTag, Item.u8 c.destination, Item.u32 c.total, Item.u32 c.accepted,
      Item.u8 (flagCode c.clamped), Item.u8 (flagCode c.abandoned)] ++
      listItems c.steps (fun e => [Item.u8 (stepStatusCode e.1), Item.u32 e.2])

/-- A value shown under a condition and absent without it. -/
def shown (present : Bool) (v : Nat) : Option Nat := if present then some v else none

/-- A live batch (R93, R114): its mix time remaining while MIXING or held from it, its discharged marks in DISCHARGING or held
from it. -/
def batchItems (b : Batch) : List Item :=
  [Item.u16 b.number, Item.u8 b.formula, Item.u32 b.size, Item.u16 b.lotTag, Item.u8 b.destination, Item.u8 (flagCode b.releaseWait),
    Item.u8 (batchStateCode b.state)] ++ heldItems b ++
    [Item.u8 (flagCode b.abandoned), Item.u8 (flagCode b.called), Item.u32 b.total] ++
    optItem Item.u16 (shown (b.inPhase .mixing) b.mixRemaining) ++
    optItem Item.u8 (shown (b.inPhase .discharging) (flagCode b.mainDischarged)) ++
    optItem Item.u8 (shown (b.inPhase .discharging) (flagCode b.microDischarged)) ++
    optItem Item.u8 (b.waitCause.map waitCauseCode) ++ optItem Item.u16 (timerLeft b) ++ listItems b.steps stepEntryItems

/-- The line as BATCH_READ of number 0 shows it (R114): mixer EMPTY 0 or OCCUPIED 1, and the scale group's occupant. -/
def lineItemsOf (s : State) : List Item :=
  [Item.u8 (flagCode s.mixerBatch.isSome)] ++ optItem Item.u16 (s.scaleBatch.map (·.number)) ++
    listItems s.line.batches (fun b =>
      [Item.u16 b.number, Item.u8 b.formula, Item.u8 (batchStateCode b.state)] ++ heldPhaseItems b)

/-- BATCH_READ (R114). -/
def execBatchRead (tag : Byte) (number : Nat) (s : State) : Host.Outcome State Fault Refusal :=
  serve (.batchRead tag number) (fun s =>
    if number = 0 then plain s (lineItemsOf s ++ completionItems s.line.completion)
    else withBatch s number (fun b => plain s (batchItems b ++ completionItems s.line.completion))) s

/-! ### Events -/

/-- The discharge timer expires (R105). -/
def dischargeExpiry (s : State) : Result :=
  match s.line.batches.find? (fun b => decide (b.state = .discharging)) with
  | none => s.done
  | some b =>
    match b.timer with
    | some (.discharge _) => holdMixer (askGates s b false) b .discharging .discharge
    | _ => s.done

/-- DISCHARGE_TIMEOUT (R105). -/
def execDischargeTimeout (s : State) : Host.Outcome State Fault Refusal := outcome (dischargeExpiry s)

/-- The mix timer expires (R106). -/
def mixExpiry (s : State) : Result :=
  match s.line.batches.find? (fun b => decide (b.state = .mixing)) with
  | none => s.done
  | some b =>
    match b.timer with
    | some (.mix _) => enterMixed s { b with mixLeft := 0 }
    | _ => s.done

/-- MIX_TIMEOUT (R106). -/
def execMixTimeout (s : State) : Host.Outcome State Fault Refusal := outcome (mixExpiry s)

/-- The release timer expires (R108). -/
def releaseExpiry (s : State) : Result :=
  match s.line.batches.find? (fun b => decide (b.state = .releasing)) with
  | none => s.done
  | some b =>
    match b.timer with
    | some (.release _ true) => completeRelease s b
    | some (.release _ false) => holdMixer s b .releasing .discharge
    | _ => s.done

/-- RELEASE_TIMEOUT (R108). -/
def execReleaseTimeout (s : State) : Host.Outcome State Fault Refusal := outcome (releaseExpiry s)

/-- The mixer is found empty in RELEASING (R108). -/
def mixerEmptied (s : State) : Result :=
  match s.line.batches.find? (fun b => decide (b.state = .releasing)) with
  | none => s.done
  | some b => completeRelease s b

/-- MIXER_EMPTY_ACTIVE (R108). -/
def execMixerEmptyActive (s : State) : Host.Outcome State Fault Refusal :=
  outcome (mixerEmptied (s.takeOffered .mixerEmpty))

end Sys2Proof.Machine
end

