-- ==== Sys2Proof/Machine/BinCommands.lean ====
section
/-! DEFINITION. Meanings of the Inventory Unit's requests (R35 to R38, R42, R43, R59) and of the probe events (R45, R46). -/

namespace Sys2Proof.Machine

/-! ### BIN_DEFINE -/

/-- The definition of a bin as the fields of R33. -/
def binFieldsOf (d : BinDef) : BinFields where
  kind := binKindCode d.kind
  code := d.code
  capacity := d.capacity
  lowMark := d.lowMark
  highMark := d.highMark
  outlet := outletCode d.outlet
  feederType := (feederCode d.feeder).1
  feederNumber := (feederCode d.feeder).2
  fastSpeed := d.fastSpeed
  slowSpeed := d.slowSpeed
  fullRate := d.fullRate
  slowBand := d.slowBand
  inflight := d.inflight
  jogTime := d.jogTime
  jogLimit := d.jogLimit
  stallWindow := d.stallWindow
  stallMass := d.stallMass
  inletRoute := d.inletRoute
  outletRoute := d.outletRoute
  highProbe := d.highProbe
  lowProbe := d.lowProbe
  grindSource := d.grindSource
  grindScreen := d.grindScreen
  arming := armingCode d.arming

/-- Whether a live reservation names a bin (R35). -/
def binReserved (s : State) (b : Nat) : Bool := s.inv.reservations.any (fun r => decide (r.bin = b))

/-- Whether a job uses a bin: a leg of a transfer, a surge bin of a press with an active run, or a bin of the mill's current
request (R35 check 7). -/
def binInWork (s : State) (b : Nat) : Bool :=
  s.arb.transfers.any (fun e => e.2.legs.any (fun leg => decide (leg.bin = b))) ||
    [PressId.one, PressId.two].any (fun p =>
      (s.pressAt p).active.isSome && decide ((s.pressAt p).cfg.surgeBin = b)) ||
    (match s.currentGrind with
      | some r => decide (r.source = b ∨ r.destination = b)
      | none => false)

/-- Whether an input may be a probe of bin `b`: no other bin's probe, and use NONE (R35 check 5). -/
def probeFree (s : State) (b n : Nat) : Bool :=
  s.inv.bins.all (fun e => decide (e.1 = b ∨ (e.2.cfg.highProbe ≠ some n ∧ e.2.cfg.lowProbe ≠ some n))) &&
    decide ((s.pin n).cfg.use = .none)

/-- Whether the probes that a definition of bin `b` names may be its probes (R35 check 5). -/
def probesFree (s : State) (b : Nat) (d : BinDef) : Bool :=
  d.highProbe.toList.all (probeFree s b) && d.lowProbe.toList.all (probeFree s b) &&
    decide (d.highProbe = none ∨ d.highProbe ≠ d.lowProbe)

/-- Whether a feeder output may belong to bin `b`: no other bin's, and no gate of a transfer (R35 check 6). -/
def feederFree (s : State) (b : Nat) (f : Feeder) : Bool :=
  s.inv.bins.all (fun e => decide (e.1 = b ∨ e.2.cfg.feeder ≠ f)) &&
    (match f with
      | .discrete n => !s.gateInUse n
      | .speed _ => true)

/-- The bin that a definition makes of a bin that may be defined already (R34, R35). A probe keeps its state, absent with no
probe, and takes its input's at the first sample after the definition, which is no change (R44); a feeder that changes is off. -/
def redefined (old : Option Bin) (d : BinDef) : Bin :=
  match old with
  | none => bootBin d d.inflight
  | some v =>
    { v with
      cfg := d
      inflight := d.inflight
      counted := v.counted && decide (v.cfg.kind = d.kind)
      highCovered := d.highProbe.bind (fun _ => v.highCovered)
      lowCovered := d.lowProbe.bind (fun _ => v.lowCovered)
      renamed := true
      feederAsk := if d.feeder = v.cfg.feeder then v.feederAsk else 0 }

/-- A discrete output that becomes a feeder goes off and loses its role; one that is let go is free and off (R65). -/
def takeFeeder (s : State) (f : Feeder) : State :=
  match f with
  | .discrete n => s.setIO { s.io with roles := Table.del s.io.roles n, freeOn := Table.del s.io.freeOn n }
  | .speed _ => s

/-- The checks 2 to 7 of a definition of bin `b` (R35). -/
def defineChecks (s : State) (b : Nat) (d : BinDef) : List (Bool × ReplyCode) :=
  let old := s.bin b
  let identity : Bool := match old with
    | some v => decide (v.cfg.kind = d.kind ∧ v.cfg.code = d.code ∧ v.cfg.outlet = d.outlet) ||
        !(decide (0 < v.onHand) || binReserved s b)
    | none => true
  let room : Bool := match old with
    | some v => decide (v.onHand ≤ d.capacity)
    | none => true
  let running : Bool := match old with
    | some v => decide (v.cfg.kind = d.kind ∧ v.cfg.outlet = d.outlet ∧ v.cfg.feeder = d.feeder ∧
        v.cfg.fullRate = d.fullRate) || !binInWork s b
    | none => true
  [(!s.saving, .busy),
    (decide (d.kind ≠ .rework ∨ s.reworkBin = none ∨ s.reworkBin = some b), .inUse),
    (identity && room, .inUse),
    (probesFree s b d, .inUse),
    (feederFree s b d.feeder, .inUse),
    (running, .inUse)]

/-- The effect of BIN_DEFINE with a kind other than NONE (R35). -/
def defineBin (s : State) (b : Nat) (d : BinDef) : State :=
  let s1 := match (s.bin b).map (·.cfg.feeder) with
    | some f => if f = d.feeder then s else takeFeeder (takeFeeder s f) d.feeder
    | none => takeFeeder s d.feeder
  s1.setBin b (redefined (s.bin b) d)

/-- The effect of BIN_DEFINE with kind NONE (R36). -/
def undefineBin (s : State) (b : Nat) : State :=
  let s1 := match (s.bin b).map (·.cfg.feeder) with
    | some f => takeFeeder s f
    | none => s
  s1.setInv { s1.inv with bins := Table.del s1.inv.bins b }

/-- The judgement of BIN_DEFINE (R35, R36). The failing field is counted from 1, the bin number first. DESIGN CHOICE: a refusal of kind
NONE, for which R36 names no field, carries index 0 (notes/assumptions/6.md). -/
def judgeDefine (b : Nat) (f : BinFields) (s : State) : Verdict :=
  let numbered := decide (1 ≤ b ∧ b ≤ Config.binCount)
  if f.kind = kindNone then
    if !numbered then .refuse .outOfRange 0
    else
      let idle : Bool := match s.bin b with
        | some v => decide (v.onHand = 0) && !binReserved s b && !binInWork s b
        | none => true
      checked [(!s.saving, .busy), (idle, .inUse)] (.accept (undefineBin s b, [.roomCheckAt b]) (fun _ => []))
  else
    let outlet := outletOf f.outlet
    let fmax := (outlet.bind outletScale).map (fun sc => (s.chan sc).cfg.fmax)
    let bad := firstFailing (numbered :: binChecks f (binKindOf f.kind) outlet fmax)
    if bad ≠ 0 then .refuse .outOfRange bad
    else
      match binKindOf f.kind, outlet, feederOf f.feederType f.feederNumber with
      | some kind, some o, some feeder =>
        let d := binDefOf f kind o feeder
        checked (defineChecks s b d) (.accept (defineBin s b d, [.roomCheckAt b]) (fun _ => []))
      | _, _, _ => .refuse .outOfRange 0

/-- BIN_DEFINE (R35, R36). -/
def execBinDefine (tag : Byte) (bin : Nat) (fields : BinFields) (s : State) : Host.Outcome State Fault Refusal :=
  serve (.binDefine tag bin fields) (judgeDefine bin fields) s

/-! ### Reading and posting -/

/-- A bin named by a request: refused when out of range or undefined (R37, R42, R43). -/
def withBin (s : State) (b : Nat) (f : Bin → Verdict) : Verdict :=
  if b = 0 ∨ Config.binCount < b then .refuse .outOfRange 0
  else
    match s.bin b with
    | none => .refuse .noSuch 0
    | some v => f v

/-- A probe state in a reply: COVERED 0, UNCOVERED 1, or absent. -/
def probeItems (v : Option Bool) : List Item := optItem Item.u8 (v.map (fun covered => if covered then 0 else 1))

/-- The lot list in a reply (R38). DESIGN CHOICE: one presence byte, then the list, of which an absent one sends the count 0 alone
(notes/assumptions/6.md). -/
def lotItems (v : Bin) : List Item :=
  maybe (keepsLots v.cfg.kind)
    (listItems v.lots (fun l => [Item.u16 l.tag, Item.u16 l.product, Item.u32 l.mass, Item.u8 (flagCode l.mixed)])) [Item.u8 0]

/-- How many reservations of a bin are short (R52). -/
def shortOf (l : List Reservation) (b : Nat) : Nat :=
  ((reservationsOf l b).filter (fun r => decide (r.held < r.wanted))).length

/-- The items of BIN_READ for a defined bin (R38). -/
def binReadItems (s : State) (b : Nat) (v : Bin) : List Item :=
  let held := heldTotal s.inv.reservations b
  binItems (binFieldsOf v.cfg) ++
    [Item.u32 v.onHand, Item.u32 held, Item.u32 (v.onHand - held), Item.u8 (reservationsOf s.inv.reservations b).length,
      Item.u8 (shortOf s.inv.reservations b), Item.u8 (if v.counted then 0 else 1), Item.u8 (if v.locked then 1 else 0)] ++
    probeItems v.highCovered ++ probeItems v.lowCovered ++
    [Item.u8 (firstCode (s.beingFilled b)), Item.u32 v.writeOff, Item.u32 v.inflight] ++ lotItems v

/-- BIN_READ (R38). -/
def execBinRead (tag : Byte) (bin : Nat) (s : State) : Host.Outcome State Fault Refusal :=
  serve (.binRead tag bin) (fun s =>
    if bin = 0 ∨ Config.binCount < bin then .refuse .outOfRange 0
    else
      match s.bin bin with
      | none => plain s [Item.u8 kindNone]
      | some v => plain s (binReadItems s bin v)) s

/-- BIN_COUNT (R43). -/
def execBinCount (tag : Byte) (bin mass : Nat) (lotTag : Option Nat) (s : State) : Host.Outcome State Fault Refusal :=
  serve (.binCount tag bin mass lotTag) (fun s =>
    if bin = 0 ∨ Config.binCount < bin ∨ max16 < lotTag.getD 0 then .refuse .outOfRange 0
    else
      match s.bin bin with
      | none => .refuse .noSuch 0
      | some v =>
        if v.cfg.capacity < mass then .refuse .outOfRange 0
        else .accept (countBin s bin mass (lotTag.getD 0)) (fun _ => [Item.u32 v.onHand])) s

/-- BIN_RECEIVE (R42). -/
def execBinReceive (tag : Byte) (bin mass : Nat) (s : State) : Host.Outcome State Fault Refusal :=
  serve (.binReceive tag bin mass) (fun s =>
    if mass = 0 ∨ max32 < mass then .refuse .outOfRange 0
    else withBin s bin (fun v =>
      if v.cfg.kind ≠ .raw ∧ v.cfg.kind ≠ .micro then .refuse .wrongState 0
      else
        let f := fill s bin mass []
        .accept f.result (fun u =>
          [Item.u32 f.accepted, Item.u8 (flagCode f.clamped), Item.u32 (((u.bin bin).map (·.onHand)).getD 0)]))) s

/-- BIN_LOCK (R37). -/
def execBinLock (tag : Byte) (bin : Nat) (s : State) : Host.Outcome State Fault Refusal :=
  serve (.binLock tag bin) (fun s => withBin s bin (fun v =>
    .accept (s.setBin bin { v with locked := true }, [.roomCheckAt bin]) (fun _ => [Item.u8 (if v.locked then 1 else 0)]))) s

/-- BIN_UNLOCK (R37). -/
def execBinUnlock (tag : Byte) (bin : Nat) (s : State) : Host.Outcome State Fault Refusal :=
  serve (.binUnlock tag bin) (fun s => withBin s bin (fun v =>
    .accept (s.setBin bin { v with locked := false }, [.roomCheckAt bin]) (fun _ => [Item.u8 (if v.locked then 1 else 0)]))) s

/-- A holder: its kind, its record and its step or line (R52). DESIGN CHOICE: one byte for the kind, four for the record and one
for the step or line, 0 for a bag run (notes/assumptions/6.md). -/
def holderItems : Holder → List Item
  | .batchStep n i => [Item.u8 0, Item.u32 n, Item.u8 i]
  | .bagRun n => [Item.u8 1, Item.u32 n, Item.u8 0]
  | .orderLine n i => [Item.u8 2, Item.u32 n, Item.u8 i]

/-- The age of a reservation: its place among those of its bin, from 1 (R52). -/
def ageOf (l : List Reservation) (r : Reservation) : Nat :=
  (reservationsOf l r.bin).findIdx (fun x => decide (x.id = r.id)) + 1

/-- Up to 10 reservations of a bin from an age (R59). DESIGN CHOICE: ages run from 1, and a starting age of 0, to which the rule
gives no reply, is taken as 1 (notes/assumptions/55.md). -/
def agePage (l : List Reservation) (b age : Nat) : List Reservation := ((reservationsOf l b).drop (age - 1)).take 10

/-- RESERVATION_READ (R59). DESIGN CHOICE: an age is sent and read in one byte (notes/assumptions/6.md), and a form byte above 1 is
refused OUT_OF_RANGE (notes/assumptions/75.md). -/
def execReservationRead (tag : Byte) (form key age : Nat) (s : State) : Host.Outcome State Fault Refusal :=
  serve (.reservationRead tag form key age) (fun s =>
    let l := s.inv.reservations
    if form = 0 then
      if key = 0 ∨ max16 < key then .refuse .outOfRange 0
      else
        match s.reservation key with
        | none => .refuse .noSuch 0
        | some r => plain s ([Item.u16 r.id, Item.u8 r.bin] ++ holderItems r.holder ++
            [Item.u32 r.wanted, Item.u32 r.held, Item.u8 (ageOf l r)])
    else if form = 1 then
      withBin s key (fun _ => plain s (Item.u8 (reservationsOf l key).length ::
        listItems (agePage l key age) (fun r => Item.u16 r.id :: holderItems r.holder ++
          [Item.u32 r.wanted, Item.u32 r.held, Item.u8 (ageOf l r), Item.u8 (flagCode (decide (r.held < r.wanted)))])))
    else .refuse .outOfRange 0) s

/-! ### Probe events -/

/-- HIGH_PROBE_COVERED (R45, R124). -/
def execHighProbeCovered (bin : Nat) (s : State) : Host.Outcome State Fault Refusal :=
  outcome (((highCover (s.takeOffered (.highProbe bin)) bin)).andThen (fun t => (t, [.highCovered bin])))

/-- LOW_PROBE_UNCOVERED (R46, R148). -/
def execLowProbeUncovered (bin : Nat) (s : State) : Host.Outcome State Fault Refusal :=
  outcome (lowUncover (s.takeOffered (.lowProbe bin)) bin)

end Sys2Proof.Machine
end

