-- ==== Sys2Proof/Machine/BookCommands.lean ====
section
/-! DEFINITION. Meanings of the requests of the Order Book and the Loadout (R178 to R192) and of the spout button (R186). -/

namespace Sys2Proof.Machine

/-! ### ORDER_ENTER -/

/-- The ranges of a line for its form (R177, R178 check 1). DESIGN CHOICE: an over allowance is at most 4,294,967,295 in either form
(notes/assumptions/69.md). -/
def lineInRange (f : LineFields) : Bool :=
  decide (1 ≤ f.product ∧ f.product ≤ max16 ∧ f.form ≤ 1 ∧ 1 ≤ f.quantity ∧
    f.quantity ≤ (if f.form = 0 then max32 else max16) ∧ f.underTol ≤ f.quantity ∧ f.overTol ≤ max32 ∧
    (f.form = 0 → 1 ≤ f.compartment.getD 0 ∧ f.compartment.getD 0 ≤ 6))

/-- The line that fields in range give; a BAGGED line may be DONE at once (R178, R180). -/
def newLine (f : LineFields) : OrderLine :=
  let bulk : Bool := decide (f.form = 0)
  let l : OrderLine :=
    { product := f.product, bulk := bulk, quantity := f.quantity, underTol := f.underTol, overTol := f.overTol,
      compartment := if bulk then f.compartment.getD 0 else 0, bin := none, reservation := none, delivered := 0,
      status := .opened, tally := emptyTally }
  if bulk then l else { l with status := baggedStatus l }

/-- ORDER_ENTER (R178). The failing line is counted from 1. -/
def execOrderEnter (tag : Byte) (number customer : Nat) (lines : List LineFields) (s : State) :
    Host.Outcome State Fault Refusal :=
  serve (.orderEnter tag number customer lines) (fun s =>
    if number = 0 ∨ max32 < number ∨ max32 < customer ∨ lines = [] ∨ 6 < lines.length then .refuse .outOfRange 0
    else
      let bad := firstFailing (lines.map lineInRange)
      if bad ≠ 0 then .refuse .outOfRange bad
      else
        checked [((s.order number).isNone, .inUse), (decide (s.book.orders.length < Config.orderCap), .noRoom)]
          (plain (s.setBook { s.book with
            orders := s.book.orders ++ [⟨number, customer, .opened, lines.map newLine⟩] }) [])) s

/-! ### LINE_ASSIGN, LINE_CLOSE, ORDER_CANCEL -/

/-- A line of an order named by a request: OUT_OF_RANGE outside 1 to 6, NO_SUCH with no such order, OUT_OF_RANGE beyond the
order's line count (R179, R181). -/
def withLine (s : State) (order line : Nat) (f : Order → OrderLine → Verdict) : Verdict :=
  if line = 0 ∨ 6 < line then .refuse .outOfRange 0
  else
    match s.order order with
    | none => .refuse .noSuch 0
    | some o =>
      match o.line line with
      | none => .refuse .outOfRange 0
      | some l => f o l

/-- Whether an order is the one of the truck at the spout. -/
def atSpout (s : State) (order : Nat) : Bool := decide (s.book.loadout.truck.map (·.order) = some order)

/-- Whether the loadout waits in READY for a line, or in SPOUT_WAIT on it (R179, R181). -/
def waitsOn (s : State) (o : Order) (line : Nat) : Bool :=
  atSpout s o.number &&
    (match s.book.loadout.state with
      | .ready => decide (o.nextBulk.map (·.1) = some line)
      | .spoutWait => decide (s.book.loadout.truck.bind (·.current) = some line)
      | _ => false)

/-- The execution of LINE_ASSIGN (R179): the new reservation exists before the old one is closed. A line's old id that had
died may be the very id assigned anew. -/
def assignLine (s : State) (o : Order) (line : Nat) (l : OrderLine) (bin : Nat) : Verdict :=
  let made := createOne s bin (.orderLine o.number line) l.remaining
  let l1 := { l with bin := some bin, reservation := some made.2, status := .assigned }
  let old := l.reservation.filter (fun id => decide (id ≠ made.2))
  let closed := closeHeld (made.1.putOrder (o.putLine line l1)) (.orderLine o.number line) old
  let goesOn := decide (s.book.loadout.state = .ready) && waitsOn s o line
  .accept (closed.1, closed.2 ++ (if goesOn then [.chooseLine] else []))
    (fun _ => [Item.u16 made.2, Item.u8 (flagCode (!made.1.reservationFull made.2))])

/-- LINE_ASSIGN (R179). -/
def execLineAssign (tag : Byte) (order line bin : Nat) (s : State) : Host.Outcome State Fault Refusal :=
  serve (.lineAssign tag order line bin) (fun s =>
    if bin = 0 ∨ Config.binCount < bin then .refuse .outOfRange 0
    else withLine s order line (fun o l =>
      let v := s.bin bin
      checked [(l.bulk && decide (l.status = .opened ∨ l.status = .assigned), .wrongState), (v.isSome, .noSuch),
          ((v.map (fun v => decide (v.cfg.kind = .finished ∧ v.cfg.outlet = .truck))).getD false, .wrongState),
          (decide (v.map (·.cfg.code) = some l.product), .inUse)]
        (match claimRefusal s [(bin, .orderLine order line, l.remaining)] with
          | some code => .refuse code 0
          | none => assignLine s o line l bin))) s

/-- The execution of LINE_CLOSE (R181): the reservation is closed, the compartment judged, the next line chosen where the
loadout waited on this one, and the order judged. R187 puts the compartment before the choice. -/
def closeLine (s : State) (o : Order) (line : Nat) (l : OrderLine) : Result :=
  let o1 := o.putLine line { l with status := .closedShort }
  let closed := closeHeld (s.putOrder o1) (.orderLine o.number line) l.reservation
  let s1 := if l.bulk && atSpout s o.number then judgeCompartment closed.1 o1 l.compartment else closed.1
  (s1, closed.2 ++ (if waitsOn s o line then [.chooseLine] else []) ++
    (if atSpout s o.number then [.judgeLoaded] else []))

/-- LINE_CLOSE (R181). -/
def execLineClose (tag : Byte) (order line : Nat) (s : State) : Host.Outcome State Fault Refusal :=
  serve (.lineClose tag order line) (fun s =>
    withLine s order line (fun o l =>
      checked [(decide (l.status ≠ .loading) && !l.final, .wrongState)]
        (.accept (closeLine s o line l) (fun _ => [Item.u32 l.delivered])))) s

/-- The reservations that an order's lines name, with their holders, in the order of the lines, in which ORDER_CANCEL and TRUCK_OUT
close them. DESIGN CHOICE: R182 and R190 give no order (notes/assumptions/82.md). -/
def Order.claims (o : Order) : List (Holder × Nat) :=
  o.indexed.filterMap (fun e => e.2.reservation.map (fun id => (.orderLine o.number e.1, id)))

/-- ORDER_CANCEL (R182). -/
def execOrderCancel (tag : Byte) (order : Nat) (s : State) : Host.Outcome State Fault Refusal :=
  serve (.orderCancel tag order) (fun s =>
    match s.order order with
    | none => .refuse .noSuch 0
    | some o =>
      checked [(decide (o.state = .opened), .wrongState)]
        (let closed := closeAll s o.claims
        .accept (closed.1.dropOrder order, closed.2)
          (fun _ => listItems o.lines (fun l => [Item.u32 l.delivered])))) s

/-! ### The truck -/

/-- The BULK lines of an order without a final status. -/
def Order.openBulk (o : Order) : List OrderLine := o.lines.filter (fun l => l.bulk && !l.final)

/-- Whether a compartment suits the lines that name it: its capacity holds their sum, and they are of one product (R184
check 4). -/
def compartmentSuits (lines : List OrderLine) (k capacity : Nat) : Bool :=
  let named := lines.filter (fun l => decide (l.compartment = k))
  decide ((named.map (·.quantity)).sum ≤ capacity) &&
    named.all (fun l => decide (some l.product = named.head?.map (·.product)))

/-- The index of the first line or compartment that fails check 4 of R184, the lines first; 0 when all pass. -/
def truckMisfit (o : Order) (capacities : List Nat) : Nat :=
  let line := firstFailing (o.lines.map (fun l => !l.bulk || l.final || decide (l.compartment ≤ capacities.length)))
  if line ≠ 0 then line
  else firstFailing (((List.range capacities.length).map (· + 1)).zip capacities |>.map
    (fun e => compartmentSuits o.openBulk e.1 e.2))

/-- The execution of TRUCK_IN (R184). -/
def bringTruck (s : State) (o : Order) (capacities : List Nat) : State :=
  let truck : Truck := ⟨o.number, capacities.map (fun c => ⟨c, 0⟩), none, none⟩
  (s.putOrder { o with state := .loading }).setLoadout ⟨.taring, some truck, false, false⟩

/-- TRUCK_IN (R184). -/
def execTruckIn (tag : Byte) (order : Nat) (capacities : List Nat) (s : State) : Host.Outcome State Fault Refusal :=
  serve (.truckIn tag order capacities) (fun s =>
    if capacities = [] ∨ 6 < capacities.length ∨
        capacities.all (fun c => decide (1 ≤ c ∧ c ≤ 60000000)) = false then .refuse .outOfRange 0
    else
      match s.order order with
      | none => .refuse .noSuch 0
      | some o =>
        checked [(decide (s.book.loadout.state = .noTruck ∧ o.state = .opened), .wrongState)]
          (if truckMisfit o capacities ≠ 0 then .refuse .outOfRange (truckMisfit o capacities)
          else plain (bringTruck s o capacities) [])) s

/-- The target of the current line's dose and whether it is clipped (R186). -/
def spoutItems (s : State) : List Item :=
  match s.currentLine with
  | some (_, _, l) => [Item.u32 (loadTarget s l), Item.u8 (flagCode (decide (loadTarget s l < l.remaining)))]
  | none => [Item.u32 0, Item.u8 0]

/-- SPOUT_READY (R186). -/
def execSpoutReady (tag : Byte) (s : State) : Host.Outcome State Fault Refusal :=
  serve (.spoutReady tag) (fun s =>
    match spoutRefusal s with
    | some code => .refuse code 0
    | none => .accept (startLoading s false) (fun _ => spoutItems s)) s

/-- The execution of ACCEPT (R189): the current line takes its final status, unless it already has it. -/
def acceptLoad (s : State) (o : Order) (i : Nat) (l : OrderLine) : Result :=
  if l.final then (s, [.chooseLine])
  else
    let finished := finishLine s o i l (acceptedStatus l)
    (finished.1, finished.2 ++ [.chooseLine])

/-- The checks 4 and 5 of RETRY (R189). A line that is OVER stays so whatever the hold's reason has become since, because a final
status changes no further (R177). -/
def retryChecks (s : State) (o : Order) (i : Nat) (l : OrderLine) : List (Bool × ReplyCode) :=
  let room := ((s.compartment l.compartment).map Compartment.room).getD 0
  let reasonOk : Bool := match s.book.loadout.state with
    | .held reason _ => decide (reason ≠ .overWeight)
    | _ => false
  [(reasonOk && !l.final && decide (1 ≤ l.remaining ∧ (s.chan .truck).status = .ok ∧ 1 ≤ room), .wrongState),
    (decide (l.remaining ≤ s.heldBy (.orderLine o.number i) l.reservation), .short)]

/-- Whether the loadout is HELD (R183). -/
def loadHeld (s : State) : Bool :=
  match s.book.loadout.state with
  | .held _ _ => true
  | _ => false

/-- LOADOUT_RESUME (R189): ACCEPT 0, RETRY 1. -/
def execLoadoutResume (tag : Byte) (action : Nat) (s : State) : Host.Outcome State Fault Refusal :=
  serve (.loadoutResume tag action) (fun s =>
    match flagOf action with
    | none => .refuse .outOfRange 0
    | some retry =>
      checked [(!s.stopped, .lineStopped), (loadHeld s, .wrongState)]
        (match s.currentLine with
          | none => .refuse .wrongState 0
          | some (o, i, l) =>
            if retry then checked (retryChecks s o i l) (.accept (startLoading s true) (fun _ => []))
            else .accept (acceptLoad s o i l) (fun _ => []))) s

/-- A line's final status at TRUCK_OUT: a held BULK line, `current`, as ACCEPT would give it, any other CLOSED_SHORT (R190). -/
def leavingLine (current : Option Nat) (i : Nat) (l : OrderLine) : OrderLine :=
  if l.final then l
  else { l with status := if current = some i then acceptedStatus l else .closedShort }

/-- The dispatch record (R190). -/
def dispatchOf (o : Order) (t : Truck) (tare gross : Int) (lines : List OrderLine) : Dispatch where
  order := o.number
  customer := o.customer
  tare := tare
  gross := gross
  net := gross - tare
  compartments := t.compartments
  lines := lines.map (fun l => ⟨l.product, l.bulk, l.status, l.quantity, l.delivered, l.tally⟩)

/-- The execution of TRUCK_OUT (R190). -/
def sendTruck (s : State) (o : Order) (t : Truck) : Result :=
  let gross := (s.chan .truck).gross
  let current := if loadHeld s then t.current else none
  let lines := o.indexed.map (fun e => leavingLine current e.1 e.2)
  let closed := closeAll s o.claims
  let s1 := closed.1.dropOrder o.number
  (s1.setBook { s1.book with
    loadout := ⟨.noTruck, none, false, false⟩
    dispatch := s1.book.dispatch ++ [dispatchOf o t (t.tare.getD 0) gross lines] }, closed.2)

/-- TRUCK_OUT (R190). -/
def execTruckOut (tag : Byte) (force : Nat) (s : State) : Host.Outcome State Fault Refusal :=
  serve (.truckOut tag force) (fun s =>
    match flagOf force with
    | none => .refuse .outOfRange 0
    | some forced =>
      match s.book.loadout.truck, s.truckOrder with
      | some t, some o =>
        let gross := (s.chan .truck).gross
        checked
          [(decide (s.book.loadout.state = .finished) || (loadHeld s && forced), .wrongState),
            (decide ((s.chan .truck).status = .ok) && (s.chan .truck).stable, .wrongState),
            (decide (s.book.dispatch.length < Config.dispatchCap), .noRoom)]
          (.accept (sendTruck s o t) (fun _ => [Item.i32 gross, Item.i32 (gross - t.tare.getD 0)]))
      | _, _ => .refuse .wrongState 0) s

/-! ### Dispatch records and ORDER_READ -/

/-- A dispatch record as it crosses the link, its tally masses in kilograms (R212). -/
def dispatchItems (d : Dispatch) : List Item :=
  [Item.u32 d.order, Item.u32 d.customer, Item.i32 d.tare, Item.i32 d.gross, Item.i32 d.net] ++
    listItems d.compartments (fun c => [Item.u32 c.capacity, Item.u32 c.loaded]) ++
    listItems d.lines (fun l =>
      [Item.u16 l.product, Item.u8 (formCode l.bulk), Item.u8 (lineStatusCode l.status), Item.u32 l.quantity,
        Item.u32 l.delivered, Item.u8 (l.tally.pairs.length + if l.tally.more then 128 else 0)] ++
      l.tally.pairs.flatMap (fun e => [Item.u16 e.1, Item.u16 (coarse 1000 max16 e.2)]))

/-- DISPATCH_TAKE (R191). -/
def execDispatchTake (tag : Byte) (s : State) : Host.Outcome State Fault Refusal :=
  serve (.dispatchTake tag) (fun s =>
    match s.book.dispatch with
    | [] => .refuse .noSuch 0
    | d :: rest => plain (s.setBook { s.book with dispatch := rest }) (dispatchItems d)) s

/-- The truck record, or absent (R183). -/
def truckItems : Option Truck → List Item
  | none => [Item.u8 0, Item.u32 0, Item.u8 0] ++ maybeMass none ++ optItem Item.u8 none
  | some t =>
    [Item.u8 1, Item.u32 t.order] ++ listItems t.compartments (fun c => [Item.u32 c.capacity, Item.u32 c.loaded]) ++
      maybeMass t.tare ++ optItem Item.u8 t.current

/-- The hold reason and cause of a loadout state, absent while it is not HELD. -/
def LoadState.hold : LoadState → Option (LoadReason × LoadCause)
  | .held reason cause => some (reason, cause)
  | _ => none

/-- The items of ORDER_READ for number 0 (R192). DESIGN CHOICE: whether the loadout has a transfer (R183) is one byte after the hold
cause (notes/assumptions/6.md). -/
def bookItems (s : State) : List Item :=
  let l := s.book.loadout
  [Item.u8 (loadStateCode l.state)] ++ truckItems l.truck ++
    optItem Item.u8 (l.state.hold.map (fun h => loadReasonCode h.1)) ++
    optItem Item.u8 (l.state.hold.map (fun h => loadCauseCode h.2)) ++
    [Item.u8 (flagCode (s.transferOf .loadout).isSome), Item.u8 s.book.dispatch.length] ++
    listItems s.book.orders (fun o =>
      [Item.u32 o.number, Item.u32 o.customer, Item.u8 (orderStateCode o.state)])

/-- Line `i` of order `o` as ORDER_READ shows it: the compartment and the remaining mass are a BULK line's, absent on a BAGGED
one, and the wanted and held mass are those of its reservation while live (R177, R192, R207). -/
def orderLineItems (s : State) (o : Order) (i : Nat) (l : OrderLine) : List Item :=
  let bulkOnly (v : Nat) : Option Nat := if l.bulk then some v else none
  [Item.u16 l.product, Item.u8 (formCode l.bulk), Item.u32 l.quantity, Item.u32 l.underTol, Item.u32 l.overTol] ++
    optItem Item.u8 (bulkOnly l.compartment) ++ optItem Item.u8 l.bin ++ optItem Item.u16 l.reservation ++
    [Item.u32 l.delivered, Item.u8 (lineStatusCode l.status)] ++ tallyItems l.tally ++
    optItem Item.u32 (bulkOnly l.remaining) ++ claimItems (l.reservation.bind (s.claim (.orderLine o.number i)))

/-- The items of ORDER_READ for an order (R192). -/
def orderItems (s : State) (o : Order) : List Item :=
  [Item.u32 o.number, Item.u32 o.customer, Item.u8 (orderStateCode o.state)] ++ 
    listItems o.indexed (fun e => orderLineItems s o e.1 e.2)

/-- ORDER_READ (R192). -/
def execOrderRead (tag : Byte) (order : Nat) (s : State) : Host.Outcome State Fault Refusal :=
  serve (.orderRead tag order) (fun s =>
    if order = 0 then plain s (bookItems s)
    else
      match s.order order with
      | none => .refuse .noSuch 0
      | some o => plain s (orderItems s o)) s

/-! ### The spout button -/

/-- The button acts as SPOUT_READY, or is discarded where that would be refused (R186). -/
def spoutButton (s : State) : Result := if (spoutRefusal s).isSome then s.done else startLoading s false

/-- SPOUT_READY_BUTTON_PRESS (R186). -/
def execSpoutReadyButtonPress (s : State) : Host.Outcome State Fault Refusal :=
  outcome (spoutButton (s.takeOffered .spoutReadyButton))

end Sys2Proof.Machine
end

