-- ==== Sys2Proof/Machine/LinkPort.lean ====
section
/-! DEFINITION. The Link Port and the settings store: reception (R213), replies (R214), the link reset (R215), the transmit
choice (R199), saving (R218, R219) and the full reset (R220). -/

namespace Sys2Proof.Machine

/-! ### Receiving -/

/-- The receive error counter rises by 1 (R213). -/
def countError (l : Link) : Link := { l with errors := satAdd max16 l.errors 1 }

/-- The receiver back in HUNT with no partial frame. -/
def huntAgain (l : Link) : Link := { l with rxPosition := .hunt, rxBytes := [] }

/-- The frame that the bytes LEN, KIND, TAG, BODY spell, without their CHECK. -/
def frameOf : List Byte → Frame
  | _ :: kind :: tag :: body => ⟨kind, tag, body⟩
  | _ => ⟨0, 0, []⟩

/-- A received frame is judged by its CHECK: the bytes hold LEN, KIND, TAG, BODY and the two CHECK characters, newest
first. It is queued, or discarded as an error or as an overrun (R213). -/
def judgeFrame (s : State) (l : Link) (newestFirst : List Byte) : State :=
  let all := newestFirst.reverse
  let checkedBytes := all.take (all.length - 2)
  let check := ofBytes (all.drop (all.length - 2))
  let l := huntAgain l
  if check ≠ (crcOf checkedBytes).toNat then s.setLink (countError l)
  else if l.rxQueue.length < Config.linkCap then s.setLink { l with rxQueue := l.rxQueue ++ [frameOf checkedBytes] }
  else
    let overruns := satAdd max16 l.overruns 1
    (s.setLink { l with overruns := overruns }).raise (.linkOverrun overruns)

/-- The receiver takes one character (R213). `rxBytes` holds the frame's characters from LEN, newest first. -/
def takeChar (s : State) (c : Byte) : State :=
  let l := s.link
  let kept := c :: l.rxBytes
  match l.rxPosition with
  | .hunt => if c = 0x5A then s.setLink { l with rxPosition := .len, rxBytes := [] } else s
  | .len =>
    if c ≤ Config.bodyCap then s.setLink { l with rxPosition := .kind, rxBytes := [c] }
    else s.setLink (countError (huntAgain l))
  | .kind => s.setLink { l with rxPosition := .tag, rxBytes := kept }
  | .tag =>
    let len := l.rxBytes.getLast?.getD 0
    s.setLink { l with rxPosition := if len = 0 then .check1 else .body len, rxBytes := kept }
  | .body left => s.setLink { l with rxPosition := if left ≤ 1 then .check1 else .body (left - 1), rxBytes := kept }
  | .check1 => s.setLink { l with rxPosition := .check2, rxBytes := kept }
  | .check2 => judgeFrame s l kept

/-- A character with a framing error: in HUNT it is discarded; elsewhere the partial frame is dropped (R205, R213). -/
def framingError (s : State) : State :=
  if s.link.rxPosition = .hunt then s else s.setLink (countError (huntAgain s.link))

/-- A break (R215). -/
def breakLine (s : State) : State :=
  s.setLink { huntAgain s.link with rxQueue := [], breaks := satAdd max16 s.link.breaks 1 }

/-! ### The full reset -/

/-- A full reset (R220): the straps are read and give the rate (R205), the store is read and loaded or the defaults are taken, and
every block takes its reset values. -/
def fullReset (s : State) (strapB strapA : Bool) : State :=
  match s.store.image with
  | some c => State.booted c ⟨.valid, some c, none, true⟩ strapB strapA s.io.analogPins s.pending
  | none => State.booted defaultStored ⟨.invalid, none, none, false⟩ strapB strapA s.io.analogPins s.pending

/-! ### Sending -/

/-- Whether a frame is the reply OK to RESTART: kind 0x84, code OK (R220). -/
def isRestartReply (f : Frame) : Bool := decide (f.kind = 0x84 ∧ f.body.head? = some 0)

/-- The transmit choice (R199): the oldest reply, or the best eligible notice, or none. DESIGN CHOICE: the reply leaves the reply queue
at the choice, as the notice leaves its table (notes/assumptions/78.md). -/
def chooseSend (s : State) : State :=
  match s.link.replies with
  | r :: rest => s.setLink { s.link with replies := rest, tx := r.frames }
  | [] =>
    match bestNotice s.eligible with
    | some (source, n) =>
      (s.setRouter { s.router with notices := Table.del s.router.notices source }).setLink
        { s.link with tx := [noticeFrame source n] }
    | none => s

/-- The transmitter finishes a frame, or something became ready while it was idle (R199, R214, R220). The frames of one reply follow
one another. The last byte of the reply OK to RESTART brings the full reset about, which reads the strap pins as they
stand (notes/assumptions/17.md). -/
def sendNext (s : State) : State :=
  match s.link.tx with
  | [] => chooseSend s
  | f :: rest =>
    if isRestartReply f then fullReset s s.link.strapB s.link.strapA
    else if rest.isEmpty then chooseSend (s.setLink { s.link with tx := [] })
    else s.setLink { s.link with tx := rest }

/-! ### The settings store -/

/-- The stored configuration in force (R218): an OPEN formula counts as EMPTY, and a bin's runtime in-flight is stored beside its
definition (R34). -/
def capture (s : State) : Stored where
  main := (s.chan .main).cfg
  micro := (s.chan .micro).cfg
  bagger := (s.chan .bagger).cfg
  truck := (s.chan .truck).cfg
  bins := s.inv.bins.map (fun e => (e.1, ⟨e.2.cfg, e.2.inflight⟩))
  inputs := (s.io.inputs.map (fun e => (e.1, e.2.cfg))).filter (fun e => decide (e.2 ≠ defaultInputConfig))
  roles := s.io.roles
  spans := s.io.spans
  routes := s.arb.routes
  permitTime := s.arb.permitTime
  formulas := s.line.formulas.filter (·.2.closed)
  times := s.line.times
  mill := s.mill.settings
  profiles := s.press.profiles
  pressOne := (s.pressAt .one).cfg
  pressTwo := (s.pressAt .two).cfg
  checkTime := s.bag.checkTime
  releaseTime := s.bag.releaseTime
  levels := s.router.levels

/-- A settings save begins (R219): the copy is taken, and no valid image is left until it ends well. -/
def beginSave (s : State) : State :=
  s.setStore { s.store with state := .saving, image := none, copy := some (capture s) }

/-- A settings save ends (R219). -/
def endSave (s : State) (ok : Bool) : State :=
  if s.saving then
    (s.setStore { s.store with
      state := if ok then .valid else .invalid
      image := if ok then s.store.copy else none
      copy := none }).raise (.storeResult ok)
  else s

/-! ### Frames that no request row executes -/

/-- The answer of R214 to a frame's kind and body: the reply kind and code, or `none` for a request the part knows. -/
def linkRefusal (f : Frame) : Option (Byte × ReplyCode) :=
  if f.kind = 0 ∨ 0x7F ≤ f.kind then some (0xFF, .unknownKind)
  else if !knownKinds.contains f.kind then some (f.kind + 128, .unknownKind)
  else if (requestOf f).isNone then some (f.kind + 128, .badLength)
  else none

end Sys2Proof.Machine
end

