-- ==== Sys2Proof/Machine/LinkCommands.lean ====
section
/-! DEFINITION. Meanings of the link requests (R214 to R220) and of the events of the line, the store and the reset. -/

namespace Sys2Proof.Machine

/-- The part name of IDENTIFY, 12 ASCII characters (R216). -/
def partName : List Item :=
  [0x4C, 0x55, 0x53, 0x41, 0x52, 0x49, 0x4E, 0x20, 0x34, 0x38, 0x32, 0x30].map Item.u8

/-- IDENTIFY (R216). -/
def execIdentify (tag : Byte) (s : State) : Host.Outcome State Fault Refusal :=
  serve (.identify tag) (fun s => plain s
    (partName ++ [Item.u8 1, Item.u8 (storeStateCode s.store.state), Item.u8 (firstCode s.store.loaded), Item.u32 s.link.baud])) s

/-- The items of LINK_STATUS (R217). -/
def linkItems (s : State) : List Item :=
  [Item.u16 s.link.errors, Item.u16 s.link.overruns, Item.u16 s.link.breaks, Item.u8 s.link.rxQueue.length, Item.u8 s.link.replies.length,
    Item.u8 s.router.notices.length, Item.u8 s.eligible.length, Item.u8 s.router.floor, Item.u32 s.link.baud]

/-- LINK_STATUS (R217). The reply shows the counters before they are cleared. -/
def execLinkStatus (tag : Byte) (clear : Nat) (s : State) : Host.Outcome State Fault Refusal :=
  serve (.linkStatus tag clear) (fun s =>
    match flagOf clear with
    | none => .refuse .outOfRange 0
    | some false => plain s (linkItems s)
    | some true => plain (s.setLink { s.link with errors := 0, overruns := 0, breaks := 0 }) (linkItems s)) s

/-- SETTINGS_SAVE (R219). -/
def execSettingsSave (tag : Byte) (s : State) : Host.Outcome State Fault Refusal :=
  serve (.settingsSave tag) (fun s => checked [(!s.saving, .busy)] (plain (beginSave s) [])) s

/-- RESTART (R220): answered OK; the full reset follows at the end of that reply (`sendNext`). -/
def execRestart (tag : Byte) (s : State) : Host.Outcome State Fault Refusal :=
  serve (.restart tag) (fun s => checked [(!s.saving, .busy)] (plain s [])) s

/-- UNKNOWN_KIND (R214): a taken frame that no request row executes is answered UNKNOWN_KIND or BAD_LENGTH, in its turn. A frame
that does carry a request is its own row's to execute. -/
def execUnknownKind (tag kind : Byte) (body : List Byte) (s : State) : Host.Outcome State Fault Refusal :=
  let f : Frame := ⟨kind, tag, body⟩
  match linkRefusal f with
  | none => .next s
  | some (replyKind, code) =>
    if s.replyRoom && decide (s.link.rxQueue = [] ∨ s.link.rxQueue.head? = some f) then
      .next (answer (dropFrame s) ⟨replyKind, tag, code, 0, []⟩)
    else .next s

/-- FRAME_RECEIVE (R213): the receiver takes the characters one by one. -/
def execFrameReceive (chars : List Byte) (s : State) : Host.Outcome State Fault Refusal :=
  .next (chars.foldl takeChar s)

/-- RECEIVE_ERROR (R213). -/
def execReceiveError (s : State) : Host.Outcome State Fault Refusal := .next (framingError s)

/-- LINK_BREAK (R215). -/
def execLinkBreak (s : State) : Host.Outcome State Fault Refusal := .next (breakLine s)

/-- FRAME_SENT (R199). -/
def execFrameSent (s : State) : Host.Outcome State Fault Refusal := .next (sendNext s)

/-- FULL_RESET (R220). -/
def execFullReset (strapB strapA : Bool) (s : State) : Host.Outcome State Fault Refusal :=
  .next (fullReset s strapB strapA)

/-- SETTINGS_SAVE_END (R219). -/
def execSettingsSaveEnd (ok : Bool) (s : State) : Host.Outcome State Fault Refusal := .next (endSave s ok)

end Sys2Proof.Machine
end

