-- ==== Sys2Proof/Machine/MillCommands.lean ====
section
/-! DEFINITION. Meanings of the Mill Controller's requests (R116 to R133) and of its intervals, timers and feedback (R122 to
R129). -/

namespace Sys2Proof.Machine

/-! ### The grind queue -/

/-- GRIND_QUEUE (R116). -/
def execGrindQueue (tag : Byte) (number source destination screen level : Nat) (s : State) :
    Host.Outcome State Fault Refusal :=
  serve (.grindQueue tag number source destination screen level) (fun s =>
    checked
      [(decide (1 ≤ number ∧ number ≤ 61440 ∧ 1 ≤ screen ∧ screen ≤ 8 ∧ 1 ≤ source ∧ source ≤ Config.binCount ∧
          1 ≤ destination ∧ destination ≤ Config.binCount), .outOfRange),
        ((s.grind number).isNone, .inUse), (decide (s.mill.queue.length < Config.grindCap), .noRoom),
        ((s.bin source).isSome && (s.bin destination).isSome, .noSuch),
        (sourceFit s source && destinationFit s destination, .wrongState),
        (decide (level ≤ ((s.bin destination).map (·.cfg.capacity)).getD 0), .outOfRange)]
      (.accept (s.setMill { s.mill with
        queue := s.mill.queue ++ [⟨number, source, destination, screen, level, .waiting, 0⟩] }, [.serving])
        (fun _ => []))) s

/-- A live grind request named by a request, or NO_SUCH. -/
def withGrind (s : State) (n : Nat) (f : GrindRequest → Verdict) : Verdict :=
  match s.grind n with
  | none => .refuse .noSuch 0
  | some r => f r

/-- The mill's feed stops and its transfer ends. -/
def millCease (s : State) : Result := endTransfer (millFeedOff s) .mill

/-- The execution of GRIND_CANCEL (R132). -/
def cancelGrind (s : State) (n : Nat) : Result :=
  if s.mill.current = some n then
    let drop (t : State) : State := (t.dropGrind n).setMill { (t.dropGrind n).mill with current := none }
    if s.mill.state = .running then (millCease s).andThen (fun t => enterDraining (drop t)) else (drop s).done
  else (s.dropGrind n).done

/-- GRIND_CANCEL (R132). -/
def execGrindCancel (tag : Byte) (number : Nat) (s : State) : Host.Outcome State Fault Refusal :=
  serve (.grindCancel tag number) (fun s =>
    withGrind s number (fun r => .accept (cancelGrind s number) (fun _ => [Item.u32 r.ground]))) s

/-- Whether a grind request is HELD (R115). -/
def GrindRequest.isHeld (r : GrindRequest) : Bool :=
  match r.state with
  | .held _ => true
  | _ => false

/-- GRIND_RESUME (R132). -/
def execGrindResume (tag : Byte) (number : Nat) (s : State) : Host.Outcome State Fault Refusal :=
  serve (.grindResume tag number) (fun s =>
    withGrind s number (fun r =>
      checked [(r.isHeld, .wrongState)] (.accept (s.putGrind { r with state := .waiting }, [.serving]) (fun _ => [])))) s

/-- GRIND_ARM (R118). -/
def execGrindArm (tag : Byte) (bin arming : Nat) (s : State) : Host.Outcome State Fault Refusal :=
  serve (.grindArm tag bin arming) (fun s =>
    match armingOf arming with
    | none => .refuse .outOfRange 0
    | some a =>
      if bin = 0 ∨ Config.binCount < bin then .refuse .outOfRange 0
      else
        match s.bin bin with
        | none => .refuse .noSuch 0
        | some v =>
          checked [(decide (v.cfg.kind = .ground), .wrongState), (!s.saving, .busy)]
            (plain (s.setBin bin { v with cfg := { v.cfg with arming := a } })
              [Item.u8 (armingCode v.cfg.arming), Item.u8 (flagCode (decide (v.onHand < v.cfg.lowMark)))])) s

/-- SCREEN_FITTED (R120). -/
def execScreenFitted (tag : Byte) (screen : Nat) (s : State) : Host.Outcome State Fault Refusal :=
  serve (.screenFitted tag screen) (fun s =>
    checked [(decide (1 ≤ screen ∧ screen ≤ 8), .outOfRange), (decide (s.mill.state = .stopped), .wrongState)]
      (.accept (s.setMill { s.mill with fitted := screen, screenMemory := none }, [.serving]) (fun _ => []))) s

/-- MILL_SET (R121). -/
def execMillSet (tag : Byte) (settings : MillSettings) (s : State) : Host.Outcome State Fault Refusal :=
  serve (.millSet tag settings) (fun s =>
    checked [(millOk settings, .outOfRange), (!s.saving, .busy)]
      (plain (s.setMill { s.mill with settings := settings }) [])) s

/-! ### MILL_RESUME and MILL_STOP -/

/-- The mill enters STOPPED, and the serving selection runs (R119, R128). -/
def enterStopped (s : State) : Result :=
  (s.setMill { s.mill with state := .stopped, timer := none }, [.serving])

/-- Whether the running feedback is ACTIVE or not configured (R130). -/
def feedbackGood (s : State) : Bool := (s.inputWith .millRunning).isNone || s.useActive .millRunning

/-- Whether MILL_RESUME is refused with WRONG_STATE (R130). DESIGN CHOICE: so is a resume from HELD with the motor on, a current
request and a configured feedback that is not ACTIVE, for which the table has no row (notes/assumptions/25.md). -/
def resumeRefused (s : State) : Bool :=
  match s.mill.state with
  | .stopped | .stopping => false
  | .held reason =>
    decide (reason = .overload ∧ (s.mill.settings.iTrip : Int) < (s.readAnalog 0).1) ||
      (s.asked .millMotor && s.currentGrind.isSome && !feedbackGood s)
  | _ => true

/-- MILL_RESUME by the mill's state, its stop mark cleared (R130). -/
def resumeMill (s : State) : Result :=
  let s := s.setMill { s.mill with stopMark := false }
  match s.mill.state with
  | .stopped => (s, [.serving])
  | .held _ =>
    if s.asked .millMotor then (if s.currentGrind.isSome then enterRunning s else enterDraining s)
    else if s.currentGrind.isSome then enterStarting s
    else enterStopped s
  | _ => s.done

/-- MILL_RESUME (R130). -/
def execMillResume (tag : Byte) (s : State) : Host.Outcome State Fault Refusal :=
  serve (.millResume tag) (fun s =>
    checked [(!s.stopped, .lineStopped), (!resumeRefused s, .wrongState)] (.accept (resumeMill s) (fun _ => []))) s

/-- MILL_STOP by the mill's state, its stop mark set (R131). A current request that returns to WAITING is followed by a
selection, which takes no request here (R119). -/
def haltMill (s : State) : Result :=
  let s := s.setMill { s.mill with stopMark := true }
  let again : List Task := if s.currentGrind.isSome then [.serving] else []
  match s.mill.state with
  | .running => ((millCease s).andThen (fun t => enterDraining (millReturn t))).andThen (fun t => (t, again))
  | .starting | .idleRun => (enterStopping (millReturn s), again)
  | .held _ =>
    if s.asked .millMotor then (enterDraining (millReturn s)).andThen (fun t => (t, again))
    else enterStopped (millReturn s)
  | _ => s.done

/-- MILL_STOP (R131). -/
def execMillStop (tag : Byte) (s : State) : Host.Outcome State Fault Refusal :=
  serve (.millStop tag) (fun s => .accept (haltMill s) (fun u => [Item.u8 (millStateCode u.mill.state)])) s

/-! ### MILL_READ (R133) -/

/-- The kind of a running mill timer, start 0, warm 1, drain 2, idle 3 or run-down 4, and its remaining time. -/
def MillTimer.code : MillTimer → Nat × Tenths
  | .start left => (0, left)
  | .warm left => (1, left)
  | .drain left => (2, left)
  | .idle left => (3, left)
  | .rundown left => (4, left)

/-- A live grind request (R115). -/
def grindItems (r : GrindRequest) : List Item :=
  [Item.u16 r.number, Item.u8 r.source, Item.u8 r.destination, Item.u8 r.screen, Item.u32 r.level,
    Item.u8 (grindStateCode r.state)] ++
    optItem Item.u8 (match r.state with
      | .held reason => some (grindReasonCode reason)
      | _ => none) ++
    [Item.u32 r.ground]

/-- The items of MILL_READ (R133). -/
def millReadItems (s : State) : List Item :=
  let m := s.mill
  [Item.u8 (millStateCode m.state)] ++
    optItem Item.u8 (match m.state with
      | .held reason => some (millReasonCode reason)
      | _ => none) ++
    [Item.u8 (firstCode (s.asked .millMotor))] ++ optItem Item.u16 m.current ++
    [Item.u8 m.fitted, Item.u8 (firstCode m.stopMark), Item.u8 (firstCode m.engaged), Item.u16 m.u.toNat,
      Item.i32 m.ePrev, Item.i16 (s.readAnalog 0).1, Item.u8 (flagCode (s.readAnalog 0).2), Item.u16 m.overloadCount,
      Item.u16 m.noFlowCount] ++
    timerItems (m.timer.map MillTimer.code) ++ optItem Item.u16 m.screenMemory ++ millItems m.settings ++ listItems m.queue grindItems

/-- MILL_READ (R133). -/
def execMillRead (tag : Byte) (s : State) : Host.Outcome State Fault Refusal :=
  serve (.millRead tag) (fun s => plain s (millReadItems s)) s

/-! ### Events -/

/-- MILL_LOOP_INTERVAL (R123, R124). -/
def execMillLoopInterval (position : Int) (s : State) : Host.Outcome State Fault Refusal :=
  outcome (loopInterval (s.setAnalogPin 0 position))

/-- Whether the mill runs with its loop engaged (R123). -/
def millFeeding (s : State) : Bool := decide (s.mill.state = .running) && s.mill.engaged

/-- The overload count rises by 1 and reaches the trip time (R126). -/
def overloadReached (s : State) : Result :=
  if millFeeding s && decide (intervalsOf s.mill.settings.tripTime 5 ≤ s.mill.overloadCount + 1) then
    overload (s.setMill { s.mill with overloadCount := s.mill.overloadCount + 1 })
  else s.done

/-- MILL_OVERLOAD (R126). -/
def execMillOverload (s : State) : Host.Outcome State Fault Refusal := outcome (overloadReached s)

/-- The no-flow count rises by 1 and reaches the no-flow time (R127). -/
def noFlowReached (s : State) : Result :=
  if millFeeding s && decide (intervalsOf s.mill.settings.noFlowTime 5 ≤ s.mill.noFlowCount + 1) then
    noFlow (s.setMill { s.mill with noFlowCount := s.mill.noFlowCount + 1 })
  else s.done

/-- MILL_NO_FLOW (R127). -/
def execMillNoFlow (s : State) : Host.Outcome State Fault Refusal := outcome (noFlowReached s)

/-- The start timer expires (R122). -/
def millStartExpiry (s : State) : Result :=
  match s.mill.state, s.mill.timer with
  | .starting, some (.start _) => holdMill s .noStart false
  | _, _ => s.done

/-- MILL_START_TIMEOUT (R122). -/
def execMillStartTimeout (s : State) : Host.Outcome State Fault Refusal := outcome (millStartExpiry s)

/-- The warm timer expires (R122). -/
def millWarmExpiry (s : State) : Result :=
  match s.mill.state, s.mill.timer with
  | .starting, some (.warm _) => warmEnd s
  | _, _ => s.done

/-- MILL_WARM_TIMEOUT (R122). -/
def execMillWarmTimeout (s : State) : Host.Outcome State Fault Refusal := outcome (millWarmExpiry s)

/-- The drain timer expires (R128). -/
def millDrainExpiry (s : State) : Result :=
  match s.mill.state, s.mill.timer with
  | .draining, some (.drain _) => drainEnd s
  | _, _ => s.done

/-- MILL_DRAIN_TIMEOUT (R128). -/
def execMillDrainTimeout (s : State) : Host.Outcome State Fault Refusal := outcome (millDrainExpiry s)

/-- The idle timer expires (R128). -/
def millIdleExpiry (s : State) : Result :=
  match s.mill.state, s.mill.timer with
  | .idleRun, some (.idle _) => (enterStopping s).done
  | _, _ => s.done

/-- MILL_IDLE_TIMEOUT (R128). -/
def execMillIdleTimeout (s : State) : Host.Outcome State Fault Refusal := outcome (millIdleExpiry s)

/-- The run-down timer expires (R128). -/
def millRundownExpiry (s : State) : Result :=
  match s.mill.state, s.mill.timer with
  | .stopping, some (.rundown _) => enterStopped s
  | _, _ => s.done

/-- MILL_RUNDOWN_TIMEOUT (R128). -/
def execMillRundownTimeout (s : State) : Host.Outcome State Fault Refusal := outcome (millRundownExpiry s)

/-- The running feedback is found (R122). -/
def millFoundEvent (s : State) : Result :=
  match s.mill.state, s.mill.timer with
  | .starting, some (.start _) => millFound s
  | _, _ => s.done

/-- MILL_FEEDBACK_FOUND (R122). -/
def execMillFeedbackFound (s : State) : Host.Outcome State Fault Refusal :=
  outcome (millFoundEvent (s.takeOffered .millFeedbackFound))

/-- MILL_FEEDBACK_LOST (R129). -/
def execMillFeedbackLost (s : State) : Host.Outcome State Fault Refusal :=
  outcome (millFeedbackLoss (s.takeOffered .millFeedbackLost))

end Sys2Proof.Machine
end

