-- ==== Sys2Proof/Machine/PlantCommands.lean ====
section
/-! DEFINITION. Meanings of the requests of Plant I/O and the Route Arbiter (R62 to R85) and of their events (R60, R77,
R81). -/

namespace Sys2Proof.Machine

/-! ### Inputs and outputs -/

/-- The input configuration that raw fields in range give (R61, R62). -/
def inputConfigOf (polarity debounce type use : Nat) : Option InputConfig :=
  match flagOf polarity, flagOf type, inputUseOf use with
  | some inverted, some level, some u =>
    if debounce ≤ 250 ∧ debounce % 10 = 0 ∧ typeSuits u (!level) = true then some ⟨inverted, debounce, !level, u⟩ else none
  | _, _, _ => none

/-- Whether a use may be given to input `n`: one that is exclusive belongs to no other input (R62 check 3). -/
def useFree (s : State) (n : Nat) (use : InputUse) : Bool :=
  decide (use = .none ∨ use = .permissive) ||
    s.io.inputs.all (fun e => decide (e.1 = n ∨ e.2.cfg.use ≠ use))

/-- Whether some route names an input as a permissive (R62 check 5). -/
def routeNames (s : State) (n : Nat) : Bool :=
  s.arb.routes.any (fun e => e.2.permissives.any (fun p => decide (p.input = n)))

/-- INPUT_DEFINE (R62). -/
def execInputDefine (tag : Byte) (input polarity debounce type use : Nat) (s : State) :
    Host.Outcome State Fault Refusal :=
  serve (.inputDefine tag input polarity debounce type use) (fun s =>
    match inputConfigOf polarity debounce type use with
    | none => .refuse .outOfRange 0
    | some cfg =>
      checked [(decide (input < Config.pinCount), .outOfRange), (!s.saving, .busy), (useFree s input cfg.use, .inUse),
          (decide (cfg.use = .none) || (s.probeBin input).isNone, .inUse),
          (decide (cfg.use = .permissive) || !routeNames s input, .inUse)]
        (plain (s.setPin input ⟨cfg, none, 0⟩) [])) s

/-- An output leaves its role and takes another; a free output is off (R65). -/
def giveRole (s : State) (n : Nat) (r : Option Role) : State :=
  let cleared := Table.del s.io.roles n
  let roles := match r with
    | some x => Table.set cleared n x
    | none => cleared
  let owned := s.outputOwned n
  s.setIO { s.io with
    roles := roles
    freeOn := if owned || r.isSome then Table.del s.io.freeOn n else s.io.freeOn }

/-- OUTPUT_DEFINE (R65). A free output that is given the role FREE again keeps its state. -/
def execOutputDefine (tag : Byte) (output role : Nat) (s : State) : Host.Outcome State Fault Refusal :=
  serve (.outputDefine tag output role) (fun s =>
    let r := roleOf role
    checked [(decide (output < Config.pinCount) && (r.isSome || decide (role = roleFree)), .outOfRange),
        (!s.saving, .busy),
        ((match r with
          | some x => decide (s.roleOutput x = none ∨ s.roleOutput x = some output)
          | none => true), .inUse),
        ((s.feederBin (.discrete output)).isNone, .inUse), (!s.gateInUse output, .inUse)]
      (plain (giveRole s output r) [])) s

/-- A number whose bit `n` is set where `f n` holds, over the 64 outputs (R207). -/
def maskOf (f : Nat → Bool) : Nat := ((List.range Config.pinCount).map (fun n => if f n then 2 ^ n else 0)).sum

/-- The free outputs of a mask are switched (R66). -/
def switchFree (s : State) (mask : Nat) (on : Bool) : State :=
  s.setIO { s.io with
    freeOn := (List.range Config.pinCount).foldl (fun t n =>
      if mask.testBit n && !s.outputOwned n then Table.put false t n on else t) s.io.freeOn }

/-- The reply's items of OUTPUT_SET and OUTPUT_CLEAR: the ignored outputs and the states afterwards (R66). -/
def outputItems (s : State) (mask : Nat) : List Item :=
  [Item.u64 (maskOf (fun n => mask.testBit n && s.outputOwned n)), Item.u64 (maskOf s.outputOn)]

/-- OUTPUT_SET (R66). -/
def execOutputSet (tag : Byte) (mask : Nat) (s : State) : Host.Outcome State Fault Refusal :=
  serve (.outputSet tag mask) (fun s =>
    checked [(!s.stopped, .lineStopped)] (.accept (switchFree s mask true).done (fun u => outputItems u mask))) s

/-- OUTPUT_CLEAR (R66). -/
def execOutputClear (tag : Byte) (mask : Nat) (s : State) : Host.Outcome State Fault Refusal :=
  serve (.outputClear tag mask) (fun s => .accept (switchFree s mask false).done (fun u => outputItems u mask)) s

/-- ANALOG_DEFINE (R68). -/
def execAnalogDefine (tag : Byte) (input : Nat) (bottom top : Int) (s : State) : Host.Outcome State Fault Refusal :=
  serve (.analogDefine tag input bottom top) (fun s =>
    checked [(decide (input < 8 ∧ -32768 ≤ bottom ∧ bottom ≤ 32767 ∧ -32768 ≤ top ∧ top ≤ 32767), .outOfRange),
        (!s.saving, .busy)]
      (plain (s.setIO { s.io with spans := Table.put defaultSpan s.io.spans input (bottom, top) }) [])) s

/-- ANALOG_SET (R69). -/
def execAnalogSet (tag : Byte) (output value : Nat) (s : State) : Host.Outcome State Fault Refusal :=
  serve (.analogSet tag output value) (fun s =>
    checked [(decide (output < 4), .outOfRange), (decide (2 ≤ output), .inUse)]
      (plain (s.setAnalogOut output (min value 1000))
        [Item.u16 (min value 1000), Item.u8 (flagCode (decide (1000 < value)))])) s

/-! ### IO_READ (R70) -/

/-- An input's use, or the bin whose probe it is (R70). DESIGN CHOICE: two bytes in every case, the use, 15 for a probe, and the bin,
0 for an input that is no probe (notes/assumptions/6.md). -/
def inputRoleItems (s : State) (n : Nat) : List Item :=
  match s.probeBin n with
  | some b => [Item.u8 15, Item.u8 b]
  | none => [Item.u8 (inputUseCode (s.pin n).cfg.use), Item.u8 0]

/-- An output's owner (R70). DESIGN CHOICE: two bytes in every case, the role, 19 for FREE and 20 for a feeder, and the bin, 0 for an
output that is no feeder (notes/assumptions/6.md). -/
def outputOwnerItems (s : State) (n : Nat) : List Item :=
  match s.feederBin (.discrete n) with
  | some b => [Item.u8 20, Item.u8 b]
  | none =>
    match Table.get s.io.roles n with
    | some r => [Item.u8 (roleCode r), Item.u8 0]
    | none => [Item.u8 roleFree, Item.u8 0]

/-- The Line Stop with its causes, INPUT in bit 0 and REQUEST in bit 1 (R81). -/
def lineStopItems (l : LineStop) : List Item :=
  [Item.u8 (firstCode l.inForce), Item.u8 (flagCode l.byInput + 2 * flagCode l.byRequest)]

/-- The items of IO_READ (R70). An input with no debounced state reads INACTIVE, as R60 says of the time after a full reset.
DESIGN CHOICE: so does one that INPUT_DEFINE has rewritten (notes/assumptions/59.md); the inputs are sent as 64 states and the outputs
as one mask (notes/assumptions/6.md). -/
def ioItems (s : State) : List Item :=
  let pins := List.range Config.pinCount
  pins.map (fun n => Item.u8 (activeCode (decide ((s.pin n).active = some true)))) ++ pins.flatMap (inputRoleItems s) ++
    [Item.u64 (maskOf s.outputOn)] ++ pins.flatMap (outputOwnerItems s) ++
    (List.range Config.speedCount).map (fun n => Item.u16 (s.speedOut n)) ++
    (List.range 8).flatMap (fun n => [Item.i16 (s.readAnalog n).1, Item.u8 (flagCode (s.readAnalog n).2)]) ++
    (List.range 4).map (fun n => Item.u16 (Table.getD 0 s.io.analogOut n)) ++ lineStopItems s.arb.stop

/-- IO_READ (R70). -/
def execIoRead (tag : Byte) (s : State) : Host.Outcome State Fault Refusal :=
  serve (.ioRead tag) (fun s => plain s (ioItems s)) s

/-! ### Routes and the arbiter -/

/-- The required states a route's permissive fields name; 0 is ACTIVE (R71). -/
def permissivesOf (l : List PermissiveField) : List Permissive := l.map (fun p => ⟨p.input, decide (p.required = 0)⟩)

/-- The ranges of ROUTE_DEFINE (R72 check 1). -/
def routeInRange (route : Nat) (ps : List PermissiveField) (rs : List Nat) : Bool :=
  decide (1 ≤ route ∧ route ≤ Config.routeCount ∧ ps.length ≤ 6 ∧ rs.length ≤ 4) &&
    ps.all (fun p => decide (p.input < Config.pinCount ∧ p.required < 2)) &&
    rs.all (fun r => decide (1 ≤ r ∧ r ≤ Config.resourceCount)) && decide ((ps.map (·.input)).Nodup ∧ rs.Nodup)

/-- Whether a transfer in the table uses a route, in any state (R72 check 4). -/
def routeInUse (s : State) (route : Nat) : Bool :=
  s.arb.transfers.any (fun e => e.2.legs.any (fun leg => decide (leg.route = route)))

/-- ROUTE_DEFINE (R72). -/
def execRouteDefine (tag : Byte) (route : Nat) (permissives : List PermissiveField) (resources : List Nat) (s : State) :
    Host.Outcome State Fault Refusal :=
  serve (.routeDefine tag route permissives resources) (fun s =>
    checked [(routeInRange route permissives resources, .outOfRange), (!s.saving, .busy),
        (permissives.all (fun p => decide ((s.pin p.input).cfg.use = .permissive)), .wrongState),
        (!routeInUse s route, .inUse)]
      (plain (s.setArb { s.arb with
        routes := Table.put emptyRoute s.arb.routes route ⟨permissivesOf permissives, resources⟩ }) [])) s

/-- ARBITER_SET (R73). -/
def execArbiterSet (tag : Byte) (permitTime : Tenths) (s : State) : Host.Outcome State Fault Refusal :=
  serve (.arbiterSet tag permitTime) (fun s =>
    checked [(decide (1 ≤ permitTime ∧ permitTime ≤ 6000), .outOfRange), (!s.saving, .busy)]
      (plain (s.setArb { s.arb with permitTime := permitTime }) [])) s

/-- A resource's holder: its slot and owner (R85). DESIGN CHOICE: one presence byte for both, 0 when the resource is FREE
(notes/assumptions/6.md). -/
def resourceItems (s : State) (n : Nat) : List Item :=
  match s.arb.transfers.find? (fun e => e.2.held.contains n) with
  | some (slot, t) => [Item.u8 1, Item.u8 slot, Item.u8 (ownerCode t.owner)]
  | none => [Item.u8 0, Item.u8 0, Item.u8 0]

/-- An abort cause, PERMIT 0 or LINE_STOP 1, with route and input for PERMIT; each may be absent (R74, R207). -/
def abortItems (cause : Option AbortCause) : List Item :=
  let parts : Option Nat × Option Nat × Option Nat := match cause with
    | some (.permit route input) => (some 0, some route, some input)
    | some .lineStop => (some 1, none, none)
    | none => (none, none, none)
  optItem Item.u8 parts.1 ++ optItem Item.u8 parts.2.1 ++ optItem Item.u8 parts.2.2

/-- A value shown in one state of a transfer and absent in the others. -/
def shownIn (t : Transfer) (state : TransferState) (v : Nat) : Option Nat := if t.state = state then some v else none

/-- A transfer in its slot as RESOURCE_READ shows it: its place in the waiting list if WAITING, its remaining permit time and
expired mark if PERMIT_WAIT, its abort cause if ABORTED, each absent otherwise (R85, R207). DESIGN CHOICE: the slot number is
sent first, and the place of the oldest waiting transfer is 1 (notes/assumptions/6.md). -/
def transferItems (s : State) (slot : Nat) (t : Transfer) : List Item :=
  [Item.u8 slot, Item.u8 (ownerCode t.owner)] ++
    listItems t.legs (fun leg => [Item.u8 leg.bin, Item.u8 (flagCode leg.fills), Item.u8 leg.route]) ++
    [Item.u8 (transferStateCode t.state)] ++ optItem Item.u8 (shownIn t .waiting (s.arb.waiting.idxOf slot + 1)) ++
    optItem Item.u16 (shownIn t .permitWait (t.timer.getD 0)) ++
    optItem Item.u8 (shownIn t .permitWait (flagCode t.expired)) ++
    abortItems (if t.state = .aborted then t.cause else none)

/-- RESOURCE_READ (R85). -/
def execResourceRead (tag : Byte) (s : State) : Host.Outcome State Fault Refusal :=
  serve (.resourceRead tag) (fun s => plain s
    (((List.range Config.resourceCount).map (· + 1)).flatMap (resourceItems s) ++
      listItems s.arb.transfers (fun e => transferItems s e.1 e.2) ++ [Item.u16 s.arb.permitTime] ++
      lineStopItems s.arb.stop)) s

/-- LINE_STOP (R83). -/
def execLineStop (tag : Byte) (s : State) : Host.Outcome State Fault Refusal :=
  serve (.lineStop tag) (fun s =>
    .accept (bringLineStop s .request) (fun _ => [Item.u8 (flagCode s.stopped)])) s

/-- A Line Stop is cleared (R84); the start selection, the room check, the serving selection and a waiting discharge follow
it (R96, R97, R107, R119). DESIGN CHOICE: in this order (notes/assumptions/77.md). -/
def clearLineStop (s : State) : Result :=
  (s.setArb { s.arb with stop := ⟨false, false, false⟩ }, [.startSelection, .roomCheck, .serving, .tryDischarge])

/-- LINE_RESUME (R84). -/
def execLineResume (tag : Byte) (s : State) : Host.Outcome State Fault Refusal :=
  serve (.lineResume tag) (fun s =>
    if !s.stopped then plain s []
    else checked [(!s.useActive .lineStop, .wrongState)] (.accept (clearLineStop s) (fun _ => []))) s

/-! ### Events -/

/-- INPUT_SAMPLE (R60). -/
def execInputSample (levels : Nat) (analog : List Int) (s : State) : Host.Outcome State Fault Refusal :=
  outcome (takeInputSample s levels analog)

/-- LINE_STOP_INPUT_ACTIVE (R81). -/
def execLineStopInputActive (s : State) : Host.Outcome State Fault Refusal :=
  outcome (bringLineStop (s.takeOffered .lineStopInput) .input)

/-- PERMIT_TIMEOUT (R77). -/
def execPermitTimeout (slot : Nat) (s : State) : Host.Outcome State Fault Refusal := outcome (permitExpiry s slot)

end Sys2Proof.Machine
end

