-- ==== Sys2Proof/Machine/PressCommands.lean ====
section
/-! DEFINITION. Meanings of the Press Controllers' requests (R135 to R159) and of their intervals, timers, buttons and
feedback (R141 to R156). -/

namespace Sys2Proof.Machine

/-- Both presses, press 1 first. -/
def presses : List PressId := [.one, .two]

/-- A press named by a request, or OUT_OF_RANGE. -/
def withPress (n : Nat) (f : PressId → Verdict) : Verdict :=
  match pressOf n with
  | none => .refuse .outOfRange 0
  | some p => f p

/-! ### Profiles (R135) -/

/-- Whether a number is a profile's (R134). -/
def profileNumber (n : Nat) : Bool := decide (1 ≤ n ∧ n ≤ Config.profileCount)

/-- How many queued runs of both presses name a profile (R135). -/
def queuedOn (s : State) (n : Nat) : Nat :=
  ((presses.map (fun p => ((s.pressAt p).queue.filter (fun r => decide (r.profile = n))).length))).sum

/-- How many active runs of both presses name a profile (R135). -/
def activeOn (s : State) (n : Nat) : Nat :=
  (presses.filter (fun p => decide ((s.pressAt p).active.map (·.profileNumber) = some n))).length

/-- PROFILE_SET (R135). -/
def execProfileSet (tag : Byte) (profile : Nat) (fields : ProfileFields) (s : State) :
    Host.Outcome State Fault Refusal :=
  serve (.profileSet tag profile fields) (fun s =>
    if fields.feedRate = 0 then
      checked [(profileNumber profile, .outOfRange), (!s.saving, .busy), (decide (queuedOn s profile = 0), .inUse)]
        (plain (s.setPresses { s.press with profiles := Table.del s.press.profiles profile }) [])
    else
      match profileOf fields with
      | none => .refuse .outOfRange 0
      | some entry =>
        checked [(profileNumber profile, .outOfRange), (!s.saving, .busy)]
          (plain (s.setPresses { s.press with profiles := Table.set s.press.profiles profile entry }) [])) s

/-- A profile entry as the fields of R134. -/
def profileFieldsOf (e : Profile) : ProfileFields where
  feedRate := e.feedRate
  temperature := e.temperature
  loadLimit := e.loadLimit
  tripLevel := e.tripLevel
  tripTime := e.tripTime
  hysteresis := e.hysteresis
  coldBand := e.coldBand
  carryBack := firstCode e.carryBack

/-- PROFILE_READ (R135). -/
def execProfileRead (tag : Byte) (profile : Nat) (s : State) : Host.Outcome State Fault Refusal :=
  serve (.profileRead tag profile) (fun s =>
    checked [(profileNumber profile, .outOfRange)]
      (let entry := Table.get s.press.profiles profile
      let blank : ProfileFields := ⟨0, 0, 0, 0, 0, 0, 0, 0⟩
      plain s (Item.u8 (flagCode entry.isSome) :: profileItems ((entry.map profileFieldsOf).getD blank) ++
        [Item.u8 (queuedOn s profile + activeOn s profile)]))) s

/-! ### Configuration and queue (R136 to R139) -/

/-- Whether a surge bin suits a press (R136 check 5). -/
def surgeSuits (v : Bin) (p : PressId) : Bool :=
  decide (v.cfg.kind = .surge ∧ v.cfg.outlet = pressOutlet p) && v.cfg.feeder.isSpeed

/-- PRESS_SET (R136). -/
def execPressSet (tag : Byte) (press : Nat) (fields : PressFields) (s : State) : Host.Outcome State Fault Refusal :=
  serve (.pressSet tag press fields) (fun s =>
    withPress press (fun p =>
      match pressConfigOf p fields with
      | none => .refuse .outOfRange 0
      | some cfg =>
        let bin := s.bin cfg.surgeBin
        checked [(!s.saving, .busy), (decide ((s.pressAt p).state = .idle), .wrongState),
            (decide (cfg.surgeBin = 0) || bin.isSome, .noSuch),
            (decide (cfg.surgeBin = 0) || (bin.map (fun v => surgeSuits v p)).getD false, .wrongState)]
          (plain (s.modPress p (fun x => { x with cfg := cfg })) []))) s

/-- Whether a run number is that of a queued or active run of either press (R138 check 2). -/
def runKnown (s : State) (n : Nat) : Bool :=
  presses.any (fun p => (s.pressAt p).queue.any (fun r => decide (r.number = n)) ||
    decide ((s.pressAt p).active.map (·.number) = some n))

/-- The ranges of RUN_QUEUE (R138 check 1). -/
def runInRange (r : RunFields) : Bool :=
  decide (1 ≤ r.number ∧ r.number ≤ max16 ∧ 1 ≤ r.product ∧ r.product ≤ max16 ∧ 1 ≤ r.destination ∧
    r.destination ≤ Config.binCount ∧ r.flushMass ≤ max32 ∧ r.massLimit ≤ max32 ∧ r.skip ≤ 15 ∧ r.copyFlag ≤ 1) &&
    profileNumber r.profile

/-- The run that fields in range give; its skip counter is loaded when it becomes head (R137). DESIGN CHOICE: it is 0 till
then (notes/assumptions/68.md). -/
def runOf (r : RunFields) (head : Bool) : Run :=
  ⟨r.number, r.profile, r.product, r.destination, r.flushMass, r.massLimit, r.skip, decide (r.copyFlag = 1),
    if head then r.skip else 0⟩

/-- RUN_QUEUE (R138). DESIGN CHOICE: the place in the queue that the reply carries counts from 1, the head
(notes/assumptions/6.md). -/
def execRunQueue (tag : Byte) (press : Nat) (run : RunFields) (s : State) : Host.Outcome State Fault Refusal :=
  serve (.runQueue tag press run) (fun s =>
    withPress press (fun p =>
      let queue := (s.pressAt p).queue
      let destination := s.bin run.destination
      checked [(runInRange run, .outOfRange), (!runKnown s run.number, .inUse),
          (decide (queue.length < Config.runCap), .noRoom),
          ((Table.get s.press.profiles run.profile).isSome, .noSuch), (destination.isSome, .noSuch),
          (decide (destination.map (·.cfg.kind) = some .finished), .wrongState),
          (decide (destination.map (·.cfg.code) = some run.product), .inUse),
          (decide (run.flushMass = 0) || s.reworkBin.isSome, .noSuch)]
        (plain (s.modPress p (fun x => { x with queue := x.queue ++ [runOf run queue.isEmpty] }))
          [Item.u8 (queue.length + 1)]))) s

/-- A queue without its run of a number; a run that becomes head has its skip counter loaded (R139). -/
def cancelRun (queue : List Run) (n : Nat) : List Run :=
  match queue with
  | [] => []
  | r :: rest => if r.number = n then loadHead rest else r :: rest.eraseP (fun x => decide (x.number = n))

/-- RUN_CANCEL (R139). -/
def execRunCancel (tag : Byte) (press number : Nat) (s : State) : Host.Outcome State Fault Refusal :=
  serve (.runCancel tag press number) (fun s =>
    withPress press (fun p =>
      let x := s.pressAt p
      if x.queue.any (fun r => decide (r.number = number)) then
        plain (s.modPress p (fun x => { x with queue := cancelRun x.queue number })) []
      else if x.active.map (·.number) = some number then .refuse .wrongState 0
      else .refuse .noSuch 0)) s

/-! ### Start, resume, stop -/

/-- The execution of PRESS_START (R142): the head run is activated, its event raised, and the press starts. -/
def startPress (s : State) (p : PressId) (r : Run) : Result :=
  pressStarting ((activateHead s p).raise (.pressChangeover p 0 r.number)) p

/-- PRESS_START (R142). -/
def execPressStart (tag : Byte) (press : Nat) (s : State) : Host.Outcome State Fault Refusal :=
  serve (.pressStart tag press) (fun s =>
    withPress press (fun p =>
      checked [(!s.stopped, .lineStopped), (decide ((s.pressAt p).state = .idle), .wrongState)]
        (match (s.pressAt p).queue with
          | [] => .refuse .noSuch 0
          | r :: _ =>
            match runRefusal s p r with
            | some code => .refuse code 0
            | none => .accept (startPress s p r) (fun _ => [])))) s

/-- Why the pending mark refuses a resume from CHOKED, PERMIT, NO_PERMIT or COLD, if it does: an empty queue, or a head that
is next to take over and unfit (R151, R152, R155). -/
def markRefusal (s : State) (p : PressId) : Option ReplyCode :=
  match (s.pressAt p).queue with
  | [] => some .wrongState
  | r :: _ => if 0 < r.skipCounter then none else runRefusal s p r

/-- The same for a press held NO_RUN or STARVED_OUT, whose head must be fit before a skip is counted (R155). -/
def owedRefusal (s : State) (p : PressId) : Option ReplyCode :=
  match (s.pressAt p).queue with
  | [] => some .wrongState
  | r :: _ => runRefusal s p r

/-- Why PRESS_RESUME is refused, if it is, by the first row that applies (R155). -/
def pressResumeRefusal (s : State) (p : PressId) : Option ReplyCode :=
  let x := s.pressAt p
  match x.state with
  | .choked =>
    if ((x.active.map (·.profile.loadLimit)).getD 0 : Int) ≤ (s.readAnalog (currentInput p)).1 then some .wrongState
    else if x.signalPending then markRefusal s p
    else none
  | .held .permit _ | .held .noPermit _ | .held .cold _ => if x.signalPending then markRefusal s p else none
  | .held .noRun cause =>
    if x.signalPending then owedRefusal s p
    else if cause = .destination ∧ (x.active.map (destinationOk s)).getD false = true then none
    else some .wrongState
  | .held .starvedOut _ => if x.signalPending then owedRefusal s p else some .wrongState
  | .held .motor _ | .held .lineStop _ => none
  | _ => some .wrongState

/-- The active rate after a choke: 40% of the profile rate, rounded (R155). -/
def chokeRate (a : ActiveRun) : Nat := rdivNat (40 * a.profile.feedRate) 100

/-- The execution of PRESS_RESUME (R155): a press with its motor off starts; otherwise it acts on a pending mark, or enters
its run's phase. -/
def resumePress (s : State) (p : PressId) : Result :=
  let x := s.pressAt p
  match x.state with
  | .held .motor _ | .held .lineStop _ => pressStarting s p
  | _ =>
    let s1 := if x.state = .choked then
      s.modPress p (fun x => { x with active := x.active.map (fun a => { a with activeRate := chokeRate a }) })
      else s
    if x.signalPending then (actSignal s1 p .resumed).1 else enterPhase s1 p

/-- PRESS_RESUME (R155). -/
def execPressResume (tag : Byte) (press : Nat) (s : State) : Host.Outcome State Fault Refusal :=
  serve (.pressResume tag press) (fun s =>
    withPress press (fun p =>
      checked [(!s.stopped, .lineStopped)]
        (match pressResumeRefusal s p with
          | some code => .refuse code 0
          | none => .accept (resumePress s p) (fun _ => [])))) s

/-- PRESS_STOP (R156). -/
def execPressStop (tag : Byte) (press : Nat) (s : State) : Host.Outcome State Fault Refusal :=
  serve (.pressStop tag press) (fun s =>
    withPress press (fun p =>
      if (s.pressAt p).state = .idle ∨ (s.pressAt p).state = .stopping then plain s []
      else .accept (pressStopNow s p) (fun _ => []))) s

/-! ### Trims and signals -/

/-- An active run with both trims brought into their range (R157). -/
def trimmed (a : ActiveRun) (rateTrim tempTrim : Int) : ActiveRun :=
  { a with rateTrim := clampInt (-200) 200 rateTrim, tempTrim := clampInt (-200) 200 tempTrim }

/-- PRESS_TRIM (R157). -/
def execPressTrim (tag : Byte) (press : Nat) (rateTrim tempTrim : Int) (s : State) :
    Host.Outcome State Fault Refusal :=
  serve (.pressTrim tag press rateTrim tempTrim) (fun s =>
    withPress press (fun p =>
      match (s.pressAt p).active with
      | none => .refuse .wrongState 0
      | some a =>
        let b := trimmed a rateTrim tempTrim
        plain (writeSteam (s.modPress p (fun x => { x with active := some b })) p b)
          [Item.i16 b.rateTrim, Item.i16 b.tempTrim, Item.u8 (flagCode (decide (b.rateTrim ≠ rateTrim))),
            Item.u8 (flagCode (decide (b.tempTrim ≠ tempTrim))), Item.u32 b.trimmedRate])) s

/-- What a signal did, the incoming run of a CHANGEOVER and the remaining skip count of a SKIPPED, each absent otherwise (R158,
R207, notes/assumptions/6.md). -/
def signalItems (o : SignalOutcome) : List Item :=
  let parts : Nat × Option Nat × Option Nat := match o with
    | .changed incoming => (0, some incoming, none)
    | .skipped left => (1, none, some left)
    | .heldNoRun => (2, none, none)
    | .marked => (3, none, none)
    | .ignored => (4, none, none)
  Item.u8 parts.1 :: (optItem Item.u16 parts.2.1 ++ optItem Item.u8 parts.2.2)

/-- CHANGEOVER_NOW (R158). -/
def execChangeoverNow (tag : Byte) (press : Nat) (s : State) : Host.Outcome State Fault Refusal :=
  serve (.changeoverNow tag press) (fun s =>
    withPress press (fun p =>
      checked [(!s.stopped, .lineStopped), ((s.pressAt p).active.isSome, .wrongState)]
        (let r := immediateSignal s p
        .accept r.1 (fun _ => signalItems r.2)))) s

/-! ### PRESS_READ (R159) -/

/-- A press configuration as the fields of R136. -/
def pressFieldsOf (c : PressConfig) : PressFields where
  surgeBin := c.surgeBin
  triggers := triggersCode c.triggers
  source := c.triggers.source.getD 0
  delay := c.delay
  buttonImmediate := firstCode c.buttonImmediate
  startTime := c.startTime
  rundownTime := c.rundownTime
  starveTime := c.starveTime
  resumeMass := c.resumeMass
  coldWait := c.coldWait

/-- The active run with its trimmed rate and active temperature, or absent (R140, R159). -/
def activeItems : Option ActiveRun → List Item
  | none =>
    [Item.u8 0, Item.u16 0, Item.u16 0, Item.u8 0, Item.u32 0, Item.u32 0] ++
      profileItems ⟨0, 0, 0, 0, 0, 0, 0, 0⟩ ++
      [Item.i16 0, Item.i16 0, Item.u32 0, Item.u8 0, Item.u32 0, Item.u32 0, Item.u32 0] ++ tallyItems ⟨[], false⟩ ++
      [Item.u8 0, Item.u8 0, Item.u8 0, Item.u8 0] ++ maybe false [] [Item.i16 0] ++ [Item.u32 0, Item.i16 0]
  | some a =>
    [Item.u8 1, Item.u16 a.number, Item.u16 a.product, Item.u8 a.destination, Item.u32 a.flushMass,
      Item.u32 a.massLimit] ++
      profileItems (profileFieldsOf a.profile) ++
      [Item.i16 a.rateTrim, Item.i16 a.tempTrim, Item.u32 a.activeRate, Item.u8 (runPhaseCode a.phase),
        Item.u32 a.drawn, Item.u32 a.delivered, Item.u32 a.flushed] ++ tallyItems a.tally ++
      [Item.u8 a.ignored, Item.u8 (flagCode a.limitMark), Item.u8 (flagCode a.copyDropped),
        Item.u8 (flagCode a.flushSkipped)] ++
      maybe a.chokeCurrent.isSome [Item.i16 (a.chokeCurrent.getD 0)] [Item.i16 0] ++
      [Item.u32 a.trimmedRate, Item.i16 a.temperature]

/-- The kind of a press's start, cold or starve timer, 0, 1 or 2, and its remaining time; the run-down timer of STOPPING is not
among those PRESS_READ shows (R159). -/
def PressTimer.code : PressTimer → Option (Nat × Tenths)
  | .start left => some (0, left)
  | .cold left => some (1, left)
  | .starve left => some (2, left)
  | .rundown _ => none

/-- A queued run with its skip counter (R137). -/
def queuedItems (r : Run) : List Item :=
  [Item.u16 r.number, Item.u8 r.profile, Item.u16 r.product, Item.u8 r.destination, Item.u32 r.flushMass,
    Item.u32 r.massLimit, Item.u8 r.skip, Item.u8 (flagCode r.copies), Item.u8 r.skipCounter]

/-- The last run report, or absent (R140). -/
def runReportItems : Option RunReport → List Item
  | none =>
    [Item.u8 0, Item.u16 0, Item.u8 0, Item.u32 0, Item.u32 0, Item.u32 0, Item.u8 0] ++ tallyItems ⟨[], false⟩
  | some r =>
    [Item.u8 1, Item.u16 r.number, Item.u8 (runEndCode r.reason), Item.u32 r.drawn, Item.u32 r.delivered,
      Item.u32 r.flushed, Item.u8 r.ignored] ++ tallyItems r.tally

/-- An analog reading with its at-limit flag (R68). -/
def readingItems (s : State) (n : Nat) : List Item :=
  [Item.i16 (s.readAnalog n).1, Item.u8 (flagCode (s.readAnalog n).2)]

/-- The hold reason and cause of a press state, absent while it is not HELD. -/
def PressState.hold : PressState → Option (PressReason × PressCause)
  | .held reason cause => some (reason, cause)
  | _ => none

/-- The state of a press with its hold reason and cause, each of which may be absent (R141, R207). -/
def pressStateItems (v : PressState) : List Item :=
  Item.u8 (pressStateCode v) :: (optItem Item.u8 (v.hold.map (fun h => pressReasonCode h.1)) ++
    optItem Item.u8 (v.hold.map (fun h => pressCauseCode h.2)))

/-- The items of PRESS_READ (R159). -/
def pressReadItems (s : State) (p : PressId) : List Item :=
  let x := s.pressAt p
  pressStateItems x.state ++
    [Item.u8 (firstCode (s.asked (pressMotor p))), Item.u8 (firstCode (s.asked (pressDivert p))),
      Item.u8 (firstCode x.engaged), Item.u16 (s.feederDriven x.cfg.surgeBin)] ++
    activeItems x.active ++ optItem Item.u16 x.delay ++
    [Item.u8 (flagCode x.signalPending), Item.u8 x.chokeCount, Item.u16 x.coldCount] ++ timerItems (x.timer.bind PressTimer.code) ++
    readingItems s (currentInput p) ++ readingItems s (temperatureInput p) ++ pressItems (pressFieldsOf x.cfg) ++
    listItems x.queue queuedItems ++ runReportItems x.report

/-- PRESS_READ (R159). -/
def execPressRead (tag : Byte) (press : Nat) (s : State) : Host.Outcome State Fault Refusal :=
  serve (.pressRead tag press) (fun s => withPress press (fun p => plain s (pressReadItems s p))) s

/-! ### Events -/

/-- What an event at a press does; a number that is no press's names no event. -/
def atPress (n : Nat) (s : State) (f : PressId → Result) : Host.Outcome State Fault Refusal :=
  match pressOf n with
  | some p => outcome (f p)
  | none => .next s

/-- PRESS_BUTTON_PRESS (R150, R151). -/
def execPressButtonPress (press : Nat) (s : State) : Host.Outcome State Fault Refusal :=
  atPress press s (fun p => pressButton (s.takeOffered (.pressButton press)) p)

/-- PRESS_CONTROL_INTERVAL (R141, R144): the positions are those of the press's current and temperature inputs. -/
def execPressControlInterval (press : Nat) (currentPos tempPos : Int) (s : State) : Host.Outcome State Fault Refusal :=
  atPress press s (fun p =>
    controlInterval ((s.setAnalogPin (currentInput p) currentPos).setAnalogPin (temperatureInput p) tempPos) p)

/-- Whether a press feeds: FLUSHING or RUNNING, and engaged (R144). -/
def pressFeeding (s : State) (p : PressId) : Bool :=
  let x := s.pressAt p
  decide (x.state = .flushing ∨ x.state = .running) && x.engaged

/-- The choke count rises by 1 and reaches the trip time (R146). -/
def chokeReached (s : State) (p : PressId) : Result :=
  match (s.pressAt p).active with
  | none => s.done
  | some a =>
    if pressFeeding s p && decide (intervalsOf a.profile.tripTime 10 ≤ (s.pressAt p).chokeCount + 1) then
      choke (s.modPress p (fun x => { x with chokeCount := x.chokeCount + 1 })) p (s.readAnalog (currentInput p)).1
    else s.done

/-- PRESS_CHOKE (R146). -/
def execPressChoke (press : Nat) (s : State) : Host.Outcome State Fault Refusal := atPress press s (chokeReached s)

/-- The cold count rises by 1 and reaches the cold wait time (R147). -/
def coldReached (s : State) (p : PressId) : Result :=
  if pressFeeding s p && decide (intervalsOf (s.pressAt p).cfg.coldWait 10 ≤ (s.pressAt p).coldCount + 1) then
    holdPress (s.modPress p (fun x => { x with coldCount := x.coldCount + 1 })) p .cold .none true
  else s.done

/-- PRESS_COLD_HOLD (R147). -/
def execPressColdHold (press : Nat) (s : State) : Host.Outcome State Fault Refusal := atPress press s (coldReached s)

/-- The start timer expires (R141). -/
def pressStartExpiry (s : State) (p : PressId) : Result :=
  match (s.pressAt p).state, (s.pressAt p).timer with
  | .starting, some (.start _) => holdPress s p .motor .none false
  | _, _ => s.done

/-- PRESS_START_TIMEOUT (R141). -/
def execPressStartTimeout (press : Nat) (s : State) : Host.Outcome State Fault Refusal :=
  atPress press s (pressStartExpiry s)

/-- The cold timer of STARTING expires (R141). -/
def pressColdExpiry (s : State) (p : PressId) : Result :=
  match (s.pressAt p).state, (s.pressAt p).timer with
  | .starting, some (.cold _) => holdPress s p .cold .none true
  | _, _ => s.done

/-- PRESS_COLD_TIMEOUT (R141). -/
def execPressColdTimeout (press : Nat) (s : State) : Host.Outcome State Fault Refusal :=
  atPress press s (pressColdExpiry s)

/-- STARVE_TIMEOUT (R149). -/
def execStarveTimeout (press : Nat) (s : State) : Host.Outcome State Fault Refusal := atPress press s (starveExpiry s)

/-- CHANGEOVER_DELAY_TIMEOUT (R150, R151). -/
def execChangeoverDelayTimeout (press : Nat) (s : State) : Host.Outcome State Fault Refusal :=
  atPress press s (delayExpiry s)

/-- The run-down timer expires (R156). -/
def pressRundownExpiry (s : State) (p : PressId) : Result :=
  match (s.pressAt p).state, (s.pressAt p).timer with
  | .stopping, some (.rundown _) => (s.modPress p (fun x => { x with state := .idle, timer := none })).done
  | _, _ => s.done

/-- PRESS_RUNDOWN_TIMEOUT (R156). -/
def execPressRundownTimeout (press : Nat) (s : State) : Host.Outcome State Fault Refusal :=
  atPress press s (pressRundownExpiry s)

/-- The running feedback is found (R141). -/
def pressFoundEvent (s : State) (p : PressId) : Result :=
  match (s.pressAt p).state, (s.pressAt p).timer with
  | .starting, some (.start _) => pressFound s p
  | _, _ => s.done

/-- PRESS_FEEDBACK_FOUND (R141). -/
def execPressFeedbackFound (press : Nat) (s : State) : Host.Outcome State Fault Refusal :=
  atPress press s (pressFoundEvent (s.takeOffered (.pressFeedbackFound press)))

/-- PRESS_FEEDBACK_LOST (R154). -/
def execPressFeedbackLost (press : Nat) (s : State) : Host.Outcome State Fault Refusal :=
  atPress press s (pressFeedbackLoss (s.takeOffered (.pressFeedbackLost press)))

end Sys2Proof.Machine
end

