-- ==== Sys2Proof/Machine/RouterCommands.lean ====
section
/-! DEFINITION. Meanings of the Event Router's requests (R194 to R204) and of the offering of an occurrence (R195). -/

namespace Sys2Proof.Machine

/-- Whether a source may have a level (R194 check 1). -/
def levelInRange (source level : Nat) : Bool :=
  decide (1 ≤ source ∧ source ≤ 40) && decide (if source ≤ 2 then level = 7 else level ≤ 6)

/-- The pending notice of a source takes a new level, and leaves at level 0 (R194). -/
def relevelNotice (s : State) (source level : Nat) : State :=
  match Table.get s.router.notices source with
  | none => s
  | some n =>
    s.setRouter { s.router with
      notices := if level = 0 then Table.del s.router.notices source
        else Table.set s.router.notices source { n with level := level } }

/-- SOURCE_LEVEL_SET (R194). -/
def execSourceLevelSet (tag : Byte) (source level : Nat) (s : State) : Host.Outcome State Fault Refusal :=
  serve (.sourceLevelSet tag source level) (fun s =>
    checked [(levelInRange source level, .outOfRange), (!s.saving, .busy)]
      (plain (relevelNotice (s.setLevel source level) source level) [Item.u8 (s.level source)])) s

/-- FLOOR_SET (R198). -/
def execFloorSet (tag : Byte) (floor : Nat) (s : State) : Host.Outcome State Fault Refusal :=
  serve (.floorSet tag floor) (fun s =>
    checked [(decide (floor ≤ 255), .outOfRange)]
      (plain (s.setRouter { s.router with floor := min floor 6 })
        [Item.u8 (min floor 6), Item.u8 (flagCode (decide (6 < floor))), Item.u8 s.router.floor])) s

/-- The armed slot that fields in range give; a target the action has not is 0 (R200, R201). -/
def slotOf (f : SlotFields) : Option Slot :=
  match slotActionOf f.action with
  | none => none
  | some action =>
    let bag : Bool := decide (action = .postBag)
    let press : Bool := decide (action = .changeover)
    if 3 ≤ f.source ∧ f.source ≤ 40 ∧ 1 ≤ f.count ∧ f.count ≤ max16 ∧
        (bag = true → 1 ≤ f.order.getD 0 ∧ f.order.getD 0 ≤ max32 ∧ 1 ≤ f.line.getD 0 ∧ f.line.getD 0 ≤ 6) ∧
        (press = true → f.press = some 1 ∨ f.press = some 2) then
      some ⟨f.source, action, if bag then f.order.getD 0 else 0, if bag then f.line.getD 0 else 0,
        if press then f.press.getD 0 else 0, f.count, true⟩
    else none

/-- SLOT_ARM (R201). -/
def execSlotArm (tag : Byte) (fields : SlotFields) (s : State) : Host.Outcome State Fault Refusal :=
  serve (.slotArm tag fields) (fun s =>
    match slotOf fields with
    | none => .refuse .outOfRange 0
    | some v =>
      checked [(decide (fields.slot < 8), .outOfRange), (!(s.slot fields.slot).armed, .wrongState)]
        (plain (s.setSlot fields.slot v) [])) s

/-- SLOT_DISARM (R204). -/
def execSlotDisarm (tag : Byte) (slot : Nat) (s : State) : Host.Outcome State Fault Refusal :=
  serve (.slotDisarm tag slot) (fun s =>
    let v := s.slot slot
    checked [(decide (slot < 8), .outOfRange)]
      (plain (s.setSlot slot { v with armed := false }) [Item.u16 v.remaining, Item.u8 (flagCode v.armed)])) s

/-- A slot as SLOT_READ shows it (R204): an order and a line are the target of POST_BAG, a press that of CHANGEOVER, each absent
for another action (R200, R207). -/
def slotReadItems (v : Slot) : List Item :=
  let bag (x : Nat) : Option Nat := if v.action = .postBag then some x else none
  let press : Option Nat := if v.action = .changeover then some v.press else none
  [Item.u8 (firstCode v.armed), Item.u8 v.source, Item.u8 (slotActionCode v.action)] ++ optItem Item.u32 (bag v.order) ++
    optItem Item.u8 (bag v.line) ++ optItem Item.u8 press ++ [Item.u16 v.remaining]

/-- SLOT_READ (R204). -/
def execSlotRead (tag : Byte) (s : State) : Host.Outcome State Fault Refusal :=
  serve (.slotRead tag) (fun s => plain s ((List.range 8).flatMap (fun k => slotReadItems (s.slot k)))) s

/-- OCCURRENCE_OFFER (R195). -/
def execOccurrenceOffer (s : State) : Host.Outcome State Fault Refusal := outcome (offerNext s)

end Sys2Proof.Machine
end

