-- ==== Sys2Proof/Machine/Dispatch.lean ====
section
/-! DEFINITION. One arm per command: its meaning. -/

namespace Sys2Proof.Machine

/-- The effect of a command on everything but the queue of waiting commands. -/
def exec (i : Instr) (s : State) : Host.Outcome State Fault Refusal :=
  match i with
  | .identify tag => Sys2Proof.Machine.execIdentify tag s
  | .linkStatus tag clear => Sys2Proof.Machine.execLinkStatus tag clear s
  | .settingsSave tag => Sys2Proof.Machine.execSettingsSave tag s
  | .restart tag => Sys2Proof.Machine.execRestart tag s
  | .channelSet tag channel cfg => Sys2Proof.Machine.execChannelSet tag channel cfg s
  | .channelRead tag channel => Sys2Proof.Machine.execChannelRead tag channel s
  | .zero tag channel => Sys2Proof.Machine.execZero tag channel s
  | .calSpan tag channel mass => Sys2Proof.Machine.execCalSpan tag channel mass s
  | .inflightSet tag bin value => Sys2Proof.Machine.execInflightSet tag bin value s
  | .binDefine tag bin fields => Sys2Proof.Machine.execBinDefine tag bin fields s
  | .binRead tag bin => Sys2Proof.Machine.execBinRead tag bin s
  | .binCount tag bin mass lotTag => Sys2Proof.Machine.execBinCount tag bin mass lotTag s
  | .binReceive tag bin mass => Sys2Proof.Machine.execBinReceive tag bin mass s
  | .binLock tag bin => Sys2Proof.Machine.execBinLock tag bin s
  | .binUnlock tag bin => Sys2Proof.Machine.execBinUnlock tag bin s
  | .reservationRead tag form key age => Sys2Proof.Machine.execReservationRead tag form key age s
  | .inputDefine tag input polarity debounce type use => Sys2Proof.Machine.execInputDefine tag input polarity debounce type use s
  | .outputDefine tag output role => Sys2Proof.Machine.execOutputDefine tag output role s
  | .outputSet tag mask => Sys2Proof.Machine.execOutputSet tag mask s
  | .outputClear tag mask => Sys2Proof.Machine.execOutputClear tag mask s
  | .analogDefine tag input bottom top => Sys2Proof.Machine.execAnalogDefine tag input bottom top s
  | .analogSet tag output value => Sys2Proof.Machine.execAnalogSet tag output value s
  | .ioRead tag => Sys2Proof.Machine.execIoRead tag s
  | .routeDefine tag route permissives resources => Sys2Proof.Machine.execRouteDefine tag route permissives resources s
  | .arbiterSet tag permitTime => Sys2Proof.Machine.execArbiterSet tag permitTime s
  | .resourceRead tag => Sys2Proof.Machine.execResourceRead tag s
  | .lineStop tag => Sys2Proof.Machine.execLineStop tag s
  | .lineResume tag => Sys2Proof.Machine.execLineResume tag s
  | .formulaOpen tag formula product mixTime => Sys2Proof.Machine.execFormulaOpen tag formula product mixTime s
  | .formulaStep tag formula fields => Sys2Proof.Machine.execFormulaStep tag formula fields s
  | .formulaClose tag formula => Sys2Proof.Machine.execFormulaClose tag formula s
  | .formulaRead tag formula => Sys2Proof.Machine.execFormulaRead tag formula s
  | .batchlineSet tag discharge release releaseTimeout => Sys2Proof.Machine.execBatchlineSet tag discharge release releaseTimeout s
  | .batchQueue tag number formula size lotTag destination waitFlag => Sys2Proof.Machine.execBatchQueue tag number formula size lotTag destination waitFlag s
  | .batchRelease tag number => Sys2Proof.Machine.execBatchRelease tag number s
  | .handDone tag number => Sys2Proof.Machine.execHandDone tag number s
  | .stepResume tag number step action => Sys2Proof.Machine.execStepResume tag number step action s
  | .batchResume tag number => Sys2Proof.Machine.execBatchResume tag number s
  | .batchCancel tag number => Sys2Proof.Machine.execBatchCancel tag number s
  | .batchAbandon tag number => Sys2Proof.Machine.execBatchAbandon tag number s
  | .batchRead tag number => Sys2Proof.Machine.execBatchRead tag number s
  | .grindQueue tag number source destination screen level => Sys2Proof.Machine.execGrindQueue tag number source destination screen level s
  | .grindCancel tag number => Sys2Proof.Machine.execGrindCancel tag number s
  | .grindResume tag number => Sys2Proof.Machine.execGrindResume tag number s
  | .grindArm tag bin arming => Sys2Proof.Machine.execGrindArm tag bin arming s
  | .screenFitted tag screen => Sys2Proof.Machine.execScreenFitted tag screen s
  | .millSet tag settings => Sys2Proof.Machine.execMillSet tag settings s
  | .millResume tag => Sys2Proof.Machine.execMillResume tag s
  | .millStop tag => Sys2Proof.Machine.execMillStop tag s
  | .millRead tag => Sys2Proof.Machine.execMillRead tag s
  | .profileSet tag profile fields => Sys2Proof.Machine.execProfileSet tag profile fields s
  | .profileRead tag profile => Sys2Proof.Machine.execProfileRead tag profile s
  | .pressSet tag press fields => Sys2Proof.Machine.execPressSet tag press fields s
  | .runQueue tag press run => Sys2Proof.Machine.execRunQueue tag press run s
  | .runCancel tag press number => Sys2Proof.Machine.execRunCancel tag press number s
  | .pressStart tag press => Sys2Proof.Machine.execPressStart tag press s
  | .pressResume tag press => Sys2Proof.Machine.execPressResume tag press s
  | .pressStop tag press => Sys2Proof.Machine.execPressStop tag press s
  | .pressTrim tag press rateTrim tempTrim => Sys2Proof.Machine.execPressTrim tag press rateTrim tempTrim s
  | .changeoverNow tag press => Sys2Proof.Machine.execChangeoverNow tag press s
  | .pressRead tag press => Sys2Proof.Machine.execPressRead tag press s
  | .baggerSet tag checkTime releaseTime => Sys2Proof.Machine.execBaggerSet tag checkTime releaseTime s
  | .bagQueue tag run => Sys2Proof.Machine.execBagQueue tag run s
  | .bagRunStart tag => Sys2Proof.Machine.execBagRunStart tag s
  | .bagRunStop tag => Sys2Proof.Machine.execBagRunStop tag s
  | .baggerResume tag => Sys2Proof.Machine.execBaggerResume tag s
  | .bagCancel tag number => Sys2Proof.Machine.execBagCancel tag number s
  | .baggerRead tag => Sys2Proof.Machine.execBaggerRead tag s
  | .orderEnter tag number customer lines => Sys2Proof.Machine.execOrderEnter tag number customer lines s
  | .lineAssign tag order line bin => Sys2Proof.Machine.execLineAssign tag order line bin s
  | .lineClose tag order line => Sys2Proof.Machine.execLineClose tag order line s
  | .orderCancel tag order => Sys2Proof.Machine.execOrderCancel tag order s
  | .truckIn tag order capacities => Sys2Proof.Machine.execTruckIn tag order capacities s
  | .spoutReady tag => Sys2Proof.Machine.execSpoutReady tag s
  | .loadoutResume tag action => Sys2Proof.Machine.execLoadoutResume tag action s
  | .truckOut tag force => Sys2Proof.Machine.execTruckOut tag force s
  | .dispatchTake tag => Sys2Proof.Machine.execDispatchTake tag s
  | .orderRead tag order => Sys2Proof.Machine.execOrderRead tag order s
  | .sourceLevelSet tag source level => Sys2Proof.Machine.execSourceLevelSet tag source level s
  | .floorSet tag floor => Sys2Proof.Machine.execFloorSet tag floor s
  | .slotArm tag fields => Sys2Proof.Machine.execSlotArm tag fields s
  | .slotDisarm tag slot => Sys2Proof.Machine.execSlotDisarm tag slot s
  | .slotRead tag => Sys2Proof.Machine.execSlotRead tag s
  | .unknownKind tag kind body => Sys2Proof.Machine.execUnknownKind tag kind body s
  | .frameReceive chars => Sys2Proof.Machine.execFrameReceive chars s
  | .receiveError => Sys2Proof.Machine.execReceiveError s
  | .linkBreak => Sys2Proof.Machine.execLinkBreak s
  | .frameSent => Sys2Proof.Machine.execFrameSent s
  | .fullReset strapB strapA => Sys2Proof.Machine.execFullReset strapB strapA s
  | .settingsSaveEnd ok => Sys2Proof.Machine.execSettingsSaveEnd ok s
  | .channelSample channel count valid => Sys2Proof.Machine.execChannelSample channel count valid s
  | .tareTimeout channel => Sys2Proof.Machine.execTareTimeout channel s
  | .settleTimeout channel => Sys2Proof.Machine.execSettleTimeout channel s
  | .jogTimeout channel => Sys2Proof.Machine.execJogTimeout channel s
  | .inputSample levels analog => Sys2Proof.Machine.execInputSample levels analog s
  | .lineStopInputActive => Sys2Proof.Machine.execLineStopInputActive s
  | .handAddButtonPress => Sys2Proof.Machine.execHandAddButtonPress s
  | .spoutReadyButtonPress => Sys2Proof.Machine.execSpoutReadyButtonPress s
  | .baggerStartPress => Sys2Proof.Machine.execBaggerStartPress s
  | .baggerStopPress => Sys2Proof.Machine.execBaggerStopPress s
  | .bagPresentPress => Sys2Proof.Machine.execBagPresentPress s
  | .bagGonePress => Sys2Proof.Machine.execBagGonePress s
  | .pressButtonPress press => Sys2Proof.Machine.execPressButtonPress press s
  | .mixerEmptyActive => Sys2Proof.Machine.execMixerEmptyActive s
  | .millFeedbackFound => Sys2Proof.Machine.execMillFeedbackFound s
  | .millFeedbackLost => Sys2Proof.Machine.execMillFeedbackLost s
  | .pressFeedbackFound press => Sys2Proof.Machine.execPressFeedbackFound press s
  | .pressFeedbackLost press => Sys2Proof.Machine.execPressFeedbackLost press s
  | .highProbeCovered bin => Sys2Proof.Machine.execHighProbeCovered bin s
  | .lowProbeUncovered bin => Sys2Proof.Machine.execLowProbeUncovered bin s
  | .permitTimeout slot => Sys2Proof.Machine.execPermitTimeout slot s
  | .dischargeTimeout => Sys2Proof.Machine.execDischargeTimeout s
  | .mixTimeout => Sys2Proof.Machine.execMixTimeout s
  | .releaseTimeout => Sys2Proof.Machine.execReleaseTimeout s
  | .millLoopInterval position => Sys2Proof.Machine.execMillLoopInterval position s
  | .millOverload => Sys2Proof.Machine.execMillOverload s
  | .millNoFlow => Sys2Proof.Machine.execMillNoFlow s
  | .millStartTimeout => Sys2Proof.Machine.execMillStartTimeout s
  | .millWarmTimeout => Sys2Proof.Machine.execMillWarmTimeout s
  | .millDrainTimeout => Sys2Proof.Machine.execMillDrainTimeout s
  | .millIdleTimeout => Sys2Proof.Machine.execMillIdleTimeout s
  | .millRundownTimeout => Sys2Proof.Machine.execMillRundownTimeout s
  | .pressControlInterval press currentPos tempPos => Sys2Proof.Machine.execPressControlInterval press currentPos tempPos s
  | .pressChoke press => Sys2Proof.Machine.execPressChoke press s
  | .pressColdHold press => Sys2Proof.Machine.execPressColdHold press s
  | .pressStartTimeout press => Sys2Proof.Machine.execPressStartTimeout press s
  | .pressColdTimeout press => Sys2Proof.Machine.execPressColdTimeout press s
  | .starveTimeout press => Sys2Proof.Machine.execStarveTimeout press s
  | .changeoverDelayTimeout press => Sys2Proof.Machine.execChangeoverDelayTimeout press s
  | .pressRundownTimeout press => Sys2Proof.Machine.execPressRundownTimeout press s
  | .checkTimeout => Sys2Proof.Machine.execCheckTimeout s
  | .bagReleaseTimeout => Sys2Proof.Machine.execBagReleaseTimeout s
  | .occurrenceOffer => Sys2Proof.Machine.execOccurrenceOffer s

end Sys2Proof.Machine
end

