-- ==== Sys2Proof/Safety.lean ====
section
/-! DEFINITION. What a safe state is, in the terms claims use, and the two shapes in which a request that is taken ends. -/

namespace Sys2Proof.Machine

/-! ### How a request that is taken ends -/

/-- What a request does, with room in the reply queue: in its turn, `t`; while the head of the receive queue is another frame,
it is not taken, and nothing changes (R214). -/
def inTurn (s : State) (c : Instr) (t : State) : Host.Outcome State Fault Refusal := .next (if s.turnOf c then t else s)

/-- A request answered OK: its frame leaves the receive queue, the state changes by `f`, and the reply with `items`, read from the
changed state, joins the tail of the reply queue; all of it in the request's turn (R214). -/
def accepted (s : State) (c : Instr) (f : State → State) (items : State → List Item) :
    Host.Outcome State Fault Refusal :=
  inTurn s c (answer (f (dropFrame s)) (replyTo c .ok 0 (items (f (dropFrame s)))))

/-- A request refused: its frame leaves the receive queue, the reply with the code and the index of what failed joins the tail of
the reply queue, and nothing else changes; all of it in the request's turn (R3, R210, R214). -/
def refusedWith (s : State) (c : Instr) (code : ReplyCode) (index : Nat) : Host.Outcome State Fault Refusal :=
  inTurn s c (answer (dropFrame s) (replyTo c code index []))

/-! ### The end of a transfer -/

/-- The state in which an owner has ended the transfer it has, if it has one: the transfer's outputs are asked off and it has
left the table and the waiting list (R80). -/
def transferEnded (s : State) (o : Owner) : State :=
  match s.transferOf o with
  | some (slot, x) => removeTransfer (dropOutputs s x) slot
  | none => s

/-! ### A bin on which nothing waits -/

/-- A posting to bin `b` has no consequence outside the bin but its mark events: no reservation names it, the mill grinds
nothing, it is no press's surge bin, and no batch is in the mixer (R39). -/
def State.QuietBin (s : State) (b : Nat) : Prop :=
  (∀ r ∈ s.inv.reservations, r.bin ≠ b) ∧ s.currentGrind = none ∧ (∀ p, (s.pressAt p).cfg.surgeBin ≠ b) ∧
    s.mixerBatch = none

/-! ### Invariants -/

/-- The receiver's kept characters agree with its position: LEN is the oldest kept character and at most 250 (R213). -/
def Link.rxOk (l : Link) : Prop :=
  let len := l.rxBytes.getLast?.getD 0
  match l.rxPosition with
  | .hunt | .len => l.rxBytes = []
  | .kind => l.rxBytes.length = 1 ∧ len ≤ Config.bodyCap
  | .tag => l.rxBytes.length = 2 ∧ len ≤ Config.bodyCap
  | .body left => l.rxBytes.length + left = len + 3 ∧ 1 ≤ left ∧ 3 ≤ l.rxBytes.length ∧ len ≤ Config.bodyCap
  | .check1 => l.rxBytes.length = len + 3 ∧ len ≤ Config.bodyCap
  | .check2 => l.rxBytes.length = len + 4 ∧ len ≤ Config.bodyCap

/-- The bounds of the Link Port: at most four frames and four replies wait, no waiting frame has more than 250 body bytes, and
no counter passes 65,535 (R206, R213, R214). -/
def State.LinkOk (s : State) : Prop :=
  s.link.replies.length ≤ Config.linkCap ∧ s.link.rxQueue.length ≤ Config.linkCap ∧
    (∀ f ∈ s.link.rxQueue, f.body.length ≤ Config.bodyCap) ∧ s.link.errors ≤ max16 ∧ s.link.overruns ≤ max16 ∧
    s.link.breaks ≤ max16 ∧ s.link.rxOk

/-- Whether every level of a table is one, 0 to 7 (R193, R194). -/
def levelsOk (l : Table Nat) : Prop := ∀ e ∈ l, e.2 ≤ 7

/-- The bounds of the Event Router: levels up to 7, the floor up to 6, a pending notice with a count of 1 to 255 and a level of
1 to 7, and an armed slot bound to source 3 to 40 with a count of 1 to 65,535 (R194, R197, R198, R200). -/
def Router.BoundsOk (r : Router) : Prop :=
  levelsOk r.levels ∧ r.floor ≤ 6 ∧
    (∀ e ∈ r.notices, 1 ≤ e.2.count ∧ e.2.count ≤ 255 ∧ 1 ≤ e.2.level ∧ e.2.level ≤ 7) ∧
    ∀ e ∈ r.slots, e.2.armed = true → 1 ≤ e.2.remaining ∧ e.2.remaining ≤ max16 ∧ 3 ≤ e.2.source ∧ e.2.source ≤ 40

/-- The bounds of the Event Router, and of the levels in the settings store (R218). -/
def State.RouterOk (s : State) : Prop :=
  s.router.BoundsOk ∧ ∀ c, s.store.image = some c ∨ s.store.copy = some c → levelsOk c.levels

/-- The reservation ledger: at most 192 live reservations with different ids, each naming a defined bin and holding no more than
it wants, and the masses held on a bin no more than its on-hand (R52, R55). -/
def Inventory.LedgerOk (i : Inventory) : Prop :=
  (∀ r ∈ i.reservations, (Table.get i.bins r.bin).isSome = true ∧ r.held ≤ r.wanted) ∧
    (i.reservations.map (·.id)).Nodup ∧ i.reservations.length ≤ Config.reservationCap ∧
    ∀ b v, Table.get i.bins b = some v → heldTotal i.reservations b ≤ v.onHand

/-- The reservation ledger of the state. -/
def State.LedgerOk (s : State) : Prop := s.inv.LedgerOk

/-- No bin holds more than its capacity, and no high mark passes its capacity (R33, R34, R40). -/
def Inventory.StockOk (i : Inventory) : Prop :=
  ∀ b v, Table.get i.bins b = some v → v.onHand ≤ v.cfg.capacity ∧ v.cfg.highMark ≤ v.cfg.capacity

/-- A table of stored bins whose high marks do not pass their capacities (R33). -/
def marksOk (l : Table StoredBin) : Prop := ∀ b d, Table.get l b = some d → d.cfg.highMark ≤ d.cfg.capacity

/-- The bins' stock in its bounds, and the marks of the definitions in the settings store (R218). -/
def State.StockOk (s : State) : Prop :=
  s.inv.StockOk ∧ ∀ c, s.store.image = some c ∨ s.store.copy = some c → marksOk c.bins

/-- While a Line Stop is in force no transfer waits, awaits its permits or flows: all are ABORTED (R75, R81). -/
def Arbiter.StopOk (a : Arbiter) : Prop :=
  a.stop.inForce = true → a.waiting = [] ∧ ∀ e ∈ a.transfers, e.2.state = .aborted

/-- The same of the state. -/
def State.StopOk (s : State) : Prop := s.arb.StopOk

/-- No resource is held by two transfers (R76). -/
def Arbiter.ResourcesOk (a : Arbiter) : Prop :=
  ∀ e ∈ a.transfers, ∀ f ∈ a.transfers, e.1 ≠ f.1 → ∀ n ∈ e.2.held, n ∉ f.2.held

/-- The same of the state. -/
def State.ResourcesOk (s : State) : Prop := s.arb.ResourcesOk

/-- A safe state: every bound above holds. -/
def State.Safe (s : State) : Prop :=
  s.LinkOk ∧ s.RouterOk ∧ s.LedgerOk ∧ s.StockOk ∧ s.StopOk ∧ s.ResourcesOk

/-- A safe outcome of a step: a next state that is safe. The fault `cascadeUnfinished` is none (notes/assumptions/2.md). -/
def SafeOutcome : Host.Outcome State Fault Refusal → Prop
  | .next s => s.Safe
  | _ => False

end Sys2Proof.Machine
end

