-- ==== Sys2Proof/Certificates/Slice0/Obligations.lean ====
section
/-! DEFINITION. The statements for the provers. -/

open Sys2Proof Sys2Proof.Machine

/-! ### The machine as a whole -/

/-- One command leaves the front of the queue and has its effect on the rest. -/
def Obligations.StepRunsTheFrontCommand : Prop :=
  ∀ (c : Instr) (rest : List Instr) (s : State), s.pending = c :: rest → step s = exec c (s.setPending rest)

/-- THE MODEL'S CHOICE (notes/assumptions/5.md): on an empty queue a tick of 0.1 s passes. It takes 1 from the remaining time of
every running timer (of open doses, transfers, batches, the mill, the presses with their delays, and the bagger), and changes
nothing else. -/
def Obligations.EmptyQueueLetsATickPass : Prop :=
  ∀ s : State, s.pending = [] → ∃ t, step s = .next t ∧ t.pending = [] ∧ t.link = s.link ∧ t.store = s.store ∧
    t.inv = s.inv ∧ t.io = s.io ∧ t.book = s.book ∧ t.router = s.router ∧
    (∀ sc, t.chan sc = { s.chan sc with
      dose := (s.chan sc).dose.map (fun d => { d with timer := d.timer.map (· - 1) }) }) ∧
    t.arb = { s.arb with
      transfers := s.arb.transfers.map (fun e => (e.1, { e.2 with timer := e.2.timer.map (· - 1) })) } ∧
    (∃ batches : List Batch, t.line = { s.line with batches := batches } ∧ batches.length = s.line.batches.length ∧
      ∀ (i : Nat) (b : Batch), s.line.batches[i]? = some b → ∃ timer, batches[i]? = some { b with timer := timer } ∧
        (b.timer = none → timer = none) ∧ (∀ left, b.timer = some (.discharge left) → timer = some (.discharge (left - 1))) ∧
        (∀ left, b.timer = some (.mix left) → timer = some (.mix (left - 1))) ∧
        ∀ left done, b.timer = some (.release left done) → timer = some (.release (left - 1) done)) ∧
    (∃ timer, t.mill = { s.mill with timer := timer } ∧ (s.mill.timer = none → timer = none) ∧
      (∀ left, s.mill.timer = some (.start left) → timer = some (.start (left - 1))) ∧
      (∀ left, s.mill.timer = some (.warm left) → timer = some (.warm (left - 1))) ∧
      (∀ left, s.mill.timer = some (.drain left) → timer = some (.drain (left - 1))) ∧
      (∀ left, s.mill.timer = some (.idle left) → timer = some (.idle (left - 1))) ∧
      ∀ left, s.mill.timer = some (.rundown left) → timer = some (.rundown (left - 1))) ∧
    t.press.profiles = s.press.profiles ∧
    (∀ p, ∃ timer, t.pressAt p = { s.pressAt p with timer := timer, delay := (s.pressAt p).delay.map (· - 1) } ∧
      ((s.pressAt p).timer = none → timer = none) ∧
      (∀ left, (s.pressAt p).timer = some (.start left) → timer = some (.start (left - 1))) ∧
      (∀ left, (s.pressAt p).timer = some (.cold left) → timer = some (.cold (left - 1))) ∧
      (∀ left, (s.pressAt p).timer = some (.starve left) → timer = some (.starve (left - 1))) ∧
      ∀ left, (s.pressAt p).timer = some (.rundown left) → timer = some (.rundown (left - 1))) ∧
    ∃ timer, t.bag = { s.bag with timer := timer } ∧ (s.bag.timer = none → timer = none) ∧
      (∀ left, s.bag.timer = some (.check left) → timer = some (.check (left - 1))) ∧
      ∀ left, s.bag.timer = some (.release left) → timer = some (.release (left - 1))

/-- While four replies wait, or another frame is at the head of the receive queue, a request is not taken and nothing changes. A
request that is taken adds exactly one reply, of its kind + 128 and its tag, at the tail of the reply queue; and a refused one
changes nothing else but that the frame at the head has left the receive queue (R3, R206, R210, R214). That a request given
while no frame waits is taken at once is the model's choice (notes/assumptions/4.md). -/
def Obligations.RequestAnsweredOnceAndRefusalInert : Prop :=
  ∀ (c : Instr) (s : State) (kind tag : Byte) (fields : List Item), requestItems c = some (kind, tag, fields) →
    (4 ≤ s.link.replies.length → exec c s = .next s) ∧
    (∀ f rest, s.link.rxQueue = f :: rest → requestOf f ≠ some c → exec c s = .next s) ∧
    ∀ t : State, s.link.replies.length < 4 → (∀ f rest, s.link.rxQueue = f :: rest → requestOf f = some c) →
      exec c s = .next t → ∃ (code : ReplyCode) (index : Nat) (items : List Item),
        t.link.replies = s.link.replies ++ [⟨kind + 128, tag, code, index, items⟩] ∧
        (code ≠ .ok → items = [] ∧ t = answer (dropFrame s) ⟨kind + 128, tag, code, index, []⟩) ∧
        (code = .ok → index = 0)

/-- What only some commands change: the waiting commands none; the settings store only SETTINGS_SAVE, the end of a save and a full
reset, by power-on, by the RESET pin or at the end of RESTART's reply; and a Line Stop in force is cleared only by LINE_RESUME or
a full reset (R81, R84, R218 to R220). -/
def Obligations.OnlyTheirCommandsChangeStoreAndStop : Prop :=
  ∀ (c : Instr) (s t : State) (reset : Prop), exec c s = .next t →
    (reset ↔ (∃ b a, c = .fullReset b a) ∨ (c = .frameSent ∧ ∃ f rest, s.link.tx = f :: rest ∧ isRestartReply f = true)) →
    t.pending = s.pending ∧
    (t.store ≠ s.store → (∃ tag, c = .settingsSave tag) ∨ (∃ ok, c = .settingsSaveEnd ok) ∨ reset) ∧
    (s.stopped = true → t.stopped = false → (∃ tag, c = .lineResume tag) ∨ reset)

/-- While a Line Stop is in force every discrete output is off and every speed output is 0 (R82). -/
def Obligations.LineStopHoldsEveryOutputOff : Prop :=
  ∀ (s : State) (n : Nat), s.stopped = true → s.outputOn n = false ∧ s.speedOut n = 0

/-! ### Invariants that every step keeps -/

/-- Every step keeps the bounds of the Link Port (R206, R213, R214). -/
def Obligations.StepKeepsLinkOk : Prop := ∀ s t : State, s.LinkOk → step s = .next t → t.LinkOk

/-- Every step keeps the bounds of the Event Router (R194, R197, R198, R200). -/
def Obligations.StepKeepsRouterOk : Prop := ∀ s t : State, s.RouterOk → step s = .next t → t.RouterOk

/-- Every step keeps the reservation ledger, and every bin's on-hand within its capacity (R33, R34, R40, R43, R52 to R58). -/
def Obligations.StepKeepsInventoryOk : Prop :=
  ∀ s t : State, step s = .next t → (s.LedgerOk → t.LedgerOk) ∧ (s.StockOk → t.StockOk)

/-- Every step keeps all transfers ABORTED while a Line Stop is in force, and every resource with one holder at most (R75, R76,
R81). -/
def Obligations.StepKeepsArbiterOk : Prop :=
  ∀ s t : State, step s = .next t → (s.StopOk → t.StopOk) ∧ (s.ResourcesOk → t.ResourcesOk)

/-- The state right after reset is safe, whatever commands are put before it. -/
def Obligations.ResetIsSafe : Prop := ∀ l : List Instr, (State.reset.setPending l).Safe

/-! ### The link -/

/-- Reading a frame gives back the request it was made from, for every well-formed request (R206 to R209), over the layouts of the
bodies that the model chose (notes/assumptions/6.md), a RESERVATION_READ with a form byte above 1 among them
(notes/assumptions/75.md), and a BATCH_READ and an ORDER_READ that begin with no form byte (notes/assumptions/83.md). -/
def Obligations.FramesAreReadBack : Prop :=
  ∀ (c : Instr) (f : Frame), c.wf = true → requestFrame c = some f → requestOf f = some c

/-- The characters of a frame, sent to a receiver in HUNT, put exactly that frame at the tail of the receive queue; a fifth frame is
discarded as an overrun; and with any other CHECK the frame is discarded as a receive error. A framing error inside a frame drops
the partial frame and counts; that in HUNT it does nothing is read by inference (notes/assumptions/30.md). A break empties the receiver and its queue and counts (R206, R213, R215). -/
def Obligations.FrameCharactersArrive : Prop :=
  ∀ s : State,
    (∀ f : Frame, f.body.length ≤ 250 → s.link.rxPosition = .hunt →
      (s.link.rxQueue.length < 4 → exec (.frameReceive f.chars) s =
        .next (s.setLink { s.link with rxBytes := [], rxQueue := s.link.rxQueue ++ [f] })) ∧
      (4 ≤ s.link.rxQueue.length → exec (.frameReceive f.chars) s =
        .next ((s.setLink { s.link with rxBytes := [], overruns := min (s.link.overruns + 1) 65535 }).raise
          (.linkOverrun (min (s.link.overruns + 1) 65535)))) ∧
      ∀ x y : Byte, x + 256 * y ≠ (crcOf (f.body.length :: f.kind :: f.tag :: f.body)).toNat →
        exec (.frameReceive (0x5A :: f.body.length :: f.kind :: f.tag :: f.body ++ [x, y])) s =
          .next (s.setLink { s.link with rxBytes := [], errors := min (s.link.errors + 1) 65535 })) ∧
    (s.link.rxPosition ≠ .hunt → exec .receiveError s = .next (s.setLink { s.link with
      rxPosition := .hunt, rxBytes := [], errors := min (s.link.errors + 1) 65535 })) ∧
    (s.link.rxPosition = .hunt → exec .receiveError s = .next s) ∧
    exec .linkBreak s = .next (s.setLink { s.link with
      rxPosition := .hunt, rxBytes := [], rxQueue := [], breaks := min (s.link.breaks + 1) 65535 })

/-- At the end of a frame the transmitter goes on with the same reply, then with the oldest reply, then with the best eligible
notice, which leaves the table; and the last byte of the reply OK to RESTART brings the full reset about. The best notice is one of
those eligible; none has a higher level, and none of its level a lower source (R199, R214, R220). That this reset happens whole
inside the FRAME_SENT and finds the strap pins as State holds them is the model's choice (notes/assumptions/17.md), and so is that
FRAME_SENT on an idle transmitter makes the choice (notes/assumptions/43.md), and that a reply leaves the reply queue at the choice
(notes/assumptions/78.md). -/
def Obligations.TransmitterTakesRepliesFirst : Prop :=
  (∀ s : State,
    (∀ f g rest, s.link.tx = f :: g :: rest → isRestartReply f = false →
      exec .frameSent s = .next (s.setLink { s.link with tx := g :: rest })) ∧
    (∀ f rest, s.link.tx = f :: rest → isRestartReply f = true →
      exec .frameSent s = exec (.fullReset s.link.strapB s.link.strapA) s ∧
      ∃ t, exec .frameSent s = .next t ∧ t.link.baud = strapBaud s.link.strapB s.link.strapA ∧ t.link.replies = [] ∧
        t.link.rxQueue = [] ∧ t.link.tx = []) ∧
    (s.link.tx = [] ∨ (∃ f, s.link.tx = [f] ∧ isRestartReply f = false) →
      (∀ r rest, s.link.replies = r :: rest →
        exec .frameSent s = .next (s.setLink { s.link with replies := rest, tx := r.frames })) ∧
      (∀ source n, s.link.replies = [] → bestNotice s.eligible = some (source, n) →
        exec .frameSent s = .next ((s.setRouter { s.router with notices := Table.del s.router.notices source }).setLink
          { s.link with tx := [noticeFrame source n] })) ∧
      (s.link.replies = [] → s.eligible = [] → exec .frameSent s = .next (s.setLink { s.link with tx := [] })))) ∧
  ∀ (l : List (Nat × Notice)) (e : Nat × Notice), bestNotice l = some e →
    e ∈ l ∧ ∀ x ∈ l, x.2.level < e.2.level ∨ (x.2.level = e.2.level ∧ e.1 ≤ x.1)

/-- IDENTIFY, LINK_STATUS, RESTART, SETTINGS_SAVE and the end of a save (R216 to R220). That RESTART's acceptance changes nothing
before its reply has been sent is the model's choice (notes/assumptions/17.md); that the old image is gone when a save is accepted,
and that the save writes the configuration of its acceptance, is read by inference (notes/assumptions/18.md, 19.md). -/
def Obligations.LinkAndSettingsRequests : Prop :=
  ∀ (s : State) (tag : Byte), s.replyRoom = true →
    exec (.identify tag) s = accepted s (.identify tag) id (fun u =>
      [0x4C, 0x55, 0x53, 0x41, 0x52, 0x49, 0x4E, 0x20, 0x34, 0x38, 0x32, 0x30].map Item.u8 ++
        [.u8 1, .u8 (storeStateCode u.store.state), .u8 (firstCode u.store.loaded), .u32 u.link.baud]) ∧
    exec (.linkStatus tag 0) s = accepted s (.linkStatus tag 0) id (fun u =>
      [.u16 u.link.errors, .u16 u.link.overruns, .u16 u.link.breaks, .u8 u.link.rxQueue.length,
        .u8 u.link.replies.length, .u8 u.router.notices.length, .u8 u.eligible.length, .u8 u.router.floor,
        .u32 u.link.baud]) ∧
    exec (.linkStatus tag 1) s = inTurn s (.linkStatus tag 1) (answer
      ((dropFrame s).setLink { (dropFrame s).link with errors := 0, overruns := 0, breaks := 0 })
      (replyTo (.linkStatus tag 1) .ok 0 (linkItems (dropFrame s)))) ∧
    (s.store.state ≠ .saving → exec (.restart tag) s = accepted s (.restart tag) id (fun _ => [])) ∧
    (s.store.state ≠ .saving → exec (.settingsSave tag) s = accepted s (.settingsSave tag)
      (fun u => u.setStore ⟨.saving, none, some (capture u), u.store.loaded⟩) (fun _ => [])) ∧
    (s.store.state = .saving → exec (.restart tag) s = refusedWith s (.restart tag) .busy 0 ∧
      exec (.settingsSave tag) s = refusedWith s (.settingsSave tag) .busy 0 ∧
      exec (.settingsSaveEnd true) s =
        .next ((s.setStore ⟨.valid, s.store.copy, none, s.store.loaded⟩).raise (.storeResult true)) ∧
      exec (.settingsSaveEnd false) s =
        .next ((s.setStore ⟨.invalid, none, none, s.store.loaded⟩).raise (.storeResult false)))

/-- A taken frame that carries no request is answered UNKNOWN_KIND or BAD_LENGTH and leaves the receive queue (R214). -/
def Obligations.UnknownFramesAreAnswered : Prop :=
  ∀ (s : State) (tag kind : Byte) (body : List Byte) (rest : List Frame), s.replyRoom = true →
    s.link.rxQueue = ⟨kind, tag, body⟩ :: rest →
    (kind = 0 ∨ 0x7F ≤ kind → exec (.unknownKind tag kind body) s =
      .next (answer (s.setLink { s.link with rxQueue := rest }) ⟨0xFF, tag, .unknownKind, 0, []⟩)) ∧
    (0 < kind → kind < 0x7F → kind ∉ knownKinds → exec (.unknownKind tag kind body) s =
      .next (answer (s.setLink { s.link with rxQueue := rest }) ⟨kind + 128, tag, .unknownKind, 0, []⟩)) ∧
    (kind ∈ knownKinds → requestOf ⟨kind, tag, body⟩ = none → exec (.unknownKind tag kind body) s =
      .next (answer (s.setLink { s.link with rxQueue := rest }) ⟨kind + 128, tag, .badLength, 0, []⟩))

/-- What a full reset leaves, with the configuration of the store's image in force, or the defaults where no image matches (R205,
R218, R220); and `State.reset`, with the straps and analog positions the model chose (notes/assumptions/3.md, 7.md), is the full reset
of a part whose store holds no image. -/
def Obligations.FullResetValues : Prop :=
  (∀ (s : State) (b a : Bool), ∃ t, exec (.fullReset b a) s = .next t ∧
    t.store = (match s.store.image with
      | some c => ⟨.valid, some c, none, true⟩
      | none => ⟨.invalid, none, none, false⟩) ∧
    t.link = ⟨b, a, if b then (if a then 230400 else 115200) else (if a then 57600 else 38400), .hunt, [], [], [], [],
      0, 0, 0⟩ ∧
    (∀ k, (t.bin k).map (fun v => (v.cfg, v.inflight, v.onHand, v.counted, v.locked, v.lots, v.writeOff, v.feederAsk)) =
      ((s.store.image.map (fun c => Table.get c.bins k)).getD none).map
        (fun d => (d.cfg, d.inflight, 0, false, false, [], 0, 0))) ∧
    t.inv.reservations = [] ∧ t.inv.nextId = 1 ∧ (∀ n, t.outputOn n = false ∧ t.speedOut n = 0) ∧
    t.arb.transfers = [] ∧ t.arb.waiting = [] ∧ t.stopped = false ∧
    t.arb.permitTime = (s.store.image.map (·.permitTime)).getD 300 ∧ t.line.batches = [] ∧ t.line.completion = none ∧
    t.line.times = (s.store.image.map (·.times)).getD ⟨600, 300, 1800⟩ ∧ t.mill.state = .stopped ∧ t.mill.queue = [] ∧
    t.mill.fitted = 0 ∧ (∀ p, (t.pressAt p).state = .idle ∧ (t.pressAt p).queue = [] ∧ (t.pressAt p).active = none ∧
      (t.pressAt p).report = none) ∧ t.bag.queue = [] ∧ t.bag.startMark = false ∧ t.book.orders = [] ∧
    t.book.dispatch = [] ∧ t.book.loadout = ⟨.noTruck, none, false, false⟩ ∧ t.router.notices = [] ∧
    t.router.floor = 0 ∧ t.router.waiting = [] ∧ (∀ k, (t.slot k).armed = false) ∧
    t.router.levels = (s.store.image.map (·.levels)).getD [] ∧ t.pending = s.pending) ∧
  ∀ s : State, s.store.image = none → s.io.analogPins = [] → s.pending = [] →
    exec (.fullReset false false) s = .next State.reset

/-- R13: each channel after a full reset. -/
def Obligations.ChannelsAfterFullReset : Prop :=
  ∀ (s : State) (b a : Bool) (sc : Scale), ∃ t, exec (.fullReset b a) s = .next t ∧
    (t.chan sc).cfg = (match s.store.image, sc with
      | some c, .main => c.main | some c, .micro => c.micro | some c, .bagger => c.bagger | some c, .truck => c.truck
      | none, .main => ⟨4000000, 500, 0, 0, 8, 25, 1000, 40000, 2000, 30, 100000, 2, 20000⟩
      | none, .micro => ⟨100000, 10, 0, 0, 8, 25, 20, 1000, 50, 20, 2000, 2, 500⟩
      | none, .bagger => ⟨100000, 20, 0, 0, 4, 10, 40, 1000, 100, 10, 5000, 2, 1000⟩
      | none, .truck => ⟨60000000, 20000, 0, 0, 16, 32, 20000, 600000, 100000, 50, 400000, 0, 0⟩) ∧
    (t.chan sc).samples = [] ∧ (t.chan sc).filtered = [] ∧
    (t.chan sc).status = (if (t.chan sc).cfg.span = 0 then .uncalibrated else .ok) ∧
    (t.chan sc).dose = none ∧ (t.chan sc).report = none ∧ (t.chan sc).validRun = 0

/-! ### Numbers -/

/-- R4's rounding: the quotient nearest to the exact one, an exact half away from zero. -/
def Obligations.RoundingIsToTheNearest : Prop :=
  ∀ (a : Int) (b : Nat), 0 < b →
    2 * (a - rdiv a b * b).natAbs ≤ b ∧
    (2 * (a - rdiv a b * b).natAbs = b → a.natAbs ≤ (rdiv a b * b).natAbs) ∧
    rdiv (-a) b = -rdiv a b

/-! ### The Weigh Unit -/

/-- CHANNEL_SET, ZERO and CAL_SPAN on a free channel: what changes, and nothing else; INFLIGHT_SET stores the value, clamped to Fmax
of the bin's channel (R14, R16, R18, R31). That the last OK mass is 0 after CHANNEL_SET, and that CAL_SPAN leaves the filtered mass
to the next sample, is the model's choice (notes/assumptions/23.md), and so is that a limit in percent of the capacity is exact
(notes/assumptions/63.md). -/
def Obligations.ChannelRequests : Prop :=
  (∀ (s : State) (tag : Byte) (channel : Nat) (sc : Scale), s.replyRoom = true → s.saving = false →
    scaleOf channel = some sc → (s.chan sc).dose = none →
    (∀ cfg : ChannelConfig, (∀ ok ∈ channelChecks sc cfg, ok = true) → exec (.channelSet tag channel cfg) s =
      accepted s (.channelSet tag channel cfg)
        (fun u => (u.setChan sc { u.chan sc with
          cfg := cfg, samples := [], filtered := [], gross := 0, stable := false, okGross := 0 }).setInv { u.inv with
            bins := u.inv.bins.map (fun e => if outletScale e.2.cfg.outlet = some sc ∧ cfg.fmax < e.2.inflight then
              (e.1, { e.2 with inflight := cfg.fmax }) else e) })
        (fun _ => [.u8 (loweredCount s sc cfg.fmax)])) ∧
    (zeroAllowed (s.chan sc) = true → exec (.zero tag channel) s = accepted s (.zero tag channel)
      (fun u => u.setChan sc { u.chan sc with
        cfg := { (u.chan sc).cfg with zero := meanCount (u.chan sc) }
        samples := (u.chan sc).samples.map (fun e => { e with raw := 0 })
        filtered := (u.chan sc).filtered.map (fun _ => 0)
        gross := 0
        okGross := 0 })
      (fun _ => [.i32 (meanCount (s.chan sc))])) ∧
    (zeroAllowed (s.chan sc) = false → exec (.zero tag channel) s = refusedWith s (.zero tag channel) .wrongState 0) ∧
    (∀ mass span : Nat, 1 ≤ mass → mass ≤ (s.chan sc).cfg.capacity → (s.chan sc).status ≠ .converterFault →
      (s.chan sc).stable = true → 1000 ≤ meanCount (s.chan sc) - (s.chan sc).cfg.zero →
      span = rdivNat (mass * 65536) (meanCount (s.chan sc) - (s.chan sc).cfg.zero).toNat → 1 ≤ span → span ≤ 16777215 →
      exec (.calSpan tag channel mass) s = accepted s (.calSpan tag channel mass)
        (fun u => u.setChan sc { u.chan sc with
          cfg := { (u.chan sc).cfg with span := span }
          samples := (u.chan sc).samples.map (fun e => { e with
            raw := rdiv ((e.count - (u.chan sc).cfg.zero) * span) 65536 })
          filtered := []
          stable := false })
        (fun _ => [.u32 span]))) ∧
  ∀ (s : State) (tag : Byte) (bin value : Nat) (v : Bin), s.replyRoom = true → 1 ≤ bin → bin ≤ 48 →
    value ≤ max32 → s.bin bin = some v →
    (∀ sc, outletScale v.cfg.outlet = some sc → exec (.inflightSet tag bin value) s =
      accepted s (.inflightSet tag bin value)
        (fun u => u.setBin bin { v with inflight := min value (s.chan sc).cfg.fmax })
        (fun _ => [.u32 (min value (s.chan sc).cfg.fmax), .u8 (flagCode (decide ((s.chan sc).cfg.fmax < value)))])) ∧
    (outletScale v.cfg.outlet = none →
      exec (.inflightSet tag bin value) s = refusedWith s (.inflightSet tag bin value) .wrongState 0)

/-- A sample of a channel whose weight no job waits for: the histories, mass, stability and status of R8 to R11, and SCALE_FAULT
when the status becomes a fault (R12). -/
def Obligations.SampleOfAnIdleChannel : Prop :=
  ∀ (s : State) (channel : Nat) (sc : Scale) (count : Int) (valid : Bool), scaleOf channel = some sc →
    (s.chan sc).dose = none → (∀ b ∈ s.line.batches, b.state ≠ .discharging) → s.book.loadout.state ≠ .taring →
    (∀ c : Channel, c = (sampleChannel (s.chan sc) count valid).1 →
      exec (.channelSample channel count valid) s = .next
        (if c.status.isFault = true ∧ c.status ≠ (s.chan sc).status
          then (s.setChan sc c).raise (.scaleFault sc c.status) else s.setChan sc c)) ∧
    (valid = false ∨ count ≤ -8388608 ∨ 8388607 ≤ count → sampleChannel (s.chan sc) count valid =
      ({ s.chan sc with status := .converterFault, validRun := 0 }, false)) ∧
    (valid = true → -8388608 < count → count < 8388607 → (s.chan sc).status ≠ .converterFault →
      ∃ c, sampleChannel (s.chan sc) count valid = (c, true) ∧ c.cfg = (s.chan sc).cfg ∧
        c.samples = (⟨count, rawMass c.cfg count⟩ :: (s.chan sc).samples).take 32 ∧
        c.gross = filteredMass c.cfg c.samples ∧ c.filtered = (c.gross :: (s.chan sc).filtered).take 32 ∧
        c.stable = stableNow c.cfg c.samples c.filtered ∧ c.status = statusOf c.cfg c.gross ∧
        c.dose = none ∧ c.report = (s.chan sc).report)

/-- A sample at the cut-off ends the feed of a dose (R22). The settle timer of a bin dose in TARING takes the tare; the cut-off decides FAST, SLOW or a first jog (R21). The jog timer
and the operator's hand put the dose into SETTLING, its feeder off (R24, R25). -/
def Obligations.DoseTimers : Prop :=
  ∀ (s : State) (channel : Nat) (sc : Scale) (d : OpenDose), scaleOf channel = some sc → (s.chan sc).dose = some d →
    (∀ (b output : Nat) (count tare : Int) (c : Channel), d.state = .fast ∨ d.state = .slow → d.order.bin = some b →
      d.order.feeder = some (.speed output) → d.tare = some tare → sampleChannel (s.chan sc) count true = (c, true) →
      c.status = .ok → (d.order.target : Int) - d.order.inflight ≤ c.gross - tare →
      (∀ y ∈ s.line.batches, y.state ≠ .discharging) → s.book.loadout.state ≠ .taring →
      exec (.channelSample channel count true) s = .next (((s.setChan sc c).askFeeder b 0).setChan sc { c with
        dose := some { d with state := .settling, timer := some c.cfg.settleTime, nets := [] } })) ∧
    (∀ (b output : Nat) (cutoff : Int), d.state = .taring → d.order.bin = some b →
      d.order.feeder = some (.speed output) → cutoff = (d.order.target : Int) - d.order.inflight →
      (0 < cutoff - d.order.slowBand → exec (.tareTimeout channel) s =
        .next ((s.askFeeder b d.order.fast).setChan sc { s.chan sc with dose := some { d with
          tare := some (s.chan sc).gross, state := .fast, timer := none, nets := [] } })) ∧
      (0 < cutoff → cutoff - d.order.slowBand ≤ 0 → exec (.tareTimeout channel) s =
        .next ((s.askFeeder b d.order.slow).setChan sc { s.chan sc with dose := some { d with
          tare := some (s.chan sc).gross, state := .slow, timer := none, nets := [] } })) ∧
      (cutoff ≤ 0 → 1 ≤ d.order.jogLimit → exec (.tareTimeout channel) s =
        .next ((s.askFeeder b d.order.slow).setChan sc { s.chan sc with dose := some { d with
          tare := some (s.chan sc).gross, state := .jogging, jogs := 1, timer := some d.order.jogTime,
          nets := [] } }))) ∧
    (∀ (b output : Nat) (tare : Int), d.state = .settling → d.order.bin = some b →
      d.order.feeder = some (.speed output) → d.tare = some tare →
      (s.chan sc).gross - tare - d.order.target < -(d.underTol : Int) → d.jogs < d.order.jogLimit →
      exec (.settleTimeout channel) s =
        .next ((s.askFeeder b d.order.slow).setChan sc { s.chan sc with dose := some { d with
          state := .jogging, jogs := d.jogs + 1, timer := some d.order.jogTime, nets := [] } })) ∧
    (∀ b output : Nat, d.state = .jogging → d.order.bin = some b → d.order.feeder = some (.speed output) →
      exec (.jogTimeout channel) s =
        .next ((s.askFeeder b 0).setChan sc { s.chan sc with dose := some { d with
          state := .settling, timer := some (s.chan sc).cfg.settleTime, nets := [] } })) ∧
    (sc = .micro → d.state = .handWait → d.order.bin = none → exec .handAddButtonPress s =
      .next ((s.takeOffered .handAddButton).setChan .micro { s.chan .micro with dose := some { d with
        state := .settling, timer := some (s.chan .micro).cfg.settleTime, nets := [] } }))

/-- How a dose ends, and what its end does (R23, R26 to R30). At the settle timer and at a stable sample a settled dose ends
UNDER with its jogs used up, OVER, or ACCEPTED; a feed whose net has risen by less than the stall mass over the window ends
STALL; a channel fault ends it SCALE with the last OK mass; an abort of its transfer ends it PERMIT, and a Line Stop STOPPED.
That the stall window is 5 samples for each tenth of a second is read from R6 by inference (notes/assumptions/21.md), and that
an ending by STALL, SCALE, PERMIT or STOPPED carries no mark of settling is the model's choice (notes/assumptions/65.md), as is
that the users of a sample judge it after the dose that it ends (notes/assumptions/76.md), and that SCALE_FAULT is raised before
what the end of the dose raises (notes/assumptions/84.md). The end turns the feeder off, draws the actual from the bin and its
reservation, oldest lots first, adapts the bin's in-flight after an ACCEPTED dose that qualifies, writes the report, and leaves the channel free. -/
def Obligations.DoseEndings : Prop :=
  (∀ (s : State) (channel : Nat) (sc : Scale) (d : OpenDose) (tare : Int), scaleOf channel = some sc →
    (s.chan sc).dose = some d → d.tare = some tare →
    (∀ e : Int, d.state = .settling → e = (s.chan sc).gross - tare - d.order.target →
      (e < -(d.underTol : Int) → d.order.jogLimit ≤ d.jogs → exec (.settleTimeout channel) s =
        outcome (endDose s sc d .underWeight ((s.chan sc).gross - tare) (some .timeout))) ∧
      (-(d.underTol : Int) ≤ e → (d.overTol : Int) < e → exec (.settleTimeout channel) s =
        outcome (endDose s sc d .overWeight ((s.chan sc).gross - tare) (some .timeout))) ∧
      (-(d.underTol : Int) ≤ e → e ≤ d.overTol → exec (.settleTimeout channel) s =
        outcome (endDose s sc d .accepted ((s.chan sc).gross - tare) (some .timeout)))) ∧
    (∀ (count : Int) (c : Channel), sampleChannel (s.chan sc) count true = (c, true) → c.status = .ok →
      (∀ e : Int, d.state = .settling → c.stable = true → e = c.gross - tare - d.order.target →
        (e < -(d.underTol : Int) → d.order.jogLimit ≤ d.jogs → exec (.channelSample channel count true) s =
          outcome ((endDose (s.setChan sc c) sc d .underWeight (c.gross - tare) (some .stability)).andThen
            (fun t => (t, [.sampled sc])))) ∧
        (-(d.underTol : Int) ≤ e → (d.overTol : Int) < e → exec (.channelSample channel count true) s =
          outcome ((endDose (s.setChan sc c) sc d .overWeight (c.gross - tare) (some .stability)).andThen
            (fun t => (t, [.sampled sc])))) ∧
        (-(d.underTol : Int) ≤ e → e ≤ d.overTol → exec (.channelSample channel count true) s =
          outcome ((endDose (s.setChan sc c) sc d .accepted (c.gross - tare) (some .stability)).andThen
            (fun t => (t, [.sampled sc]))))) ∧
      ∀ old : Int, d.state = .jogging ∨
          (d.state = .slow ∧ c.gross - tare < (d.order.target : Int) - d.order.inflight) ∨
          (d.state = .fast ∧ c.gross - tare < (d.order.target : Int) - d.order.inflight - d.order.slowBand) →
        0 < d.order.stallWindow → d.nets[5 * d.order.stallWindow - 1]? = some old →
        c.gross - tare - old < (d.order.stallMass : Int) → exec (.channelSample channel count true) s =
          outcome ((endDose (s.setChan sc c) sc d .stall (c.gross - tare) none).andThen (fun t => (t, [.sampled sc])))) ∧
    (∀ (count : Int) (valid taken : Bool) (c : Channel), sampleChannel (s.chan sc) count valid = (c, taken) →
      c.status.isFault = true → c.status ≠ (s.chan sc).status → exec (.channelSample channel count valid) s =
        outcome ((endDose ((s.setChan sc c).raise (.scaleFault sc c.status)) sc d .scale ((s.chan sc).okGross - tare)
          none).andThen (fun t => (t, [.sampled sc])))) ∧
    handle (.stopDose sc) s = endDose s sc d .stopped ((s.chan sc).gross - tare) none ∧
    ∀ o : Owner, ownerScale o = some sc → requesterOwner d.order.requester = o → d.order.bin.isSome = true →
      handle (.ownerAborted o) s = endDose s sc d .permit ((s.chan sc).gross - tare) none) ∧
  ∀ (s t : State) (sc : Scale) (d : OpenDose) (ending : DoseEnding) (actual : Int) (settled : Option Settled)
    (tasks : List Task), endDose s sc d ending actual settled = (t, tasks) →
    (t.chan sc).dose = none ∧
    (t.chan sc).report = some ⟨d.order.requester, d.order.bin, ending, d.order.target, actual, d.tare, d.order.inflight, d.jogs,
      settled, if d.order.bin.isSome then actual.toNat else 0⟩ ∧
    (d.order.bin = none → t.inv = s.inv) ∧
    ∀ (b : Nat) (v : Bin), d.order.bin = some b → s.bin b = some v →
      (∀ r : Reservation, d.order.reservation = some r.id → s.claim (requesterHolder d.order.requester) r.id = some r →
        r.bin = b → actual.toNat < r.wanted →
        ∃ q, t.reservation r.id = some q ∧ q.holder = r.holder ∧ q.wanted = r.wanted - actual.toNat) ∧
      ∃ w, t.bin b = some w ∧ w.cfg = v.cfg ∧ w.onHand = v.onHand - min actual.toNat v.onHand ∧
        w.lots = (takeLots (min actual.toNat v.onHand) v.lots).1 ∧
        (d.order.feeder.isSome = true → w.feederAsk = 0) ∧
        (w.inflight : Int) = (if ending = .accepted ∧ d.order.adapt = true ∧ d.jogs = 0 ∧ settled = some .stability ∧
            (actual - d.order.target).natAbs ≤ (s.chan sc).cfg.window then
          max 0 (min ((s.chan sc).cfg.fmax : Int)
            ((v.inflight : Int) + rdiv ((actual - d.order.target) * (s.chan sc).cfg.gain) 8))
          else v.inflight)

/-! ### Reading -/

/-- Every reading request is answered, and changes nothing but the receive and reply queues (R15, R38, R59, R70, R85, R91, R114,
R133, R135, R159, R175, R192, R204). That RESERVATION_READ by bin answers OK to a starting age of 0 is the model's choice (notes/assumptions/55.md). -/
def Obligations.ReadsChangeNothing : Prop :=
  ∀ (s : State) (tag : Byte), s.replyRoom = true → ∀ c : Instr,
    (∃ n sc, c = .channelRead tag n ∧ scaleOf n = some sc) ∨ (∃ n, c = .binRead tag n ∧ 1 ≤ n ∧ n ≤ 48) ∨
      (∃ n age, c = .reservationRead tag 1 n age ∧ 1 ≤ n ∧ n ≤ 48 ∧ (s.bin n).isSome = true) ∨
      (∃ n age, c = .reservationRead tag 0 n age ∧ 1 ≤ n ∧ n ≤ 65535 ∧ (s.reservation n).isSome = true) ∨
      c = .ioRead tag ∨ c = .resourceRead tag ∨ (∃ n, c = .formulaRead tag n ∧ 1 ≤ n ∧ n ≤ 32) ∨
      (∃ n, c = .batchRead tag n ∧ (n = 0 ∨ (s.batch n).isSome = true)) ∨ c = .millRead tag ∨
      (∃ n, c = .profileRead tag n ∧ 1 ≤ n ∧ n ≤ 16) ∨ (∃ n p, c = .pressRead tag n ∧ pressOf n = some p) ∨
      c = .baggerRead tag ∨ (∃ n, c = .orderRead tag n ∧ (n = 0 ∨ (s.order n).isSome = true)) ∨ c = .slotRead tag →
    ∃ items, exec c s = accepted s c id items

/-! ### The Inventory Unit -/

/-- A draw of all lots' mass or less takes the oldest lots first: `n` of them whole, and `cut` grams of the next, if that many are
needed. Every consumed pair but that last one carries its lot's whole mass; the lots behind stay as they are; and no mass is made
or lost (R48, R49). -/
def Obligations.DrawsTakeTheOldestLots : Prop :=
  ∀ (lots : List Lot) (m : Nat), m ≤ (lots.map (·.mass)).sum → (∀ l ∈ lots, 0 < l.mass) →
    ((takeLots m lots).2.map (·.2)).sum = m ∧
    ((takeLots m lots).1.map (·.mass)).sum + m = (lots.map (·.mass)).sum ∧
    ∃ n cut : Nat, ((lots.take n).map (·.mass)).sum + cut = m ∧
      ((cut = 0 ∧ (takeLots m lots).2 = (lots.take n).map (fun l => (l.tag, l.mass)) ∧
          (takeLots m lots).1 = lots.drop n) ∨
        ∃ l, lots[n]? = some l ∧ 0 < cut ∧ cut < l.mass ∧
          (takeLots m lots).2 = (lots.take n).map (fun l => (l.tag, l.mass)) ++ [(l.tag, cut)] ∧
          (takeLots m lots).1 = { l with mass := l.mass - cut } :: lots.drop (n + 1))

/-- Give-back takes held mass from the youngest reservations of a bin until the rest fits its on-hand: an older one loses mass only
when every younger one of the bin holds nothing. Top-up gives free mass to the oldest short reservations first: a younger one is
given mass only when every older one of the bin is full, and no more is given than is free. Other bins' reservations stay (R55,
R56). -/
def Obligations.ReservationsAreServedByAge : Prop :=
  (∀ (l : List Reservation) (b onHand : Nat),
    heldTotal (giveBack b onHand l) b = min (heldTotal l b) onHand ∧
    (∀ i r, l[i]? = some r → ∃ q, (giveBack b onHand l)[i]? = some q ∧ q.id = r.id ∧ q.wanted = r.wanted ∧
      q.bin = r.bin ∧ q.holder = r.holder ∧ q.held ≤ r.held ∧ (r.bin ≠ b → q = r) ∧
      (q.held < r.held → ∀ (j : Nat) (y : Reservation), i < j → (giveBack b onHand l)[j]? = some y → y.bin = b →
        y.held = 0)) ∧
    (giveBack b onHand l).length = l.length) ∧
  ∀ (l : List Reservation) (b free : Nat), (∀ r ∈ l, r.held ≤ r.wanted) →
    heldTotal (topUpFrom b free l).1 b ≤ heldTotal l b + free ∧
    (∀ i r, l[i]? = some r → ∃ q, (topUpFrom b free l).1[i]? = some q ∧ q.id = r.id ∧ q.wanted = r.wanted ∧
      q.bin = r.bin ∧ q.holder = r.holder ∧ r.held ≤ q.held ∧ q.held ≤ q.wanted ∧ (r.bin ≠ b → q = r) ∧
      (r.held < q.held → ∀ (j : Nat) (y : Reservation), j < i → (topUpFrom b free l).1[j]? = some y → y.bin = b →
        y.held = y.wanted)) ∧
    (heldTotal (topUpFrom b free l).1 b < heldTotal l b + free →
      ∀ r ∈ (topUpFrom b free l).1, r.bin = b → r.held = r.wanted)

/-- BIN_DEFINE of a new bin with a speed feeder, BIN_LOCK and BIN_UNLOCK, with no batch in the mixer (R34, R35, R37). A
redefinition, kind NONE and a discrete feeder have no clause here. How a feeder is coded, that the grind source and screen of a
bin that is not GROUND are not checked and are kept as given, and that the probes of a new bin show no state before the first
input sample, are the model's choices (notes/assumptions/6.md, 8.md, 70.md). -/
def Obligations.BinDefineAndLock : Prop :=
  ∀ (s : State) (tag : Byte) (bin : Nat), s.replyRoom = true → s.mixerBatch = none → 1 ≤ bin → bin ≤ 48 →
    (∀ (f : BinFields) (kind : BinKind) (outlet : Outlet) (output : Nat), s.saving = false → s.bin bin = none →
      f.kind ≠ 6 → binKindOf f.kind = some kind → outletOf f.outlet = some outlet →
      feederOf f.feederType f.feederNumber = some (.speed output) →
      (∀ ok ∈ binChecks f (some kind) (some outlet) ((outletScale outlet).map (fun sc => (s.chan sc).cfg.fmax)), ok = true) →
      (kind = .rework → s.reworkBin = none) → probesFree s bin (binDefOf f kind outlet (.speed output)) = true →
      (∀ b v, (b, v) ∈ s.inv.bins → v.cfg.feeder ≠ .speed output) →
      exec (.binDefine tag bin f) s = accepted s (.binDefine tag bin f)
        (fun u => u.setBin bin ⟨binDefOf f kind outlet (.speed output), 0, false, false, [], 0, f.inflight, none, none, false, 0⟩)
        (fun _ => [])) ∧
    (∀ v, s.bin bin = some v →
      exec (.binLock tag bin) s = accepted s (.binLock tag bin) (fun u => u.setBin bin { v with locked := true })
        (fun _ => [.u8 (flagCode v.locked)]) ∧
      exec (.binUnlock tag bin) s = accepted s (.binUnlock tag bin) (fun u => u.setBin bin { v with locked := false })
        (fun _ => [.u8 (flagCode v.locked)])) ∧
    (s.bin bin = none → exec (.binLock tag bin) s = refusedWith s (.binLock tag bin) .noSuch 0 ∧
      exec (.binUnlock tag bin) s = refusedWith s (.binUnlock tag bin) .noSuch 0)

/-- BIN_COUNT and BIN_RECEIVE on a bin that no reservation, press, grind or mixing batch waits on: the on-hand, the lots, the clamp
and the mark events: BIN_LOW at the fall below the low mark, BIN_HIGH at a clamp or at the rise above the high mark, at most one of
the latter (R40, R42, R43, R47). -/
def Obligations.CountAndReceive : Prop :=
  (∀ (s : State) (tag : Byte) (bin mass : Nat) (v : Bin), s.replyRoom = true → s.QuietBin bin → 1 ≤ bin → bin ≤ 48 →
    s.bin bin = some v →
    (∀ lot : Option Nat, lot.getD 0 ≤ 65535 → mass ≤ v.cfg.capacity → exec (.binCount tag bin mass lot) s =
      accepted s (.binCount tag bin mass lot)
        (fun u => markEvents (u.setBin bin { v with
          onHand := mass
          counted := true
          lots := if keepsLots v.cfg.kind = true ∧ 0 < mass then [⟨lot.getD 0, v.cfg.code, mass, false⟩] else [] })
          bin v.onHand .drawOrCount false)
        (fun _ => [.u32 v.onHand])) ∧
    (v.cfg.capacity < mass → exec (.binCount tag bin mass none) s =
      refusedWith s (.binCount tag bin mass none) .outOfRange 0) ∧
    (1 ≤ mass → mass ≤ max32 → v.cfg.kind = .raw ∨ v.cfg.kind = .micro → v.onHand ≤ v.cfg.capacity →
      exec (.binReceive tag bin mass) s = accepted s (.binReceive tag bin mass)
        (fun u => markEvents (u.setBin bin { v with onHand := min (v.onHand + mass) v.cfg.capacity })
          bin v.onHand .drawOrCount (decide (v.cfg.capacity < v.onHand + mass)))
        (fun _ => [.u32 (min mass (v.cfg.capacity - v.onHand)), .u8 (flagCode (decide (v.cfg.capacity < v.onHand + mass))),
          .u32 (min (v.onHand + mass) v.cfg.capacity)])) ∧
    (1 ≤ mass → mass ≤ max32 → v.cfg.kind ≠ .raw → v.cfg.kind ≠ .micro → exec (.binReceive tag bin mass) s =
      refusedWith s (.binReceive tag bin mass) .wrongState 0)) ∧
  ∀ (s : State) (bin before : Nat) (v : Bin) (cause : LowCause) (clamped : Bool), s.bin bin = some v →
    ∃ low high : List Event, (markEvents s bin before cause clamped).router.waiting = s.router.waiting ++ low ++ high ∧
      low = (if v.cfg.lowMark ≤ before ∧ v.onHand < v.cfg.lowMark then [.binLow bin cause] else []) ∧
      high = (if clamped then [.binHigh bin .clamped]
        else if before ≤ v.cfg.highMark ∧ v.cfg.highMark < v.onHand then [.binHigh bin .markCrossed] else [])

/-- The probe events of a bin that no press draws and nothing fills: a covered high probe only shows its state, and an uncovered
low probe writes the on-hand off (R45, R46). That a bin whose definition names no such probe takes these events too is the model's
choice (notes/assumptions/12.md). -/
def Obligations.ProbeEvents : Prop :=
  ∀ (s : State) (bin : Nat) (v : Bin), s.QuietBin bin → s.bin bin = some v →
    (s.beingFilled bin = false → exec (.highProbeCovered bin) s =
      .next ((s.takeOffered (.highProbe bin)).setBin bin { v with highCovered := some true })) ∧
    (v.cfg.kind ≠ .surge → 0 < v.onHand → exec (.lowProbeUncovered bin) s = .next (markEvents
      ((s.takeOffered (.lowProbe bin)).setBin bin { v with
        lowCovered := some false, onHand := 0, lots := [], counted := false,
        writeOff := min (v.writeOff + v.onHand) max32 }) bin v.onHand .writeOff false)) ∧
    (v.cfg.kind ≠ .surge → v.onHand = 0 → exec (.lowProbeUncovered bin) s =
      .next ((s.takeOffered (.lowProbe bin)).setBin bin { v with lowCovered := some false }))

/-! ### Plant I/O and the Route Arbiter -/

/-- INPUT_DEFINE, OUTPUT_DEFINE and ROUTE_DEFINE, their checks passed: the input starts afresh, the output leaves its old role and
takes the new one off, the route takes both lists (R62, R65, R72). That the role FREE is coded 19 is the model's choice
(notes/assumptions/6.md). -/
def Obligations.PlantDefinitions : Prop :=
  ∀ (s : State) (tag : Byte), s.replyRoom = true → s.saving = false →
    (∀ (n polarity time type use : Nat) (cfg : InputConfig), n < 64 → inputConfigOf polarity time type use = some cfg →
      useFree s n cfg.use = true → (cfg.use = .none ∨ s.probeBin n = none) →
      (cfg.use = .permissive ∨ routeNames s n = false) → exec (.inputDefine tag n polarity time type use) s =
        accepted s (.inputDefine tag n polarity time type use) (fun u => u.setPin n ⟨cfg, none, 0⟩) (fun _ => [])) ∧
    (∀ n role : Nat, n < 64 → s.feederBin (.discrete n) = none → s.gateInUse n = false →
      (∀ r : Role, roleOf role = some r → (s.roleOutput r = none ∨ s.roleOutput r = some n) →
        exec (.outputDefine tag n role) s = accepted s (.outputDefine tag n role)
          (fun u => u.setIO { u.io with
            roles := Table.set (Table.del u.io.roles n) n r, freeOn := Table.del u.io.freeOn n }) (fun _ => [])) ∧
      (∀ r : Role, Table.get s.io.roles n = some r → exec (.outputDefine tag n 19) s =
        accepted s (.outputDefine tag n 19)
          (fun u => u.setIO { u.io with roles := Table.del u.io.roles n, freeOn := Table.del u.io.freeOn n })
          (fun _ => []))) ∧
    ∀ (route : Nat) (ps : List PermissiveField) (rs : List Nat), routeInRange route ps rs = true →
      (∀ p ∈ ps, (s.pin p.input).cfg.use = .permissive) → routeInUse s route = false →
      exec (.routeDefine tag route ps rs) s = accepted s (.routeDefine tag route ps rs)
        (fun u => u.setArb { u.arb with
          routes := Table.put ⟨[], []⟩ u.arb.routes route ⟨ps.map (fun p => ⟨p.input, decide (p.required = 0)⟩), rs⟩ })
        (fun _ => [])

/-- OUTPUT_SET and OUTPUT_CLEAR switch the free outputs of their mask and leave every owned one alone; OUTPUT_SET is refused in a
Line Stop (R66). ANALOG_DEFINE and ANALOG_SET (R68, R69). That the outputs' states are sent as one mask is the model's choice
(notes/assumptions/6.md). -/
def Obligations.OutputAndAnalogRequests : Prop :=
  ∀ (s : State) (tag : Byte), s.replyRoom = true →
    (∀ mask : Nat, s.stopped = false → exec (.outputSet tag mask) s = accepted s (.outputSet tag mask)
      (fun u => switchFree u mask true) (fun u => outputItems u mask)) ∧
    (∀ mask : Nat, s.stopped = true → exec (.outputSet tag mask) s = refusedWith s (.outputSet tag mask) .lineStopped 0) ∧
    (∀ mask : Nat, exec (.outputClear tag mask) s = accepted s (.outputClear tag mask)
      (fun u => switchFree u mask false) (fun u => outputItems u mask)) ∧
    (∀ (mask : Nat) (on : Bool), switchFree s mask on = s.setIO { s.io with freeOn := (switchFree s mask on).io.freeOn } ∧
      ∀ n : Nat, Table.getD false (switchFree s mask on).io.freeOn n =
        if n < 64 ∧ mask.testBit n = true ∧ s.outputOwned n = false then on else Table.getD false s.io.freeOn n) ∧
    (∀ (n : Nat) (bottom top : Int), s.saving = false → n < 8 → -32768 ≤ bottom → bottom ≤ 32767 → -32768 ≤ top →
      top ≤ 32767 → exec (.analogDefine tag n bottom top) s = accepted s (.analogDefine tag n bottom top)
        (fun u => u.setIO { u.io with spans := Table.put (0, 1000) u.io.spans n (bottom, top) }) (fun _ => [])) ∧
    (∀ n value : Nat, (n = 2 ∨ n = 3) → exec (.analogSet tag n value) s = accepted s (.analogSet tag n value)
      (fun u => u.setIO { u.io with analogOut := Table.put 0 u.io.analogOut n (min value 1000) })
      (fun _ => [.u16 (min value 1000), .u8 (flagCode (decide (1000 < value)))])) ∧
    (∀ n value : Nat, n < 2 → exec (.analogSet tag n value) s = refusedWith s (.analogSet tag n value) .inUse 0) ∧
    ∀ n value : Nat, 4 ≤ n → exec (.analogSet tag n value) s = refusedWith s (.analogSet tag n value) .outOfRange 0

/-- R73: the permit time, its default, ARBITER_SET, and which permit waits a new time applies to. R73 names its refusals without an
order: that a time out of range is answered OUT_OF_RANGE also during a save is the model's choice (notes/assumptions/9.md). -/
def Obligations.PermitTimeSetting : Prop :=
  (∀ (s : State) (b a : Bool), s.store.image = none → ∃ t, exec (.fullReset b a) s = .next t ∧ t.arb.permitTime = 300) ∧
  (∀ (s : State) (tag : Byte) (time : Nat), s.replyRoom = true →
    ((time = 0 ∨ 6000 < time) → exec (.arbiterSet tag time) s = refusedWith s (.arbiterSet tag time) .outOfRange 0) ∧
    (1 ≤ time → time ≤ 6000 → s.saving = true →
      exec (.arbiterSet tag time) s = refusedWith s (.arbiterSet tag time) .busy 0) ∧
    (1 ≤ time → time ≤ 6000 → s.saving = false → exec (.arbiterSet tag time) s =
      accepted s (.arbiterSet tag time) (fun u => u.setArb { u.arb with permitTime := time }) (fun _ => []))) ∧
  ∀ (s : State) (slot : Nat) (x : Transfer),
    (s.failingPermissive { x with held := s.legResources x.legs }).isSome = true →
    Table.get (grant s slot x).1.arb.transfers slot = some { x with
      held := s.legResources x.legs, state := .permitWait, timer := some s.arb.permitTime }

/-- What fails a transfer, and what its owner does (R76, R77, R79 to R81, R101, R109, R110, R129, R154, R166, R172, R188). A
transfer that an owner ends leaves the table. The permit timer of a waiting transfer runs out: the job goes to HELD with
NO_PERMIT, or PERMIT with the time-out as its cause, its transfer ended. A FLOWING transfer that loses a permissive is aborted
and its job held; a Line Stop that meets a job at work aborts its transfer and holds it, PERMISSIVE_LOST and LINE_STOP raised
last. That the mill's u is 0 in a hold is read by inference (notes/assumptions/14.md), and so is that a held loadout's ABORTED
record leaves the table at the hold, against the worked sequence 3.8 (notes/assumptions/58.md). That the press's request for its
divert is withdrawn with its transfer is the model's choice (notes/assumptions/85.md). The grant scan takes the waiting
transfers oldest first, past those whose resources are held. -/
def Obligations.TransferFailuresReachTheirJobs : Prop :=
  (∀ (s : State) (o : Owner) (slot : Nat) (x : Transfer), s.transferOf o = some (slot, x) →
    transferEnded s o = (dropOutputs s x).setArb { s.arb with
      transfers := Table.del s.arb.transfers slot, waiting := s.arb.waiting.erase slot } ∧
    Table.get (transferEnded s o).arb.transfers slot = none) ∧
  (∀ (s : State) (slot : Nat) (x : Transfer) (left : Nat), Table.get s.arb.transfers slot = some x →
    ((x.state = .permitWait → x.timer = none) → exec (.permitTimeout slot) s = .next s) ∧
    (x.state = .permitWait → x.timer = some left → s.transferOf x.owner = some (slot, x) → s.arb.waiting = [] →
      (∀ (n : Nat) (r : GrindRequest), x.owner = .mill → s.mill.current = some n → s.grind n = some r →
        s.mill.state = .running → exec (.permitTimeout slot) s =
          .next (((transferEnded (s.askFeeder r.source 0) .mill).setMill { s.mill with
            engaged := false, u := 0, state := .held .noPermit, timer := none }).raise (.millHeld .noPermit n))) ∧
      (∀ (p : PressId) (a : ActiveRun), x.owner = pressOwner p → (s.pressAt p).active = some a →
        ((s.pressAt p).state = .running ∨ (s.pressAt p).state = .flushing) → exec (.permitTimeout slot) s =
          .next (((transferEnded (s.askFeeder (s.pressAt p).cfg.surgeBin 0) (pressOwner p)).setPress p { s.pressAt p with
            engaged := false, state := .held .noPermit .none, timer := none }).raise
              (.pressHeld p .noPermit .none a.number))) ∧
      (∀ (r : BagRun) (rest : List BagRun), x.owner = .bagger → s.bag.queue = r :: rest → r.state = .waitBag →
        exec (.permitTimeout slot) s = .next ((((transferEnded s .bagger).setBag { s.bag with
          queue := { r with state := .held .permit .timeout .waitBag, permitLost := false } :: rest
          timer := none }).ask .baggerReject false).ask .baggerClamp r.onSpout)) ∧
      (∀ (o : Order) (i : Nat) (l : OrderLine), x.owner = .loadout → s.book.loadout.state = .loading →
        s.currentLine = some (o, i, l) → exec (.permitTimeout slot) s =
          .next (((transferEnded s .loadout).setLoadState (.held .permit .timeout)).raise
            (.loadoutHeld i .permit .timeout))) ∧
      (∀ (b : Batch) (i : Nat) (e : StepEntry), x.owner = .batchMain → s.line.batches = [b] → b.state = .dosing →
        b.dosingStep .main = some (i, e) → b.dosingStep .micro = none → exec (.permitTimeout slot) s =
          .next ((((transferEnded s .batchMain).askAll (stepGates e.source) false).setLine { s.line with
            batches := [{ b with steps := b.steps.set (i - 1) { e with status := .held .noPermit }
                                 state := .held .dosing .noPermit }] }).raise (.stepHeld b.number i .noPermit))) ∧
      (∀ b : Batch, x.owner = .batchRelease → s.line.batches = [b] → b.state = .mixed → exec (.permitTimeout slot) s =
        .next (((transferEnded s .batchRelease).setLine { s.line with
          batches := [{ b with state := .held .mixed .noPermit, timer := none, waitCause := none }] }).raise
            (.batchHeld b.number .noPermit .mixed))))) ∧
  (∀ (s u w : State) (levels : Nat) (analog : List Int) (slot route : Nat) (x : Transfer) (q : Permissive),
    takeInputSample s levels analog = (u, [.judgeTransfer slot]) → Table.get u.arb.transfers slot = some x →
    x.state = .flowing → u.failingPermissive x = some (route, q) → u.transferOf x.owner = some (slot, x) →
    u.arb.waiting = [] → w = (dropOutputs u x).setArb { u.arb with
      transfers := Table.set u.arb.transfers slot { x with
        state := .aborted, held := [], cause := some (.permit route q.input) } } →
    (∀ (n : Nat) (r : GrindRequest), x.owner = .mill → u.mill.current = some n → u.grind n = some r →
      u.mill.state = .running → exec (.inputSample levels analog) s =
        .next ((((transferEnded (w.askFeeder r.source 0) .mill).setMill { u.mill with
          engaged := false, u := 0, state := .held .permit, timer := none }).raise (.millHeld .permit n)).raise
            (.permissiveLost .mill route q.input q.required))) ∧
    (∀ (p : PressId) (a : ActiveRun), x.owner = pressOwner p → (u.pressAt p).active = some a →
      ((u.pressAt p).state = .running ∨ (u.pressAt p).state = .flushing) → exec (.inputSample levels analog) s =
        .next ((((transferEnded (w.askFeeder (u.pressAt p).cfg.surgeBin 0) (pressOwner p)).setPress p { u.pressAt p with
          engaged := false, state := .held .permit .none, timer := none }).raise
            (.pressHeld p .permit .none a.number)).raise (.permissiveLost (pressOwner p) route q.input q.required))) ∧
    ∀ (o : Order) (i : Nat) (l : OrderLine), x.owner = .loadout → (u.chan .truck).dose = none →
      u.book.loadout.state = .loading → u.currentLine = some (o, i, l) → exec (.inputSample levels analog) s =
        .next ((((transferEnded w .loadout).setLoadState (.held .permit .lost)).raise
          (.loadoutHeld i .permit .lost)).raise (.permissiveLost .loadout route q.input q.required))) ∧
  (∀ (s u : State) (slot : Nat) (x : Transfer), s.stopped = false → s.arb.transfers = [(slot, x)] → x.state ≠ .aborted →
    (∀ sc, (s.chan sc).dose = none) →
    u = ((dropOutputs (s.takeOffered .lineStopInput) x).setIO
      { (dropOutputs (s.takeOffered .lineStopInput) x).io with freeOn := [] }).setArb { s.arb with
        transfers := [(slot, { x with state := .aborted, held := [], timer := none, cause := some .lineStop })]
        waiting := []
        stop := ⟨true, true, false⟩ } →
    (∀ (n : Nat) (r : GrindRequest), x.owner = .mill → s.line.batches = [] → (∀ p, (s.pressAt p).state = .idle) →
      s.bag.queue = [] → s.book.loadout.state = .noTruck → s.mill.current = some n → s.grind n = some r →
      s.mill.state = .running → exec .lineStopInputActive s =
        .next ((((((transferEnded (u.askFeeder r.source 0) .mill).ask .millMotor false).setMill { s.mill with
          engaged := false, u := 0, state := .held .lineStop, timer := none, feedbackFound := false }).setBag
            { s.bag with startMark := false }).raise (.millHeld .lineStop n)).raise (.lineStop .input 1))) ∧
    (∀ (p : PressId) (a : ActiveRun), x.owner = pressOwner p → s.line.batches = [] → s.mill.state = .stopped →
      (∀ q, q ≠ p → (s.pressAt q).state = .idle) → s.bag.queue = [] → s.book.loadout.state = .noTruck →
      (s.pressAt p).active = some a → ((s.pressAt p).state = .running ∨ (s.pressAt p).state = .flushing) →
      exec .lineStopInputActive s =
        .next ((((((u.askFeeder (s.pressAt p).cfg.surgeBin 0).ask (pressMotor p) false).setPress p { s.pressAt p with
          engaged := false, feedbackFound := false, state := .held .lineStop .none, timer := none }).setBag
            { s.bag with startMark := false }).raise (.pressHeld p .lineStop .none a.number)).raise
              (.lineStop .input 1))) ∧
    (∀ b : Batch, x.owner = .batchRelease → s.line.batches = [b] → b.state = .releasing → (∀ left, b.timer ≠ some (.mix left)) →
      s.mill.state = .stopped → (∀ p, (s.pressAt p).state = .idle) → s.bag.queue = [] →
      s.book.loadout.state = .noTruck → exec .lineStopInputActive s =
        .next ((((((transferEnded u .batchRelease).askAll
          [.mainDischargeGate, .microDischargeGate, .mixerGate, .mixerMotor] false).setLine { s.line with
            batches := [{ b with state := .held .releasing .lineStop, timer := none, waitCause := none }] }).setBag
              { s.bag with startMark := false }).raise (.batchHeld b.number .lineStop .releasing)).raise
                (.lineStop .input 1))) ∧
    (∀ (r : BagRun) (rest : List BagRun), x.owner = .bagger → s.line.batches = [] → s.mill.state = .stopped →
      (∀ p, (s.pressAt p).state = .idle) → s.book.loadout.state = .noTruck → s.bag.queue = r :: rest →
      r.state = .waitBag → exec .lineStopInputActive s =
        .next (((((transferEnded u .bagger).setBag { s.bag with
          startMark := false
          queue := { r with state := .held .lineStop .none .waitBag, onSpout := false, permitLost := false } :: rest
          timer := none }).ask .baggerReject false).ask .baggerClamp false).raise (.lineStop .input 1))) ∧
    (∀ (o : Order) (i : Nat) (l : OrderLine), x.owner = .loadout → s.line.batches = [] → s.mill.state = .stopped →
      (∀ p, (s.pressAt p).state = .idle) → s.bag.queue = [] → s.book.loadout.state = .loading →
      s.currentLine = some (o, i, l) → exec .lineStopInputActive s =
        .next ((((transferEnded (u.setBag { s.bag with startMark := false }) .loadout).setLoadState
          (.held .lineStop .none)).raise (.loadoutHeld i .lineStop .none)).raise (.lineStop .input 1)))) ∧
  ∀ (s : State), s.stopped = false →
    (∀ (before after : List Nat) (slot : Nat) (x : Transfer), s.arb.waiting = before ++ slot :: after →
      (∀ k ∈ before, ∀ y, Table.get s.arb.transfers k = some y → ∃ n ∈ s.legResources y.legs, s.resourceHeld n = true) →
      Table.get s.arb.transfers slot = some x → (∀ n ∈ s.legResources x.legs, s.resourceHeld n = false) →
      grantScan s = (grant s slot x).andThen (grantScanOver after)) ∧
    ((∀ k ∈ s.arb.waiting, ∀ y, Table.get s.arb.transfers k = some y →
      ∃ n ∈ s.legResources y.legs, s.resourceHeld n = true) → grantScan s = (s, []))

/-- LINE_STOP and the LINE_STOP input on a part with no transfer and no job at work: the Line Stop is in force with its causes, every
free output off, the start mark gone, and LINE_STOP raised; in a Line Stop only the cause is recorded. LINE_RESUME clears it, and
with no Line Stop in force changes nothing (R81, R83, R84, R163, R172). That LINE_RESUME with none in force is answered OK whatever
the LINE_STOP input reads, is read by inference (notes/assumptions/31.md); that an input without a state counts as not ACTIVE is the
model's choice (notes/assumptions/59.md). -/
def Obligations.LineStopAndResume : Prop :=
  ∀ (s : State) (tag : Byte), s.replyRoom = true → s.arb.transfers = [] → s.line.batches = [] → s.mill.state = .stopped →
    (∀ p, (s.pressAt p).state = .idle) → s.bag.queue = [] → s.book.loadout.state = .noTruck →
    (∀ sc, (s.chan sc).dose = none) → s.mill.queue = [] →
    (s.stopped = false → s.useActive .lineStop = false →
      exec (.lineStop tag) s = accepted s (.lineStop tag)
        (fun u => (((u.setIO { u.io with freeOn := [] }).setArb { u.arb with
          waiting := [], stop := ⟨true, false, true⟩ }).setBag { u.bag with startMark := false }).raise
            (.lineStop .request 0)) (fun _ => [.u8 0])) ∧
    (s.stopped = false → exec .lineStopInputActive s =
      .next ((((((s.takeOffered .lineStopInput)).setIO { (s.takeOffered .lineStopInput).io with freeOn := [] }).setArb
        { s.arb with waiting := [], stop := ⟨true, true, false⟩ }).setBag { s.bag with startMark := false }).raise
          (.lineStop .input 0))) ∧
    (s.stopped = true → exec (.lineStop tag) s = accepted s (.lineStop tag)
        (fun u => u.setArb { u.arb with stop := { u.arb.stop with byRequest := true } }) (fun _ => [.u8 1]) ∧
      exec .lineStopInputActive s = .next ((s.takeOffered .lineStopInput).setArb
        { s.arb with stop := { s.arb.stop with byInput := true } })) ∧
    (s.stopped = true → s.useActive .lineStop = false → exec (.lineResume tag) s = accepted s (.lineResume tag)
      (fun u => u.setArb { u.arb with stop := ⟨false, false, false⟩ }) (fun _ => [])) ∧
    (s.stopped = true → s.useActive .lineStop = true →
      exec (.lineResume tag) s = refusedWith s (.lineResume tag) .wrongState 0) ∧
    (s.stopped = false → exec (.lineResume tag) s = accepted s (.lineResume tag) id (fun _ => []))

/-- An input sample with no probe, no use and no transfer: each input's debounced state and count follow R60, and the analog
positions are the plant's (R60, R68). -/
def Obligations.InputSampleDebounces : Prop :=
  ∀ (s : State) (levels : Nat) (analog : List Int), s.inv.bins = [] → s.arb.transfers = [] →
    (∀ e ∈ s.io.inputs, e.2.cfg.use = .none) → analog.length ≤ 8 →
    ∃ t, exec (.inputSample levels analog) s = .next t ∧ t.io.firstSample = false ∧ t.io.offered = s.io.offered ∧
      t.arb = s.arb ∧ t.inv = s.inv ∧ t.weigh = s.weigh ∧ t.line = s.line ∧ t.mill = s.mill ∧ t.press = s.press ∧ t.bag = s.bag ∧
      t.book = s.book ∧ t.router = s.router ∧ t.link = s.link ∧ t.store = s.store ∧
      (∀ k p, analog[k]? = some p → Table.getD 0 t.io.analogPins k = p) ∧
      ∀ n < 64, let raw := levels.testBit n != (s.pin n).cfg.inverted
        (t.pin n).cfg = (s.pin n).cfg ∧
        ((s.pin n).active = none ∨ (s.pin n).active = some raw →
          (t.pin n).active = some raw ∧ (t.pin n).count = 0) ∧
        ((s.pin n).active = some (!raw) → (s.pin n).count + 1 < max 1 ((s.pin n).cfg.debounce / 10) →
          (t.pin n).active = some (!raw) ∧ (t.pin n).count = (s.pin n).count + 1) ∧
        ((s.pin n).active = some (!raw) → max 1 ((s.pin n).cfg.debounce / 10) ≤ (s.pin n).count + 1 →
          (t.pin n).active = some raw ∧ (t.pin n).count = 0)

/-! ### The Batch Line -/

/-- R88: FORMULA_OPEN, its checks in their order and its effect. -/
def Obligations.FormulaOpenBeginsAFormula : Prop :=
  ∀ (s : State) (tag : Byte) (formula product mixTime : Nat), s.replyRoom = true →
    let ranged := 1 ≤ formula ∧ formula ≤ 32 ∧ 1 ≤ product ∧ product ≤ 65535 ∧ mixTime ≤ 6000
    let inUse := ∃ b ∈ s.line.batches, b.formula = formula
    let c : Instr := .formulaOpen tag formula product mixTime
    (¬ranged → exec c s = refusedWith s c .outOfRange 0) ∧
    (ranged → s.saving = true → exec c s = refusedWith s c .busy 0) ∧
    (ranged → s.saving = false → inUse → exec c s = refusedWith s c .inUse 0) ∧
    (ranged → s.saving = false → ¬inUse → exec c s = accepted s c
      (fun u => u.setLine { u.line with formulas := Table.set u.line.formulas formula ⟨false, product, mixTime, []⟩ })
      (fun _ => []))

/-- R89: FORMULA_STEP, its refusals and its effect. R89 names its refusals without an order: that OUT_OF_RANGE comes before BUSY,
BUSY before WRONG_STATE and this before NO_ROOM is the model's choice (notes/assumptions/9.md). -/
def Obligations.FormulaStepAppendsAStep : Prop :=
  ∀ (s : State) (tag : Byte) (formula : Nat) (fields : StepFields), s.replyRoom = true →
    let ranged := 1 ≤ formula ∧ formula ≤ 32 ∧ fields.channel ≤ 1 ∧ fields.bin ≤ 48 ∧ 1 ≤ fields.amount ∧
      fields.amount ≤ 1000000 ∧ fields.tolerance ≤ 100 ∧ fields.mark ≤ 1 ∧ fields.pattern < 16
    let c : Instr := .formulaStep tag formula fields
    (¬ranged → exec c s = refusedWith s c .outOfRange 0) ∧
    (ranged → s.saving = true → exec c s = refusedWith s c .busy 0) ∧
    (ranged → s.saving = false → (∀ f, Table.get s.line.formulas formula = some f → f.closed = true) →
      exec c s = refusedWith s c .wrongState 0) ∧
    (∀ f : Formula, ranged → s.saving = false → Table.get s.line.formulas formula = some f → f.closed = false →
      (24 ≤ f.steps.length → exec c s = refusedWith s c .noRoom 0) ∧
      (f.steps.length < 24 → exec c s = accepted s c
        (fun u => u.setLine { u.line with formulas := Table.set u.line.formulas formula { f with
          steps := f.steps ++ [⟨if fields.channel = 0 then .main else .micro, fields.bin, fields.amount,
            fields.tolerance, decide (fields.mark = 1), auxOf fields.pattern⟩] } })
        (fun _ => [.u8 (f.steps.length + 1)])))

/-- FORMULA_CLOSE: an empty formula is removed, one whose steps all pass is CLOSED, and the first failing step refuses it (R90).
BATCHLINE_SET writes the three times and touches no running timer (R92). -/
def Obligations.FormulaCloseAndTimes : Prop :=
  ∀ (s : State) (tag : Byte), s.replyRoom = true → s.saving = false →
    (∀ (formula : Nat) (f : Formula), 1 ≤ formula → formula ≤ 32 → Table.get s.line.formulas formula = some f →
      f.closed = false →
      (f.steps = [] → exec (.formulaClose tag formula) s = accepted s (.formulaClose tag formula)
        (fun u => u.setLine { u.line with formulas := Table.del u.line.formulas formula }) (fun _ => [.u8 0])) ∧
      (f.steps ≠ [] → (∀ e ∈ f.steps, (e.hand = true ∧ e.bin = 0 ∧ e.scale = .micro) ∨ (e.hand = false ∧ e.bin ≠ 0 ∧
          ∃ v, s.bin e.bin = some v ∧ outletScale v.cfg.outlet = some e.scale)) →
        exec (.formulaClose tag formula) s = accepted s (.formulaClose tag formula)
          (fun u => u.setLine { u.line with formulas := Table.set u.line.formulas formula { f with closed := true } })
          (fun _ => [.u8 f.steps.length])) ∧
      (∀ (done rest : List FormulaStep) (e : FormulaStep) (code : ReplyCode), f.steps = done ++ e :: rest →
        (∀ d ∈ done, stepFailure s d = none) → stepFailure s e = some code →
        exec (.formulaClose tag formula) s = refusedWith s (.formulaClose tag formula) code (done.length + 1))) ∧
    ∀ discharge release timeout : Nat, 1 ≤ discharge → discharge ≤ 6000 → 1 ≤ release → release ≤ 6000 → 1 ≤ timeout →
      timeout ≤ 6000 → exec (.batchlineSet tag discharge release timeout) s =
        accepted s (.batchlineSet tag discharge release timeout)
          (fun u => u.setLine { u.line with times := ⟨discharge, release, timeout⟩ }) (fun _ => [])

/-- BATCH_QUEUE behind a batch that occupies the scale group, or in a Line Stop: the reservations of its bin steps are created in
step order and the batch joins the batch order; BATCH_RELEASE clears its flag (R94, R95, R97). -/
def Obligations.BatchQueueAndRelease : Prop :=
  ∀ (s : State) (tag : Byte) (number : Nat), s.replyRoom = true →
    (s.stopped = true ∨ ∃ y ∈ s.line.batches, y.onScales = true ∧ y.number ≠ number) →
    1 ≤ number → number ≤ 65535 →
    (∀ (formula size lot destination : Nat) (wait : Bool) (f : Formula) (v : Bin), 1 ≤ formula → formula ≤ 32 →
      100000 ≤ size → size ≤ 4000000 → lot ≤ 65535 → 1 ≤ destination → destination ≤ 48 → s.batch number = none →
      s.line.batches.length < 8 → Table.get s.line.formulas formula = some f → f.closed = true →
      s.bin destination = some v → (v.cfg.kind = .surge ∨ v.cfg.kind = .rework ∨
        (v.cfg.kind = .finished ∧ v.cfg.code = f.product)) →
      (∀ e ∈ f.steps, e.hand = true ∨ ∃ w, s.bin e.bin = some w ∧ outletScale w.cfg.outlet = some e.scale ∧
        w.locked = false) →
      (∀ e ∈ f.steps, 20 * (s.chan e.scale).cfg.division ≤ stepTarget size e) →
      (∀ sc, ((f.steps.filter (fun e => decide (e.scale = sc))).map (stepTarget size)).sum ≤ (s.chan sc).cfg.capacity) →
      (∀ e ∈ f.steps, e.scale = .main ∨ e.scale = .micro) →
      s.inv.reservations.length + (f.steps.filter (fun e => !e.hand)).length ≤ 192 →
      ∀ (made : State × List Nat) (b : Batch) (c : Instr),
        c = .batchQueue tag number formula size lot destination (flagCode wait) →
        made = createAll (dropFrame s) (batchClaims number size 1 f.steps) →
        b = newBatch number formula size lot destination wait f made.2 →
        exec c s = inTurn s c (answer (made.1.setLine { made.1.line with batches := made.1.line.batches ++ [b] })
          (replyTo c .ok 0 (queueItems b (made.1.shortCount b))))) ∧
    (∀ b : Batch, s.batch number = some b → b.releaseWait = true →
      exec (.batchRelease tag number) s = accepted s (.batchRelease tag number)
        (fun u => u.putBatch { b with releaseWait := false }) (fun _ => [])) ∧
    (∀ b : Batch, s.batch number = some b → b.releaseWait = false →
      exec (.batchRelease tag number) s = refusedWith s (.batchRelease tag number) .wrongState 0)

/-- A reservation is created as the youngest, with a fresh id of 1 to 65,535 and as much of its wanted mass as is free (R52,
R53). -/
def Obligations.CreationTakesFreeMass : Prop :=
  ∀ (s : State) (b wanted : Nat) (h : Holder), s.inv.reservations.length < 192 → s.inv.nextId ≤ 65535 →
    ∃ (id : Nat), (createOne s b h wanted).2 = id ∧ 1 ≤ id ∧ id ≤ 65535 ∧ (∀ r ∈ s.inv.reservations, r.id ≠ id) ∧
      (createOne s b h wanted).1 = s.setInv { s.inv with
        reservations := s.inv.reservations ++ [⟨id, b, h, wanted, min wanted (s.freeMass b)⟩]
        nextId := if id = 65535 then 1 else id + 1 }

/-- BATCH_RESUME of a batch held in the mixer goes on by its held phase. BATCH_CANCEL of a batch without claims removes it, and no
event follows; a batch past WAIT_STOCK is not cancelled (R105, R106, R111, R112). That a batch HELD in DOSING is refused even where
no step of it is held, is read by inference (notes/assumptions/37.md). R111 names its refusals without an order: that a Line Stop
is answered LINE_STOPPED also for a batch that is not HELD is the model's choice (notes/assumptions/9.md). -/
def Obligations.BatchResumeAndCancel : Prop :=
  (∀ (s : State) (tag : Byte) (number : Nat) (b : Batch) (reason : BatchReason), s.replyRoom = true →
    s.batch number = some b → (∀ e ∈ b.steps, e.isHeld = false) →
    (s.stopped = true → exec (.batchResume tag number) s = refusedWith s (.batchResume tag number) .lineStopped 0) ∧
    (s.stopped = false → b.state = .held .discharging reason →
      exec (.batchResume tag number) s = accepted s (.batchResume tag number)
        (fun u => askGates ((u.ask .mixerMotor true).putBatch { b with
          state := .discharging, timer := some (.discharge s.line.times.discharge) }) b true) (fun _ => [])) ∧
    (s.stopped = false → b.state = .held .mixing reason → 0 < b.mixLeft →
      exec (.batchResume tag number) s = accepted s (.batchResume tag number)
        (fun u => (u.ask .mixerMotor true).putBatch { b with state := .mixing, timer := some (.mix b.mixLeft) })
        (fun _ => [])) ∧
    (s.stopped = false → b.state = .held .dosing reason →
      exec (.batchResume tag number) s = refusedWith s (.batchResume tag number) .wrongState 0)) ∧
  ∀ (s : State) (tag : Byte) (number : Nat) (b : Batch), s.replyRoom = true → s.batch number = some b →
    ((b.state = .queued ∨ b.state = .waitStock) → b.claims = [] →
      exec (.batchCancel tag number) s = accepted s (.batchCancel tag number) (fun u => u.dropBatch number)
        (fun _ => [])) ∧
    (b.state ≠ .queued → b.state ≠ .waitStock →
      exec (.batchCancel tag number) s = refusedWith s (.batchCancel tag number) .wrongState 0)

/-- HAND_DONE, STEP_RESUME and BATCH_ABANDON of a held batch, and the batch timers (R40, R48, R102, R104 to R109, R113). BATCH_ABANDON
of a batch held in DISCHARGING, its steps over and its claims gone, turns it to the REWORK bin. The discharge timer holds the batch
with its gates off; the mix timer leads to MIXED and its room check; the release timer, or the MIXER_EMPTY input, ends the
release: its transfer is ended, and the fill, the completion record, BATCH_DONE and the end of the batch follow. -/
def Obligations.BatchHoldsAndTimers : Prop :=
  (∀ (s : State) (tag : Byte) (number : Nat) (b : Batch), s.replyRoom = true → s.batch number = some b →
    (∀ (d : OpenDose) (i : Nat), (s.chan .micro).dose = some d → d.state = .handWait → d.order.bin = none →
      d.order.requester = .batchMicro number i →
      exec (.handDone tag number) s = accepted s (.handDone tag number)
        (fun u => u.setChan .micro { u.chan .micro with dose := some { d with
          state := .settling, timer := some (s.chan .micro).cfg.settleTime, nets := [] } }) (fun _ => [])) ∧
    (s.batchDoseOn number .micro = false →
      exec (.handDone tag number) s = refusedWith s (.handDone tag number) .wrongState 0) ∧
    (∀ (i j : Nat) (e f : StepEntry) (reason : StepReason), 1 ≤ i → i ≤ 24 → b.steps[i - 1]? = some e →
      e.status = .held reason → reason ≠ .overWeight → e.actual < e.target → s.stopped = false → i ≠ j → 1 ≤ j →
      b.steps[j - 1]? = some f → f.isHeld = true →
      exec (.stepResume tag number i 0) s = accepted s (.stepResume tag number i 0)
        (fun u => u.putBatch { b with steps := b.steps.set (i - 1) { e with status := .pending, retried := true } })
        (fun _ => [])) ∧
    (∀ (i j : Nat) (e f : StepEntry) (reason : StepReason), 1 ≤ i → i ≤ 24 → b.steps[i - 1]? = some e →
      e.status = .held reason → s.stopped = false → i ≠ j → 1 ≤ j → b.steps[j - 1]? = some f → f.isHeld = true →
      (∀ id, e.reservation = some id → s.claim (.batchStep b.number i) id = none) →
      exec (.stepResume tag number i 1) s = accepted s (.stepResume tag number i 1)
        (fun u => u.putBatch { b with steps := b.steps.set (i - 1) { e with status := .done }, total := b.total + e.actual })
        (fun _ => []) ∧
      (reason ≠ .overWeight → exec (.stepResume tag number i 2) s = accepted s (.stepResume tag number i 2)
        (fun u => u.putBatch { b with
          steps := b.steps.set (i - 1) { e with status := .skipped }, total := b.total + e.actual }) (fun _ => []))) ∧
    (∀ (i : Nat) (e : StepEntry), 1 ≤ i → i ≤ 24 → b.steps[i - 1]? = some e → e.status = .held .overWeight →
      s.stopped = false → exec (.stepResume tag number i 0) s = refusedWith s (.stepResume tag number i 0) .wrongState 0 ∧
        exec (.stepResume tag number i 2) s = refusedWith s (.stepResume tag number i 2) .wrongState 0) ∧
    ∀ (reason : BatchReason) (rework : Nat), b.state = .held .discharging reason → s.stopped = false →
      s.reworkBin = some rework → s.batchDoseOpen number = false →
      (∀ e ∈ b.steps, e.status = .done ∨ e.status = .skipped) → (∀ c ∈ b.claims, s.claim c.1 c.2 = none) →
      exec (.batchAbandon tag number) s = accepted s (.batchAbandon tag number)
        (fun u => askGates ((((u.putBatch { b with abandoned := true, destination := rework }).ask .mixerMotor true)).putBatch
          { b with abandoned := true, destination := rework, state := .discharging,
                   timer := some (.discharge s.line.times.discharge) }) b true)
        (fun _ => [.u32 b.total])) ∧
  ∀ (s : State) (b : Batch) (left : Nat), s.line.batches = [b] → s.arb.waiting = [] →
    (b.state = .discharging → b.timer = some (.discharge left) → exec .dischargeTimeout s =
      .next (((transferEnded (askGates s b false) .batchRelease).putBatch { b with
        state := .held .discharging .discharge, timer := none, waitCause := none }).raise
          (.batchHeld b.number .discharge .discharging))) ∧
    (b.state = .mixing → b.timer = some (.mix left) → s.stopped = false →
      (s.bin b.destination = none → exec .mixTimeout s = .next (s.putBatch { b with
        state := .mixed, timer := none, mixLeft := 0, waitCause := some .noDestination })) ∧
      ∀ v : Bin, s.bin b.destination = some v → v.locked = false → (v.cfg.kind = .surge ∨ v.cfg.kind = .rework) →
        v.cfg.capacity < v.onHand + b.total → v.onHand ≤ v.cfg.capacity → exec .mixTimeout s = .next (s.putBatch { b with
          state := .mixed, timer := none, mixLeft := 0, waitCause := some .room })) ∧
    (b.state = .releasing → b.timer = some (.release left false) → exec .releaseTimeout s =
      .next (((transferEnded s .batchRelease).putBatch { b with
        state := .held .releasing .discharge, timer := none, waitCause := none }).raise
        (.batchHeld b.number .discharge .releasing))) ∧
    ∀ (v u : State) (w : Bin), v = transferEnded s .batchRelease → b.state = .releasing → v.bin b.destination = some w →
      0 < b.total → w.onHand + b.total ≤ w.cfg.capacity → (∀ r ∈ s.inv.reservations, r.bin ≠ b.destination) →
      s.currentGrind = none → (∀ p, (s.pressAt p).cfg.surgeBin ≠ b.destination) →
      u = ((((markEvents (v.setBin b.destination { w with
          onHand := w.onHand + b.total
          lots := if keepsLots w.cfg.kind then addPiece w.lots ⟨b.lotTag, b.product, b.total⟩ else w.lots })
          b.destination w.onHand .drawOrCount false).setLine { s.line with completion := some ⟨b.number, b.formula,
            b.lotTag, b.destination, b.total, b.total, false, b.abandoned, b.steps.map (fun e => (e.status, e.actual))⟩ }).raise
        (.batchDone b.number b.lotTag)).dropBatch b.number).ask .mixerMotor false →
      (b.timer = some (.release left true) → exec .releaseTimeout s = .next u) ∧
      exec .mixerEmptyActive s = .next (u.takeOffered .mixerEmpty)

/-! ### The Mill Controller -/

/-- GRIND_QUEUE, GRIND_RESUME and SCREEN_FITTED while a stop mark or a Line Stop keeps a stopped mill from serving, and GRIND_CANCEL
of a request that is not the current one; GRIND_ARM and MILL_SET (R116, R118 to R121, R132). -/
def Obligations.GrindAndMillSettings : Prop :=
  (∀ (s : State) (tag : Byte), s.replyRoom = true → s.mill.state = .stopped →
    (s.stopped = true ∨ s.mill.stopMark = true) →
    (∀ (number source destination screen level : Nat) (v w : Bin), 1 ≤ number → number ≤ 61440 → 1 ≤ screen → screen ≤ 8 →
      1 ≤ source → source ≤ 48 → 1 ≤ destination → destination ≤ 48 → s.grind number = none →
      s.mill.queue.length < 8 → s.bin source = some v → s.bin destination = some w → v.cfg.kind = .raw →
      v.cfg.outlet = .mill → (∃ n, v.cfg.feeder = .speed n) → w.cfg.kind = .ground → level ≤ w.cfg.capacity →
      exec (.grindQueue tag number source destination screen level) s =
        accepted s (.grindQueue tag number source destination screen level)
          (fun u => u.setMill { u.mill with
            queue := u.mill.queue ++ [⟨number, source, destination, screen, level, .waiting, 0⟩] }) (fun _ => [])) ∧
    (∀ (number : Nat) (r : GrindRequest) (reason : MillReason), s.grind number = some r → r.state = .held reason →
      exec (.grindResume tag number) s = accepted s (.grindResume tag number)
        (fun u => u.setMill { u.mill with queue := u.mill.queue.map (fun x =>
          if x.number = number then { r with state := .waiting } else x) }) (fun _ => [])) ∧
    (∀ screen : Nat, 1 ≤ screen → screen ≤ 8 → exec (.screenFitted tag screen) s = accepted s (.screenFitted tag screen)
      (fun u => u.setMill { u.mill with fitted := screen, screenMemory := none }) (fun _ => [])) ∧
    ∀ (number : Nat) (r : GrindRequest), s.grind number = some r → s.mill.current ≠ some number →
      exec (.grindCancel tag number) s = accepted s (.grindCancel tag number)
        (fun u => u.setMill { u.mill with queue := u.mill.queue.filter (fun x => decide (x.number ≠ number)) })
        (fun _ => [.u32 r.ground])) ∧
  ∀ (s : State) (tag : Byte), s.replyRoom = true → s.saving = false →
    (∀ (bin arming : Nat) (a : Arming) (v : Bin), 1 ≤ bin → bin ≤ 48 → armingOf arming = some a → s.bin bin = some v →
      (v.cfg.kind = .ground → exec (.grindArm tag bin arming) s = accepted s (.grindArm tag bin arming)
        (fun u => u.setBin bin { v with cfg := { v.cfg with arming := a } })
        (fun _ => [.u8 (armingCode v.cfg.arming), .u8 (flagCode (decide (v.onHand < v.cfg.lowMark)))])) ∧
      (v.cfg.kind ≠ .ground → exec (.grindArm tag bin arming) s =
        refusedWith s (.grindArm tag bin arming) .wrongState 0)) ∧
    ∀ m : MillSettings, (millOk m = true → exec (.millSet tag m) s = accepted s (.millSet tag m)
        (fun u => u.setMill { u.mill with settings := m }) (fun _ => [])) ∧
      (millOk m = false → exec (.millSet tag m) s = refusedWith s (.millSet tag m) .outOfRange 0)

/-- MILL_RESUME and MILL_STOP, for a mill with an empty grind queue (R128 to R131). -/
def Obligations.MillResumeAndStop : Prop :=
  ∀ (s : State) (tag : Byte), s.replyRoom = true → s.mill.queue = [] →
    (s.stopped = true → exec (.millResume tag) s = refusedWith s (.millResume tag) .lineStopped 0) ∧
    (s.stopped = false → s.mill.state = .stopped → exec (.millResume tag) s = accepted s (.millResume tag)
      (fun u => u.setMill { u.mill with stopMark := false }) (fun _ => [])) ∧
    (∀ reason, s.stopped = false → s.mill.state = .held reason → reason ≠ .overload → s.asked .millMotor = false →
      exec (.millResume tag) s = accepted s (.millResume tag)
        (fun u => u.setMill { u.mill with stopMark := false, state := .stopped, timer := none }) (fun _ => [])) ∧
    (s.stopped = false → s.mill.state = .running → exec (.millResume tag) s = refusedWith s (.millResume tag) .wrongState 0) ∧
    (s.mill.state = .starting ∨ s.mill.state = .idleRun → exec (.millStop tag) s = accepted s (.millStop tag)
      (fun u => (u.ask .millMotor false).setMill { u.mill with
        stopMark := true, current := none, feedbackFound := false,
        state := .stopping, timer := some (.rundown u.mill.settings.rundownTime) }) (fun _ => [.u8 5])) ∧
    (s.mill.state = .stopped → exec (.millStop tag) s = accepted s (.millStop tag)
      (fun u => u.setMill { u.mill with stopMark := true }) (fun _ => [.u8 0]))

/-- The mill's timers and its running feedback, for a mill with an empty grind queue and no transfer: start, warm, drain, idle and
run-down (R122, R128, R129). That u is 0 once the feeder is (in a hold) is read by inference (notes/assumptions/14.md). -/
def Obligations.MillTimersAndFeedback : Prop :=
  ∀ (s : State) (left : Nat), s.mill.queue = [] → s.arb.transfers = [] →
    (s.mill.state = .starting → s.mill.timer = some (.start left) → exec .millStartTimeout s =
      .next (((s.ask .millMotor false).setMill { s.mill with
        engaged := false, u := 0, state := .held .noStart, timer := none, feedbackFound := false }).raise
          (.millHeld .noStart (s.mill.current.getD 0)))) ∧
    (s.mill.state = .starting → s.mill.timer = some (.start left) → 0 < s.mill.settings.warmTime →
      exec .millFeedbackFound s = .next ((s.takeOffered .millFeedbackFound).setMill { s.mill with
        feedbackFound := true, timer := some (.warm s.mill.settings.warmTime) })) ∧
    (s.mill.state = .starting → s.mill.timer = some (.warm left) → exec .millWarmTimeout s =
      .next (s.setMill { s.mill with state := .idleRun, timer := some (.idle s.mill.settings.idleTime) })) ∧
    (s.mill.state = .draining → s.mill.timer = some (.drain left) → s.mill.stopMark = true → exec .millDrainTimeout s =
      .next ((s.ask .millMotor false).setMill { s.mill with
        feedbackFound := false, state := .stopping,
        timer := some (.rundown s.mill.settings.rundownTime) })) ∧
    (s.mill.state = .draining → s.mill.timer = some (.drain left) → s.mill.stopMark = false → exec .millDrainTimeout s =
      .next (s.setMill { s.mill with state := .idleRun, timer := some (.idle s.mill.settings.idleTime) })) ∧
    (s.mill.state = .idleRun → s.mill.timer = some (.idle left) → exec .millIdleTimeout s =
      .next ((s.ask .millMotor false).setMill { s.mill with
        feedbackFound := false, state := .stopping,
        timer := some (.rundown s.mill.settings.rundownTime) })) ∧
    (s.mill.state = .stopping → s.mill.timer = some (.rundown left) → exec .millRundownTimeout s =
      .next (s.setMill { s.mill with state := .stopped, timer := none })) ∧
    (s.mill.state = .idleRun → s.mill.feedbackFound = true → exec .millFeedbackLost s =
      .next ((((s.takeOffered .millFeedbackLost).ask .millMotor false).setMill { s.mill with
        engaged := false, u := 0, state := .held .feedbackLost, timer := none, feedbackFound := false }).raise
          (.millHeld .feedbackLost (s.mill.current.getD 0))))

/-- The first loop interval engages the loop at u_start; the overload trip and the no-flow watch at their last count end the mill's
transfer; an engaged interval posts its estimate to both bins and drives the feeder by the load loop; and the loop's speed
stays between u_min and u_max, and takes the change of R125 where it lies between them (R123 to R128). That MILL_OVERLOAD and
MILL_NO_FLOW stand for the last count is the model's choice (notes/assumptions/34.md); that u is 0 once the feeder is, is read by
inference (notes/assumptions/14.md). -/
def Obligations.MillLoop : Prop :=
  (∀ (s : State) (r : GrindRequest) (n : Nat), s.mill.current = some n → s.grind n = some r → s.mill.state = .running →
    (∀ position : Int, s.mill.engaged = false → s.flowing .mill = true → exec (.millLoopInterval position) s =
      .next (((s.setAnalogPin 0 position).askFeeder r.source s.mill.settings.uStart).setMill { s.mill with
        engaged := true, u := s.mill.settings.uStart, ePrev := 0, overloadCount := 0, noFlowCount := 0 })) ∧
    (s.mill.engaged = true → s.arb.waiting = [] →
      max 1 (rdivNat s.mill.settings.tripTime 5) ≤ s.mill.overloadCount + 1 → exec .millOverload s =
      .next (((transferEnded (s.askFeeder r.source 0) .mill).setMill { s.mill with
        engaged := false, u := 0, state := .held .overload,
        timer := none, overloadCount := s.mill.overloadCount + 1 }).raise (.millHeld .overload n))) ∧
    (s.mill.engaged = true → s.arb.waiting = [] → 0 < s.mill.settings.drainTime →
      max 1 (rdivNat s.mill.settings.noFlowTime 5) ≤ s.mill.noFlowCount + 1 → exec .millNoFlow s =
      .next (((transferEnded (s.askFeeder r.source 0) .mill).setMill { s.mill with
        engaged := false, u := 0, noFlowCount := s.mill.noFlowCount + 1, current := none
        queue := s.mill.queue.map (fun x => if x.number = n then { r with state := .held .noFlow } else x)
        state := .draining, timer := some (.drain s.mill.settings.drainTime) }).raise (.millHeld .noFlow n))) ∧
    (∀ (position i e : Int) (m : Nat) (v w : Bin), s.mill.engaged = true → s.flowing .mill = true →
      s.bin r.source = some v → s.bin r.destination = some w → r.source ≠ r.destination →
      keepsLots v.cfg.kind = false → keepsLots w.cfg.kind = false → v.lots = [] →
      m = rdivNat (v.cfg.fullRate * s.mill.u.toNat) 2000 → 0 < m → m ≤ v.onHand → w.onHand + m ≤ w.cfg.capacity →
      w.onHand + m < (if r.level = 0 then w.cfg.highMark else r.level) →
      (∀ q ∈ s.inv.reservations, q.bin ≠ r.source ∧ q.bin ≠ r.destination) →
      (∀ p, (s.pressAt p).cfg.surgeBin ≠ r.source ∧ (s.pressAt p).cfg.surgeBin ≠ r.destination) → s.mixerBatch = none →
      i = ((s.setAnalogPin 0 position).readAnalog 0).1 → i ≤ s.mill.settings.iTrip → s.mill.settings.iNoload ≤ i →
      e = s.mill.settings.isp - i → ∃ t : State, exec (.millLoopInterval position) s = .next t ∧
        t.bin r.source = some { v with
          onHand := v.onHand - m, feederAsk := (loopSpeed s.mill.settings s.mill.u s.mill.ePrev e).toNat } ∧
        t.bin r.destination = some { w with onHand := w.onHand + m } ∧
        t.grind n = some { r with ground := min (r.ground + m) 4294967295 } ∧
        t.mill = { s.mill with
          queue := t.mill.queue, u := loopSpeed s.mill.settings s.mill.u s.mill.ePrev e, ePrev := e
          overloadCount := 0, noFlowCount := 0 } ∧
        (∃ low high : List Event, t.router.waiting = s.router.waiting ++ low ++ high ∧
          low = (if v.cfg.lowMark ≤ v.onHand ∧ v.onHand - m < v.cfg.lowMark then [.binLow r.source .drawOrCount] else []) ∧
          high = if w.onHand ≤ w.cfg.highMark ∧ w.cfg.highMark < w.onHand + m
            then [.binHigh r.destination .markCrossed] else []) ∧
        t.inv.reservations = s.inv.reservations ∧ t.io = (s.setAnalogPin 0 position).io ∧ t.arb = s.arb ∧ t.line = s.line ∧ t.press = s.press ∧ t.bag = s.bag ∧
        t.book = s.book ∧ t.weigh = s.weigh ∧ t.link = s.link ∧ t.store = s.store)) ∧
  ∀ (m : MillSettings) (u ePrev e : Int), millOk m = true →
    (m.uMin : Int) ≤ loopSpeed m u ePrev e ∧ loopSpeed m u ePrev e ≤ m.uMax ∧
    ((m.uMin : Int) ≤ u + rdiv (m.kp * (e - ePrev) + m.ki * e) 64 →
      u + rdiv (m.kp * (e - ePrev) + m.ki * e) 64 ≤ m.uMax →
      loopSpeed m u ePrev e = u + rdiv (m.kp * (e - ePrev) + m.ki * e) 64)

/-! ### The Press Controllers -/

/-- PROFILE_SET, PRESS_SET, RUN_QUEUE, RUN_CANCEL and PRESS_TRIM (R134 to R139, R157). That the skip counter of a run that is not
head is 0 is the model's choice (notes/assumptions/68.md), and so are that the place in RUN_QUEUE's reply counts from 1
(notes/assumptions/6.md) and what becomes of PRESS_SET's source byte without SOURCE (notes/assumptions/8.md). -/
def Obligations.PressTables : Prop :=
  ∀ (s : State) (tag : Byte) (press : Nat) (p : PressId), s.replyRoom = true → pressOf press = some p →
    (∀ (n : Nat) (f : ProfileFields) (e : Profile), s.saving = false → 1 ≤ n → n ≤ 16 → profileOf f = some e →
      exec (.profileSet tag n f) s = accepted s (.profileSet tag n f)
        (fun u => u.setPresses { u.press with profiles := Table.set u.press.profiles n e }) (fun _ => [])) ∧
    (∀ (f : PressFields) (cfg : PressConfig), s.saving = false → (s.pressAt p).state = .idle →
      pressConfigOf p f = some cfg → (cfg.surgeBin = 0 ∨ ∃ v, s.bin cfg.surgeBin = some v ∧ v.cfg.kind = .surge ∧
        v.cfg.outlet = pressOutlet p ∧ v.cfg.feeder.isSpeed = true) →
      exec (.pressSet tag press f) s = accepted s (.pressSet tag press f)
        (fun u => u.setPress p { u.pressAt p with cfg := cfg }) (fun _ => [])) ∧
    (∀ (f : PressFields) (cfg : PressConfig), s.saving = false → (s.pressAt p).state ≠ .idle →
      pressConfigOf p f = some cfg → exec (.pressSet tag press f) s = refusedWith s (.pressSet tag press f) .wrongState 0) ∧
    (∀ (r : RunFields) (v : Bin), runInRange r = true → runKnown s r.number = false →
      (s.pressAt p).queue.length < 8 → (Table.get s.press.profiles r.profile).isSome = true → s.bin r.destination = some v →
      v.cfg.kind = .finished → v.cfg.code = r.product → (r.flushMass = 0 ∨ s.reworkBin.isSome = true) →
      exec (.runQueue tag press r) s = accepted s (.runQueue tag press r)
        (fun u => u.setPress p { u.pressAt p with queue := (u.pressAt p).queue ++ [⟨r.number, r.profile, r.product,
          r.destination, r.flushMass, r.massLimit, r.skip, decide (r.copyFlag = 1),
          if (s.pressAt p).queue = [] then r.skip else 0⟩] })
        (fun _ => [.u8 ((s.pressAt p).queue.length + 1)])) ∧
    (∀ (r : Run) (rest : List Run), (s.pressAt p).queue = r :: rest →
      exec (.runCancel tag press r.number) s = accepted s (.runCancel tag press r.number)
        (fun u => u.setPress p { u.pressAt p with queue := match rest with
          | [] => []
          | q :: more => { q with skipCounter := q.skip } :: more }) (fun _ => [])) ∧
    (∀ (a : ActiveRun) (rate temp : Int), (s.pressAt p).active = some a →
      ∃ b : ActiveRun, b = { a with rateTrim := max (-200) (min 200 rate), tempTrim := max (-200) (min 200 temp) } ∧
        exec (.pressTrim tag press rate temp) s = accepted s (.pressTrim tag press rate temp)
          (fun u => (u.setPress p { u.pressAt p with active := some b }).setAnalogOut (steamOutput p)
            (steamValue (a.profile.temperature + b.tempTrim)))
          (fun _ => [.i16 b.rateTrim, .i16 b.tempTrim, .u8 (flagCode (decide (b.rateTrim ≠ rate))),
            .u8 (flagCode (decide (b.tempTrim ≠ temp))), .u32 b.trimmedRate])) ∧
    ∀ rate temp : Int, (s.pressAt p).active = none →
      exec (.pressTrim tag press rate temp) s = refusedWith s (.pressTrim tag press rate temp) .wrongState 0

/-- PRESS_START of a fit head run: the run is activated, PRESSn_CHANGEOVER raised with no outgoing run, the motor asked on and the
start timer started (R134, R137, R141 to R143, R153). -/
def Obligations.PressStartActivatesTheHead : Prop :=
  ∀ (s : State) (tag : Byte) (press : Nat) (p : PressId) (r : Run) (rest : List Run), s.replyRoom = true →
    pressOf press = some p → (s.pressAt p).queue = r :: rest → (s.pressAt p).state = .idle →
    (s.stopped = true → exec (.pressStart tag press) s = refusedWith s (.pressStart tag press) .lineStopped 0) ∧
    (s.stopped = false → runRefusal s p r = none → (s.inputWith (pressRunning p)).isSome = true →
      r.copies = false → rest = [] → r.flushMass = 0 → s.turnOf (.pressStart tag press) = true → ∃ t : State, exec (.pressStart tag press) s = .next t ∧
        (t.pressAt p).state = .starting ∧ (t.pressAt p).timer = some (.start (s.pressAt p).cfg.startTime) ∧
        (t.pressAt p).queue = [] ∧ t.asked (pressMotor p) = true ∧
        (∃ a, (t.pressAt p).active = some a ∧ a.number = r.number ∧ a.product = r.product ∧
          a.destination = r.destination ∧ some a.profile = Table.get s.press.profiles r.profile ∧ a.rateTrim = 0 ∧
          a.tempTrim = 0 ∧ a.activeRate = a.profile.feedRate ∧ a.phase = .deliver ∧ a.drawn = 0 ∧
          Table.getD 0 t.io.analogOut (steamOutput p) = steamValue a.profile.temperature) ∧
        t.router.waiting = s.router.waiting ++ [.pressChangeover p 0 r.number] ∧ t.inv = s.inv ∧ t.arb = s.arb ∧
        t.line = s.line ∧ t.mill = s.mill ∧ t.bag = s.bag ∧ t.book = s.book ∧ t.weigh = s.weigh ∧ t.store = s.store)

/-- PRESS_STOP and the run-down, PRESS_RESUME of a press held for its motor or in a Line Stop, and CHANGEOVER_NOW: the mark on a
press that does not feed; and on a RUNNING one the changeover, which carries the outgoing run's trims back into its profile,
ends its transfer, writes its report, activates the head run, and requests the new transfer before PRESSn_CHANGEOVER (R134,
R140, R145, R150 to R153, R155, R156, R158). The layout of CHANGEOVER_NOW's items, an incoming run and a skip count that may
each be absent, is the model's choice (notes/assumptions/6.md). That the press's request for its divert is withdrawn with its
transfer is the model's choice (notes/assumptions/85.md). -/
def Obligations.PressStopResumeAndChangeover : Prop :=
  ∀ (s : State) (tag : Byte) (press : Nat) (p : PressId), s.replyRoom = true → pressOf press = some p →
    ((s.pressAt p).state = .idle ∨ (s.pressAt p).state = .stopping → exec (.pressStop tag press) s =
      accepted s (.pressStop tag press) id (fun _ => [])) ∧
    ((s.pressAt p).state ≠ .idle → (s.pressAt p).state ≠ .stopping → (s.pressAt p).active = none → s.arb.waiting = [] →
      exec (.pressStop tag press) s = accepted s (.pressStop tag press)
        (fun u => ((transferEnded (u.askFeeder (u.pressAt p).cfg.surgeBin 0) (pressOwner p)).ask (pressMotor p) false).setPress p
          { u.pressAt p with
            engaged := false, delay := none, signalPending := false, feedbackFound := false, state := .stopping
            timer := some (.rundown (u.pressAt p).cfg.rundownTime) }) (fun _ => [])) ∧
    (∀ a : ActiveRun, (s.pressAt p).state ≠ .idle → (s.pressAt p).state ≠ .stopping → (s.pressAt p).active = some a →
      s.arb.waiting = [] → exec (.pressStop tag press) s = accepted s (.pressStop tag press)
        (fun u => ((((transferEnded (u.askFeeder (u.pressAt p).cfg.surgeBin 0) (pressOwner p)).setAnalogOut (steamOutput p) 0).ask
          (pressMotor p) false).setPress p { u.pressAt p with
            engaged := false, delay := none, signalPending := false, feedbackFound := false, state := .stopping
            active := none
            report := some ⟨a.number, .stopped, a.drawn, a.delivered, a.flushed, a.ignored, a.tally⟩
            timer := some (.rundown (u.pressAt p).cfg.rundownTime) }).raise (.pressRunEnd p a.number .stopped))
        (fun _ => [])) ∧
    (∀ cause, ((s.pressAt p).state = .held .motor cause ∨ (s.pressAt p).state = .held .lineStop cause) → s.stopped = false →
      (s.inputWith (pressRunning p)).isSome = true → exec (.pressResume tag press) s =
      accepted s (.pressResume tag press)
        (fun u => (u.ask (pressMotor p) true).setPress p { u.pressAt p with
          state := .starting, engaged := false,
          feedbackFound := false, timer := some (.start (u.pressAt p).cfg.startTime) }) (fun _ => [])) ∧
    ((s.pressAt p).state = .running → s.stopped = false → exec (.pressResume tag press) s =
      refusedWith s (.pressResume tag press) .wrongState 0) ∧
    (∀ a, (s.pressAt p).active = some a → (s.pressAt p).state = .choked → s.stopped = false →
      (s.pressAt p).signalPending = false → exec (.changeoverNow tag press) s = accepted s (.changeoverNow tag press)
        (fun u => u.setPress p { u.pressAt p with delay := none, signalPending := true })
        (fun _ => [.u8 3, .u8 0, .u16 0, .u8 0, .u8 0])) ∧
    ((s.pressAt p).active = none → s.stopped = false → exec (.changeoverNow tag press) s =
      refusedWith s (.changeoverNow tag press) .wrongState 0) ∧
    ∀ (a : ActiveRun) (r : Run) (rest : List Run) (e next : Profile), s.turnOf (.changeoverNow tag press) = true →
      s.stopped = false → (s.pressAt p).state = .running → (s.pressAt p).active = some a →
      (s.pressAt p).queue = r :: rest → rest = [] → r.skipCounter = 0 → r.copies = false → r.flushMass = 0 →
      runRefusal s p r = none → Table.get s.press.profiles a.profileNumber = some e →
      next = (if a.profile.carryBack then { e with
          feedRate := max 1 (min 60000 a.trimmedRate)
          temperature := (max 0 (min 1200 ((a.profile.temperature : Int) + a.tempTrim))).toNat } else e) →
      s.arb.waiting = [] → (∃ slot, ∀ x ∈ s.arb.transfers, x.2.owner = pressOwner p → x.1 = slot) →
      (∀ k, (k = (s.pressAt p).cfg.surgeBin ∨ k = r.destination ∨ s.reworkBin = some k) → ∀ v, s.bin k = some v →
        v.locked = false ∧ v.highCovered = none ∧ s.route v.cfg.outletRoute = ⟨[], []⟩ ∧
          s.route v.cfg.inletRoute = ⟨[], []⟩) →
      ∃ t : State, exec (.changeoverNow tag press) s = .next t ∧
        (∀ k, Table.get t.press.profiles k =
          if k = a.profileNumber then some next else Table.get s.press.profiles k) ∧
        t.pressAt p = { s.pressAt p with
          state := .running, timer := none, engaged := false, delay := none, signalPending := false, queue := []
          active := (t.pressAt p).active
          report := some ⟨a.number, .changeover, a.drawn, a.delivered, a.flushed, a.ignored, a.tally⟩ } ∧
        (∃ b, (t.pressAt p).active = some b ∧ b.number = r.number ∧ b.profileNumber = r.profile ∧ b.product = r.product ∧
          b.destination = r.destination ∧ b.massLimit = r.massLimit ∧
          some b.profile = Table.get t.press.profiles r.profile ∧ b.rateTrim = 0 ∧ b.tempTrim = 0 ∧
          b.activeRate = b.profile.feedRate ∧ b.phase = .deliver ∧ b.drawn = 0 ∧ b.delivered = 0 ∧ b.flushed = 0 ∧
          b.tally = ⟨[], false⟩ ∧ b.ignored = 0 ∧
          Table.getD 0 t.io.analogOut (steamOutput p) = steamValue b.profile.temperature) ∧
        (∃ slot x, Table.get t.arb.transfers slot = some x ∧ x.owner = pressOwner p ∧ x.state = .flowing ∧
          ⟨r.destination, true, ((s.bin r.destination).map (·.cfg.inletRoute)).getD 0⟩ ∈ x.legs ∧
          x.gates = [pressDivert p]) ∧
        t.asked (pressDivert p) = false ∧
        (∀ v, t.bin (s.pressAt p).cfg.surgeBin = some v → v.feederAsk = 0) ∧
        t.router.waiting = s.router.waiting ++ [.pressRunEnd p a.number .changeover, .pressChangeover p a.number r.number] ∧
        t.link.replies = s.link.replies ++ [replyTo (.changeoverNow tag press) .ok 0
          [.u8 0, .u8 1, .u16 r.number, .u8 0, .u8 0]] ∧
        (∀ q, q ≠ p → t.pressAt q = s.pressAt q) ∧ t.inv.reservations = s.inv.reservations ∧ t.line = s.line ∧ t.mill = s.mill ∧ t.bag = s.bag ∧ t.book = s.book ∧
        t.weigh = s.weigh ∧ t.store = s.store

/-- The press's button as a trigger, its timers, its feedback, its watches and a feeding interval: a hold takes the feed off and
ends the transfer; an engaged interval draws its estimate from the surge bin, delivers it with its lots, counts it, and drives
the feeder at the clamped rate (R141, R144 to R151, R154, R156). That PRESS_CHOKE and PRESS_COLD_HOLD stand for the last count
is the model's choice (notes/assumptions/34.md). That the press's request for its divert is withdrawn with its transfer is the
model's choice (notes/assumptions/85.md). -/
def Obligations.PressEvents : Prop :=
  ∀ (s : State) (press : Nat) (p : PressId) (left : Nat), pressOf press = some p → s.arb.waiting = [] →
    (∀ a, (s.pressAt p).active = some a → (s.pressAt p).cfg.triggers.button = true →
      (s.pressAt p).cfg.buttonImmediate = false → (s.pressAt p).delay = none → (s.pressAt p).signalPending = false →
      exec (.pressButtonPress press) s = .next ((s.takeOffered (.pressButton press)).setPress p { s.pressAt p with
        delay := some (s.pressAt p).cfg.delay })) ∧
    ((s.pressAt p).state = .starting → (s.pressAt p).timer = some (.start left) → exec (.pressStartTimeout press) s =
      .next ((((transferEnded (s.askFeeder (s.pressAt p).cfg.surgeBin 0) (pressOwner p)).ask (pressMotor p) false).setPress p
        { s.pressAt p with
          engaged := false, feedbackFound := false, state := .held .motor .none, timer := none }).raise
            (.pressHeld p .motor .none (((s.pressAt p).active.map (·.number)).getD 0)))) ∧
    (∀ a, (s.pressAt p).state = .starting → (s.pressAt p).timer = some (.start left) → (s.pressAt p).active = some a →
      exec (.pressFeedbackFound press) s = .next ((s.takeOffered (.pressFeedbackFound press)).setPress p { s.pressAt p with
        feedbackFound := true, timer := some (.cold (s.pressAt p).cfg.coldWait) })) ∧
    ((s.pressAt p).state = .starting → (s.pressAt p).timer = some (.cold left) → exec (.pressColdTimeout press) s =
      .next (((transferEnded (s.askFeeder (s.pressAt p).cfg.surgeBin 0) (pressOwner p)).setPress p { s.pressAt p with
        engaged := false, state := .held .cold .none, timer := none }).raise
          (.pressHeld p .cold .none (((s.pressAt p).active.map (·.number)).getD 0)))) ∧
    ((s.pressAt p).state = .running → (s.pressAt p).feedbackFound = true → exec (.pressFeedbackLost press) s =
      .next ((((transferEnded ((s.takeOffered (.pressFeedbackLost press)).askFeeder (s.pressAt p).cfg.surgeBin 0)
        (pressOwner p)).ask (pressMotor p) false).setPress p { s.pressAt p with
          engaged := false, feedbackFound := false, state := .held .motor .none, timer := none }).raise
            (.pressHeld p .motor .none (((s.pressAt p).active.map (·.number)).getD 0)))) ∧
    (∀ a, (s.pressAt p).active = some a → (s.pressAt p).state = .starved → exec (.starveTimeout press) s =
      .next (((((transferEnded (s.askFeeder (s.pressAt p).cfg.surgeBin 0) (pressOwner p)).setAnalogOut (steamOutput p) 0).setPress p
        { s.pressAt p with
          engaged := false, active := none, delay := none, signalPending := true
          state := .held .starvedOut .none, timer := none
          report := some ⟨a.number, .starvedOut, a.drawn, a.delivered, a.flushed, a.ignored, a.tally⟩ }).raise
            (.pressRunEnd p a.number .starvedOut)).raise (.pressHeld p .starvedOut .none a.number))) ∧
    (∀ d, (s.pressAt p).delay = some d → (s.pressAt p).state = .choked → exec (.changeoverDelayTimeout press) s =
      .next (s.setPress p { s.pressAt p with delay := none, signalPending := true })) ∧
    ((s.pressAt p).state = .stopping → (s.pressAt p).timer = some (.rundown left) →
      exec (.pressRundownTimeout press) s = .next (s.setPress p { s.pressAt p with state := .idle, timer := none })) ∧
    (∀ a, (s.pressAt p).active = some a → ((s.pressAt p).state = .running ∨ (s.pressAt p).state = .flushing) →
      (s.pressAt p).engaged = true → max 1 (rdivNat a.profile.tripTime 10) ≤ (s.pressAt p).chokeCount + 1 →
      exec (.pressChoke press) s =
      .next (((transferEnded (s.askFeeder (s.pressAt p).cfg.surgeBin 0) (pressOwner p)).setPress p { s.pressAt p with
        engaged := false, chokeCount := (s.pressAt p).chokeCount + 1, state := .choked
        active := some { a with chokeCurrent := some (s.readAnalog (currentInput p)).1 } }).raise
          (.pressHeld p .choke .none a.number))) ∧
    (((s.pressAt p).state = .running ∨ (s.pressAt p).state = .flushing) → (s.pressAt p).engaged = true →
      max 1 (rdivNat (s.pressAt p).cfg.coldWait 10) ≤ (s.pressAt p).coldCount + 1 → exec (.pressColdHold press) s =
      .next (((transferEnded (s.askFeeder (s.pressAt p).cfg.surgeBin 0) (pressOwner p)).setPress p { s.pressAt p with
        engaged := false, coldCount := (s.pressAt p).coldCount + 1, state := .held .cold .none, timer := none }).raise
          (.pressHeld p .cold .none (((s.pressAt p).active.map (·.number)).getD 0)))) ∧
    ∀ (a : ActiveRun) (v w : Bin) (u : State) (currentPos tempPos i : Int) (m : Nat) (taken : List (Nat × Nat)),
      (s.pressAt p).active = some a → (s.pressAt p).state = .running → (s.pressAt p).engaged = true → a.phase = .deliver →
      s.flowing (pressOwner p) = true → s.bin (s.pressAt p).cfg.surgeBin = some v → s.bin a.destination = some w →
      w.cfg.kind = .finished → w.cfg.code = a.product → a.destination ≠ (s.pressAt p).cfg.surgeBin →
      u = (s.setAnalogPin (currentInput p) currentPos).setAnalogPin (temperatureInput p) tempPos →
      i = (u.readAnalog (currentInput p)).1 → m = rdivNat (v.feederAsk * v.cfg.fullRate) 1000 → 0 < m → m < v.onHand →
      w.onHand + m ≤ w.cfg.capacity → taken = (takeLots m v.lots).2 →
      (∀ q ∈ s.inv.reservations, q.bin ≠ (s.pressAt p).cfg.surgeBin ∧ q.bin ≠ a.destination) →
      (∀ q, q ≠ p → (s.pressAt q).cfg.surgeBin ≠ (s.pressAt p).cfg.surgeBin) →
      (∀ q, (s.pressAt q).cfg.surgeBin ≠ a.destination) → s.currentGrind = none → s.mixerBatch = none →
      (s.pressAt p).cfg.triggers.lotBoundary = false → a.massLimit = 0 → i ≤ a.profile.tripLevel →
      (s.pressAt p).coldCount = 0 →
      a.profile.temperature + a.tempTrim - a.profile.coldBand ≤ (u.readAnalog (temperatureInput p)).1 →
      ∃ t : State, exec (.pressControlInterval press currentPos tempPos) s = .next t ∧
        t.bin (s.pressAt p).cfg.surgeBin = some { v with
          onHand := v.onHand - m, lots := (takeLots m v.lots).1
          feederAsk := pressPermille (clampRate a i) v.cfg.fullRate } ∧
        t.bin a.destination = some { w with
          onHand := w.onHand + m
          lots := addPieces w.lots m (taken.map (fun x => ⟨x.1, a.product, x.2⟩)) } ∧
        t.pressAt p = { s.pressAt p with
          chokeCount := 0
          active := some { a with
            drawn := min (a.drawn + m) 4294967295, delivered := min (a.delivered + m) 4294967295
            tally := a.tally.addAll taken, activeRate := clampRate a i } } ∧
        t.inv.reservations = s.inv.reservations ∧ t.arb = s.arb ∧ t.line = s.line ∧ t.mill = s.mill ∧ t.bag = s.bag ∧
        t.book = s.book ∧ t.weigh = s.weigh ∧ t.link = s.link ∧ t.store = s.store

/-- A control interval in STARTING while the temperature lies below the active temperature less the cold band waits on; one of a
RUNNING press with stock, no choke reading and no cold reading engages it and drives its feeder at the clamped rate; one whose
posting brings the mass limit, the changeover delay being 0, changes over within the interval: the outgoing run has its mass
counted, the incoming run is active and not engaged, and the starvation, choke and cold watches, the load clamp and the drive
do not act on it, whatever the readings and the stock; and the load clamp keeps the active rate between 40% of the profile rate
and the trimmed rate, or at the trimmed rate where that is lower (R141, R143 to R145, R150 to R153). That the signal comes once
step 1 is whole is the model's choice (notes/assumptions/81.md). -/
def Obligations.ControlIntervalAndClamp : Prop :=
  (∀ (s : State) (press : Nat) (p : PressId) (currentPos tempPos i : Int) (a : ActiveRun) (u : State),
    pressOf press = some p → (s.pressAt p).active = some a →
    u = (s.setAnalogPin (currentInput p) currentPos).setAnalogPin (temperatureInput p) tempPos →
    i = (u.readAnalog (currentInput p)).1 →
    (∀ left : Nat, (s.pressAt p).state = .starting → (s.pressAt p).timer = some (.cold left) →
      (u.readAnalog (temperatureInput p)).1 < a.profile.temperature + a.tempTrim - a.profile.coldBand →
      exec (.pressControlInterval press currentPos tempPos) s = .next u) ∧
    (∀ v : Bin, (s.pressAt p).state = .running → (s.pressAt p).engaged = false → s.flowing (pressOwner p) = true →
      s.bin (s.pressAt p).cfg.surgeBin = some v → 0 < v.onHand → i ≤ a.profile.tripLevel →
      a.profile.temperature + a.tempTrim - a.profile.coldBand ≤ (u.readAnalog (temperatureInput p)).1 →
      exec (.pressControlInterval press currentPos tempPos) s = .next ((u.setPress p { s.pressAt p with
        engaged := true, chokeCount := 0, coldCount := 0,
        active := some { a with activeRate := clampRate a i } }).askFeeder (s.pressAt p).cfg.surgeBin
          (pressPermille (clampRate a i) v.cfg.fullRate))) ∧
    (∀ (v w : Bin) (m : Nat) (taken : List (Nat × Nat)) (r : Run), s.stopped = false → s.arb.waiting = [] →
      (s.pressAt p).state = .running → (s.pressAt p).engaged = true → a.phase = .deliver → s.flowing (pressOwner p) = true →
      s.bin (s.pressAt p).cfg.surgeBin = some v → s.bin a.destination = some w → w.cfg.kind = .finished →
      w.cfg.code = a.product → m = rdivNat (v.feederAsk * v.cfg.fullRate) 1000 → 0 < m → m ≤ v.onHand →
      taken = (takeLots m v.lots).2 →
      (∀ q ∈ s.inv.reservations, q.bin ≠ (s.pressAt p).cfg.surgeBin ∧ q.bin ≠ a.destination) →
      (∀ q, q ≠ p → (s.pressAt q).cfg.surgeBin ≠ (s.pressAt p).cfg.surgeBin) →
      (∀ q, (s.pressAt q).cfg.surgeBin ≠ a.destination) → s.currentGrind = none → s.mixerBatch = none →
      (s.pressAt p).cfg.delay = 0 → (s.pressAt p).delay = none → (s.pressAt p).signalPending = false →
      (s.pressAt p).cfg.triggers.lotBoundary = false → (s.pressAt p).cfg.triggers.limit = true → 0 < a.massLimit →
      a.limitMark = false → a.massLimit ≤ min (a.drawn + m) 4294967295 →
      (s.pressAt p).queue = [r] → r.skipCounter = 0 → r.copies = false → r.flushMass = 0 → runRefusal s p r = none →
      (∃ slot, ∀ x ∈ s.arb.transfers, x.2.owner = pressOwner p → x.1 = slot) →
      (∀ k, (k = (s.pressAt p).cfg.surgeBin ∨ k = r.destination ∨ s.reworkBin = some k) → ∀ x, s.bin k = some x →
        x.locked = false ∧ x.highCovered = none ∧ s.route x.cfg.outletRoute = ⟨[], []⟩ ∧
          s.route x.cfg.inletRoute = ⟨[], []⟩) →
      ∃ t : State, exec (.pressControlInterval press currentPos tempPos) s = .next t ∧
        t.pressAt p = { s.pressAt p with
          timer := none, engaged := false, queue := [], active := (t.pressAt p).active
          report := some ⟨a.number, .changeover, min (a.drawn + m) 4294967295, min (a.delivered + m) 4294967295, a.flushed,
            a.ignored, a.tally.addAll taken⟩ } ∧
        (∃ b, (t.pressAt p).active = some b ∧ b.number = r.number ∧ b.drawn = 0 ∧ b.ignored = 0 ∧ b.limitMark = false ∧
          b.activeRate = b.profile.feedRate ∧ b.chokeCurrent = none) ∧
        (t.bin (s.pressAt p).cfg.surgeBin).map (fun x => (x.onHand, x.lots, x.feederAsk)) =
          some (v.onHand - m, (takeLots m v.lots).1, 0) ∧
        (∃ marks, t.router.waiting = s.router.waiting ++ marks ++
          [.pressRunEnd p a.number .changeover, .pressChangeover p a.number r.number]) ∧
        (∀ q, q ≠ p → t.pressAt q = s.pressAt q) ∧ t.inv.reservations = s.inv.reservations ∧ t.line = s.line ∧
        t.mill = s.mill ∧ t.bag = s.bag ∧ t.book = s.book ∧ t.weigh = s.weigh ∧ t.link = s.link ∧ t.store = s.store)) ∧
  ∀ (a : ActiveRun) (i : Int), clampRate a i ≤ a.trimmedRate ∧
    (rdivNat (40 * a.profile.feedRate) 100 ≤ a.activeRate → rdivNat (40 * a.profile.feedRate) 100 ≤ a.trimmedRate →
      rdivNat (40 * a.profile.feedRate) 100 ≤ clampRate a i) ∧
    ((a.profile.loadLimit : Int) < i → clampRate a i ≤ max a.activeRate (rdivNat (40 * a.profile.feedRate) 100)) ∧
    (i < (a.profile.loadLimit : Int) - a.profile.hysteresis → min a.activeRate a.trimmedRate ≤ clampRate a i)

/-! ### The Bagger Controller -/

/-- BAGGER_SET, BAG_QUEUE into a queue that holds a run, BAG_RUN_START and BAG_RUN_STOP (R160 to R162, R164, R165, R170).
BAG_QUEUE into an empty queue has no clause here. That the source number of a trigger that is not SOURCE and the burst size of a
CONTINUOUS run are neither checked nor kept is the model's choice (notes/assumptions/8.md). R165 names its refusals without an
order: that BAG_RUN_START is answered LINE_STOPPED in a Line Stop whatever the head's state and start class is the model's
choice (notes/assumptions/9.md). -/
def Obligations.BaggerRequests : Prop :=
  ∀ (s : State) (tag : Byte), s.replyRoom = true →
    (∀ check release : Nat, s.saving = false → check ≤ 100 → 1 ≤ release → release ≤ 600 →
      exec (.baggerSet tag check release) s = accepted s (.baggerSet tag check release)
        (fun u => u.setBag { u.bag with checkTime := check, releaseTime := release }) (fun _ => [])) ∧
    (∀ (f : BagFields) (start : StartTrigger) (arming : BagArming) (stop : StopTrigger) (v : Bin) (made : State × Nat)
        (c : Instr), startTriggerOf f.startTrigger f.startSource = some start →
      bagArmingOf f.arming f.burstSize = some arming → stopTriggerOf f.stopTrigger f.stopSource = some stop →
      bagInRange s f = true → (∀ r ∈ s.bag.queue, r.number ≠ f.number) → s.bag.queue.length < 4 → s.bag.queue ≠ [] →
      s.bin f.bin = some v → v.cfg.kind = .finished → v.cfg.outlet = .bagger → v.locked = false →
      s.inv.reservations.length < 192 → c = .bagQueue tag f →
      made = createOne (dropFrame s) f.bin (.bagRun f.number) (f.target * f.count) →
      exec c s = inTurn s c (answer (made.1.setBag { made.1.bag with
          queue := made.1.bag.queue ++ [bagRunOf f start arming stop made.2] })
        (replyTo c .ok 0 [.u16 made.2, .u8 (flagCode (!made.1.reservationFull made.2))]))) ∧
    (s.bag.queue = [] → s.stopped = false → exec (.bagRunStart tag) s = accepted s (.bagRunStart tag)
      (fun u => u.setBag { u.bag with startMark := true }) (fun _ => [.u8 (if s.bag.startMark then 2 else 1)])) ∧
    (s.stopped = true → exec (.bagRunStart tag) s = refusedWith s (.bagRunStart tag) .lineStopped 0) ∧
    (s.bag.queue = [] → exec (.bagRunStop tag) s = refusedWith s (.bagRunStop tag) .noSuch 0) ∧
    (∀ (r : BagRun) (rest : List BagRun), s.bag.queue = r :: rest → r.stop = .command → r.stopTaken = false →
      (r.state = .filling ∨ r.state = .checking ∨ r.state = .releasing) →
      exec (.bagRunStop tag) s = accepted s (.bagRunStop tag)
        (fun u => u.setBag { u.bag with queue := { r with stopTaken := true, tailLeft := r.tail } :: rest })
        (fun _ => [.u8 r.tail]))

/-- The bag cycle (R75 to R78, R164 to R174). A BUTTON start of an ARMED run with stock and a free path requests its transfer, which
flows, and waits for a bag; a BUTTON stop during a fill is taken; a bag that comes before the transfer flows is kept. The check
timer releases the bag; the bag that is gone, or the release timer, ends a run whose count is reached: its transfer and its
reservation are ended, its report written and BAG_RUN_END raised. BAGGER_RESUME turns a bag on the spout aside; BAG_CANCEL drops
a run behind the head with its reservation. R173 names its refusals without an order: that BAGGER_RESUME is answered LINE_STOPPED
in a Line Stop also for a head that is not HELD is the model's choice (notes/assumptions/9.md). -/
def Obligations.BagCycle : Prop :=
  ∀ (s : State) (tag : Byte) (r : BagRun) (rest : List BagRun), s.bag.queue = r :: rest →
    (∀ (v : Bin) (x : Reservation), s.arb.transfers = [] → r.state = .armed → r.start = .button → s.stopped = false →
      s.arb.waiting = [] → s.bin r.bin = some v → v.locked = false → s.route v.cfg.outletRoute = ⟨[], []⟩ →
      s.claim (.bagRun r.number) r.reservation = some x → min r.target x.wanted ≤ x.held →
      (s.inputWith .bagPresent).isSome = true → s.useActive .bagPresent = false →
      exec .baggerStartPress s = .next (((s.takeOffered .baggerStart).setBag { s.bag with
        queue := { r with burst := 0, state := .waitBag } :: rest, bagPresent := false }).setArb { s.arb with
          transfers := [(1, ⟨.bagger, [⟨r.bin, false, v.cfg.outletRoute⟩], [], .flowing, [], none, false, none⟩)] })) ∧
    ((r.state = .filling ∨ r.state = .checking ∨ r.state = .releasing) → r.stop = .button → r.stopTaken = false →
      exec .baggerStopPress s = .next ((s.takeOffered .baggerStop).setBag { s.bag with
        queue := { r with stopTaken := true, tailLeft := r.tail } :: rest })) ∧
    (r.state = .waitBag → s.flowing .bagger = false → exec .bagPresentPress s =
      .next ((s.takeOffered .bagPresent).setBag { s.bag with bagPresent := true })) ∧
    (r.state = .checking → exec .checkTimeout s = .next ((s.setBag { s.bag with
      queue := { r with state := .releasing } :: rest
      timer := some (.release s.bag.releaseTime) }).ask .baggerClamp false)) ∧
    (∀ (v w u : State) (kept : List Reservation), r.state = .releasing → rest = [] → r.count ≤ r.accepted →
      s.arb.waiting = [] →
      ((s.claim (.bagRun r.number) r.reservation = none ∧ kept = s.inv.reservations) ∨
        ∃ x, s.claim (.bagRun r.number) r.reservation = some x ∧
          kept = s.inv.reservations.filter (fun q => decide (q.id ≠ r.reservation)) ∧
          ∀ q ∈ kept, q.bin = x.bin → q.held = q.wanted) →
      v = (s.setBag { s.bag with queue := [{ r with onSpout := false }], timer := none }).ask .baggerReject false →
      w = transferEnded v .bagger →
      u = (((((w.setInv { w.inv with reservations := kept }).setBag { s.bag with
          queue := []
          timer := none
          bagPresent := false
          report := some ⟨r.number, .count, r.accepted, r.rejected, r.begun, r.tally⟩ }).ask .baggerClamp false).ask
        .baggerReject false).raise (.bagRunEnd r.number .count)) →
      exec .bagGonePress s = .next (u.takeOffered .bagGone) ∧
      (∀ left, s.bag.timer = some (.release left) → exec .bagReleaseTimeout s = .next u)) ∧
    (s.replyRoom = true →
      (s.stopped = true → exec (.baggerResume tag) s = refusedWith s (.baggerResume tag) .lineStopped 0) ∧
      (∀ cause phase, r.state = .held .permit cause phase → r.onSpout = true → s.stopped = false →
        exec (.baggerResume tag) s = accepted s (.baggerResume tag)
          (fun u => ((u.setBag { u.bag with
            queue := { r with state := .releasing } :: rest
            timer := some (.release u.bag.releaseTime) }).ask .baggerClamp false).ask .baggerReject true)
          (fun _ => [])) ∧
      (∀ (q : BagRun) (x : Reservation), q.number ≠ r.number →
        s.bag.queue.find? (fun y => decide (y.number = q.number)) = some q →
        s.claim (.bagRun q.number) q.reservation = some x →
        (∀ y ∈ s.inv.reservations, y.id ≠ x.id → y.bin = x.bin → y.held = y.wanted) →
        exec (.bagCancel tag q.number) s = accepted s (.bagCancel tag q.number)
          (fun u => (u.setBag { u.bag with queue := u.bag.queue.filter (fun y => decide (y.number ≠ q.number)) }).setInv
            { u.inv with reservations := u.inv.reservations.filter (fun y => decide (y.id ≠ x.id)) })
          (fun _ => [.u16 q.accepted])) ∧
      (r.state = .filling → exec (.bagCancel tag r.number) s = refusedWith s (.bagCancel tag r.number) .wrongState 0))

/-! ### Order Book and Loadout -/

/-- ORDER_ENTER, LINE_ASSIGN, LINE_CLOSE and ORDER_CANCEL of an order that is not at the spout (R178 to R182). That an over
allowance is at most 4,294,967,295 in either form is the model's choice (notes/assumptions/69.md). -/
def Obligations.OrderRequests : Prop :=
  ∀ (s : State) (tag : Byte) (order : Nat), s.replyRoom = true →
    (∀ (customer : Nat) (lines : List LineFields), 1 ≤ order → order ≤ max32 → customer ≤ max32 → lines ≠ [] →
      lines.length ≤ 6 → (∀ f ∈ lines, lineInRange f = true) → s.order order = none → s.book.orders.length < 24 →
      exec (.orderEnter tag order customer lines) s = accepted s (.orderEnter tag order customer lines)
        (fun u => u.setBook { u.book with orders := u.book.orders ++ [⟨order, customer, .opened, lines.map newLine⟩] })
        (fun _ => [])) ∧
    (∀ (o : Order), s.order order = some o → s.book.loadout.truck = none →
      (∀ (line bin : Nat) (l : OrderLine) (v : Bin) (made : State × Nat) (c : Instr), line ≤ 6 → o.line line = some l →
        1 ≤ bin → bin ≤ 48 → l.bulk = true → l.status = .opened → l.reservation = none → s.bin bin = some v →
        v.cfg.kind = .finished → v.cfg.outlet = .truck → v.cfg.code = l.product → v.locked = false →
        s.inv.reservations.length < 192 → c = .lineAssign tag order line bin →
        made = createOne (dropFrame s) bin (.orderLine order line) (l.quantity - l.delivered) →
        exec c s = inTurn s c (answer (made.1.putOrder { o with lines := o.lines.set (line - 1) { l with
            bin := some bin, reservation := some made.2, status := .assigned } })
          (replyTo c .ok 0 [.u16 made.2, .u8 (flagCode (!made.1.reservationFull made.2))]))) ∧
      (∀ (line : Nat) (l : OrderLine), line ≤ 6 → o.line line = some l →
        (l.status = .opened ∨ l.status = .assigned → l.reservation = none →
          exec (.lineClose tag order line) s = accepted s (.lineClose tag order line)
            (fun u => u.putOrder { o with lines := o.lines.set (line - 1) { l with status := .closedShort } })
            (fun _ => [.u32 l.delivered])) ∧
        (l.status ≠ .opened → l.status ≠ .assigned →
          exec (.lineClose tag order line) s = refusedWith s (.lineClose tag order line) .wrongState 0)) ∧
      (o.state = .opened → (∀ l ∈ o.lines, l.reservation = none) →
        exec (.orderCancel tag order) s = accepted s (.orderCancel tag order) (fun u => u.dropOrder order)
          (fun _ => .u8 o.lines.length :: o.lines.map (fun l => .u32 l.delivered))) ∧
      (o.state ≠ .opened → exec (.orderCancel tag order) s = refusedWith s (.orderCancel tag order) .wrongState 0))

/-- TRUCK_IN: the truck record of an order whose BULK lines fit the truck; an order that is not OPEN, a spout that is taken, and a
line that does not fit refuse it (R184). Which index a misfit is answered with is the model's choice: lines before compartments
(`truckMisfit`, notes/assumptions/39.md). -/
def Obligations.TruckInBringsTheTruck : Prop :=
  ∀ (s : State) (tag : Byte) (order : Nat) (capacities : List Nat) (o : Order), s.replyRoom = true → capacities ≠ [] →
    capacities.length ≤ 6 → (∀ c ∈ capacities, 1 ≤ c ∧ c ≤ 60000000) → s.order order = some o →
    (s.book.loadout.state = .noTruck → o.state = .opened → truckMisfit o capacities = 0 →
      exec (.truckIn tag order capacities) s = accepted s (.truckIn tag order capacities)
        (fun u => (u.putOrder { o with state := .loading }).setLoadout
          ⟨.taring, some ⟨order, capacities.map (fun c => ⟨c, 0⟩), none, none⟩, false, false⟩) (fun _ => [])) ∧
    (s.book.loadout.state ≠ .noTruck ∨ o.state ≠ .opened →
      exec (.truckIn tag order capacities) s = refusedWith s (.truckIn tag order capacities) .wrongState 0) ∧
    (∀ n : Nat, s.book.loadout.state = .noTruck → o.state = .opened → truckMisfit o capacities = n + 1 →
      exec (.truckIn tag order capacities) s = refusedWith s (.truckIn tag order capacities) .outOfRange (n + 1))

/-- The dispatch list and DISPATCH_TAKE (R191); TRUCK_OUT of an order that claims nothing any more removes the order, closes its
open lines short and puts its record at the tail, and a full list refuses it (R190). -/
def Obligations.DispatchListIsTakenOldestFirst : Prop :=
  (∀ (s : State) (b a : Bool), ∃ t, exec (.fullReset b a) s = .next t ∧ t.book.dispatch = []) ∧
  (∀ (s : State) (tag : Byte), s.replyRoom = true →
    (s.book.dispatch = [] → exec (.dispatchTake tag) s = refusedWith s (.dispatchTake tag) .noSuch 0) ∧
    ∀ d rest, s.book.dispatch = d :: rest → exec (.dispatchTake tag) s = accepted s (.dispatchTake tag)
      (fun u => u.setBook { u.book with dispatch := rest }) (fun _ => dispatchItems d)) ∧
  (∀ (s : State) (tag : Byte) (force : Nat) (x : Truck) (o : Order) (tare : Int), s.replyRoom = true →
    s.book.loadout.truck = some x → s.truckOrder = some o → x.tare = some tare → s.book.loadout.state = .finished →
    (s.chan .truck).status = .ok → (s.chan .truck).stable = true → force ≤ 1 →
    (8 ≤ s.book.dispatch.length → exec (.truckOut tag force) s = refusedWith s (.truckOut tag force) .noRoom 0) ∧
    (s.book.dispatch.length < 8 → (∀ l ∈ o.lines, l.reservation = none) →
      exec (.truckOut tag force) s = accepted s (.truckOut tag force)
        (fun u => u.setBook { u.book with
          orders := u.book.orders.filter (fun y => decide (y.number ≠ o.number))
          loadout := ⟨.noTruck, none, false, false⟩
          dispatch := u.book.dispatch ++ [⟨o.number, o.customer, tare, (s.chan .truck).gross,
            (s.chan .truck).gross - tare, x.compartments, o.lines.map (fun l => ⟨l.product, l.bulk,
              if l.final then l.status else .closedShort, l.quantity, l.delivered, l.tally⟩)⟩] })
        (fun _ => [.i32 (s.chan .truck).gross, .i32 ((s.chan .truck).gross - tare)]))) ∧
  ∀ (c : Instr) (s t : State), s.book.dispatch.length ≤ 8 → exec c s = .next t → t.book.dispatch.length ≤ 8

/-- SPOUT_READY that is taken, and its button, complete on an assigned line with its mass held and a free path: the line and the
loadout are LOADING, the transfer flows and the compartment dose is open on TRUCK; the request is answered OK with the target and
whether it was clipped (R19, R20, R186). -/
def Obligations.SpoutReadyStartsLoading : Prop :=
  ∀ (s : State) (tag : Byte) (c : Instr) (o : Order) (i b : Nat) (l : OrderLine) (v : Bin),
    c = .spoutReadyButtonPress ∨ (c = .spoutReady tag ∧ s.takes (.spoutReady tag) = true) → s.stopped = false →
    s.book.loadout.state = .spoutWait → s.currentLine = some (o, i, l) → l.bin = some b → s.bin b = some v →
    v.locked = false → l.remaining ≤ s.heldBy (.orderLine o.number i) l.reservation → 0 < loadTarget s l →
    s.arb.transfers = [] → s.arb.waiting = [] → s.route v.cfg.outletRoute = ⟨[], []⟩ → (s.chan .truck).dose = none →
    (s.chan .truck).status = .ok →
    ∃ t, exec c s = .next t ∧
      t.book.loadout.state = .loading ∧
      t.currentLine = some (o.putLine i { l with status := .loading }, i, { l with status := .loading }) ∧
      t.arb.transfers = [(1, ⟨.loadout, [⟨b, false, v.cfg.outletRoute⟩], [], .flowing, [], none, false, none⟩)] ∧
      t.inv = s.inv ∧ t.router = s.router ∧
      (c = .spoutReady tag → t.link.replies = s.link.replies ++ [replyTo (.spoutReady tag) .ok 0
        [.u32 (loadTarget s l), .u8 (flagCode (decide (loadTarget s l < l.remaining)))]]) ∧
      ∃ d, (t.chan .truck).dose = some d ∧ d.state = .taring ∧ d.order.requester = .loadout o.number i ∧
        d.order.target = loadTarget s l ∧ d.order.bin = some b ∧ d.order.reservation = l.reservation ∧
        d.order.inflight = v.inflight ∧ d.underTol = max l.underTol (2 * (s.chan .truck).cfg.division) ∧
        d.overTol = max l.overTol (2 * (s.chan .truck).cfg.division) ∧
        d.timer = some (s.chan .truck).cfg.settleTime ∧
        d.order.adapt = (decide (l.delivered = 0) && decide (loadTarget s l = l.remaining))

/-- LOADOUT_RESUME with ACCEPT on a line that is OVER, every line of the order final: the loadout is FINISHED and the order LOADED;
RETRY there, and any resume of a loadout that is not held, is refused (R185, R189). That RETRY of an OVER line is refused whatever
the hold's reason, and that ACCEPT raises no second COMPARTMENT_DONE, is read by inference (notes/assumptions/38.md, 28.md); that no line is current
in FINISHED is the model's choice (notes/assumptions/74.md). -/
def Obligations.LoadoutResumeAcceptsALine : Prop :=
  ∀ (s : State) (tag : Byte) (o : Order) (i : Nat) (l : OrderLine), s.replyRoom = true → s.stopped = false →
    s.currentLine = some (o, i, l) →
    (∀ reason cause, s.book.loadout.state = .held reason cause → l.status = .overWeight →
      (∀ x ∈ o.lines, x.final = true) → o.state = .loading →
      exec (.loadoutResume tag 0) s = accepted s (.loadoutResume tag 0)
        (fun u => (((u.setCurrent none).setLoadState .finished).putOrder { o with state := .loaded }).raise
          (.orderLoaded o.number)) (fun _ => []) ∧
      exec (.loadoutResume tag 1) s = refusedWith s (.loadoutResume tag 1) .wrongState 0) ∧
    ((∀ reason cause, s.book.loadout.state ≠ .held reason cause) →
      exec (.loadoutResume tag 0) s = refusedWith s (.loadoutResume tag 0) .wrongState 0)

/-! ### The Event Router -/

/-- SOURCE_LEVEL_SET, FLOOR_SET, SLOT_ARM and SLOT_DISARM (R194, R198, R201, R204). -/
def Obligations.RouterRequests : Prop :=
  ∀ (s : State) (tag : Byte), s.replyRoom = true →
    (∀ source level : Nat, s.saving = false → 3 ≤ source → source ≤ 40 → level ≤ 6 →
      Table.get s.router.notices source = none →
      exec (.sourceLevelSet tag source level) s = accepted s (.sourceLevelSet tag source level)
        (fun u => u.setRouter { u.router with
          levels := Table.put (defaultLevel source) u.router.levels source level }) (fun _ => [.u8 (s.level source)])) ∧
    (∀ (source level : Nat) (n : Notice), s.saving = false → 3 ≤ source → source ≤ 40 → level ≤ 6 →
      Table.get s.router.notices source = some n →
      exec (.sourceLevelSet tag source level) s = accepted s (.sourceLevelSet tag source level)
        (fun u => u.setRouter { u.router with
          levels := Table.put (defaultLevel source) u.router.levels source level
          notices := if level = 0 then Table.del u.router.notices source
            else Table.set u.router.notices source { n with level := level } }) (fun _ => [.u8 (s.level source)])) ∧
    (∀ source level : Nat, (source = 1 ∨ source = 2) → level ≠ 7 →
      exec (.sourceLevelSet tag source level) s = refusedWith s (.sourceLevelSet tag source level) .outOfRange 0) ∧
    (∀ floor : Nat, floor ≤ 255 → exec (.floorSet tag floor) s = accepted s (.floorSet tag floor)
      (fun u => u.setRouter { u.router with floor := min floor 6 })
      (fun _ => [.u8 (min floor 6), .u8 (flagCode (decide (6 < floor))), .u8 s.router.floor])) ∧
    (∀ (f : SlotFields) (v : Slot), f.slot < 8 → slotOf f = some v →
      ((s.slot f.slot).armed = false → exec (.slotArm tag f) s = accepted s (.slotArm tag f)
        (fun u => u.setSlot f.slot v) (fun _ => [])) ∧
      ((s.slot f.slot).armed = true → exec (.slotArm tag f) s = refusedWith s (.slotArm tag f) .wrongState 0)) ∧
    ∀ k : Nat, k < 8 → exec (.slotDisarm tag k) s = accepted s (.slotDisarm tag k)
      (fun u => u.setSlot k { u.slot k with armed := false })
      (fun _ => [.u16 (s.slot k).remaining, .u8 (flagCode (s.slot k).armed)])

/-- The oldest waiting occurrence that no listener takes is offered to the lowest armed slot of its source, which counts it and at
its last count disarms and raises its done event, or else becomes or repeats a notice (R195, R197, R200, R202). -/
def Obligations.OccurrenceGoesToSlotOrNotice : Prop :=
  ∀ (s : State) (e : Event) (rest : List Event), s.router.waiting = e :: rest → lowBin e = none → filledId e = none →
    s.bag.queue = [] → (∀ p, (s.pressAt p).cfg.triggers.source ≠ some e.source) →
    (∀ k, s.servingSlot e.source = some k → (s.slot k).action = .count → 2 ≤ (s.slot k).remaining →
      exec .occurrenceOffer s = .next ((s.setRouter { s.router with waiting := rest }).setSlot k { s.slot k with
        remaining := (s.slot k).remaining - 1, armed := (s.slot k).armed })) ∧
    (∀ k, s.servingSlot e.source = some k → (s.slot k).action = .count → (s.slot k).remaining = 1 →
      exec .occurrenceOffer s = .next (((s.setRouter { s.router with waiting := rest }).setSlot k { s.slot k with
        remaining := 0, armed := false }).raise (.slotDone k (s.slot k).source .count))) ∧
    (s.servingSlot e.source = none → s.level e.source = 0 →
      exec .occurrenceOffer s = .next (s.setRouter { s.router with waiting := rest })) ∧
    (s.servingSlot e.source = none → 0 < s.level e.source → Table.get s.router.notices e.source = none →
      exec .occurrenceOffer s = .next (s.setRouter { s.router with
        waiting := rest, notices := Table.set s.router.notices e.source ⟨1, s.level e.source, e.detail⟩ })) ∧
    ∀ n, s.servingSlot e.source = none → 0 < s.level e.source → Table.get s.router.notices e.source = some n →
      exec .occurrenceOffer s = .next (s.setRouter { s.router with
        waiting := rest
        notices := Table.set s.router.notices e.source { n with count := min (n.count + 1) 255 } })

/-- The jobs that listen to an occurrence take it: a press whose trigger set names its source or its
surge bin's fall, the bagger's SOURCE stop and start, auto-grind, the batches that wait for stock, and the bagger's short run
(R95, R97, R98, R117, R150, R164, R170, R172, R196). A serving slot tells its job and counts: a posted bag, a released batch, a changeover trigger, a bag
start (R180, R195, R202, R203). The clauses about listeners have no slot and no notice for the occurrence, so that they say
nothing about the order of listeners, slots and notices. -/
def Obligations.ListenersAndSlotActions : Prop :=
  (∀ (s u : State) (e : Event) (rest : List Event), s.router.waiting = e :: rest →
    u = s.setRouter { s.router with waiting := rest } → s.servingSlot e.source = none → s.level e.source = 0 →
    (∀ (p : PressId) (a : ActiveRun), lowBin e = none → filledId e = none → s.bag.queue = [] →
      (s.pressAt p).cfg.triggers.source = some e.source → (∀ q, q ≠ p → (s.pressAt q).cfg.triggers.source ≠ some e.source) →
      (s.pressAt p).active = some a →
      ((s.pressAt p).delay = none → (s.pressAt p).signalPending = false → exec .occurrenceOffer s =
        .next (u.setPress p { s.pressAt p with delay := some (s.pressAt p).cfg.delay })) ∧
      (∀ left, (s.pressAt p).delay = some left → exec .occurrenceOffer s =
        .next (u.setPress p { s.pressAt p with active := some { a with ignored := min (a.ignored + 1) 255 } }))) ∧
    (∀ (p : PressId) (a : ActiveRun) (b : Nat) (v : Bin), lowBin e = some b → filledId e = none → s.bag.queue = [] →
      s.bin b = some v → v.cfg.kind = .surge → (∀ q, (s.pressAt q).cfg.triggers.source ≠ some e.source) →
      (s.pressAt p).cfg.surgeBin = b → (∀ q, q ≠ p → (s.pressAt q).cfg.surgeBin ≠ b) →
      (s.pressAt p).cfg.triggers.surgeLow = true → (s.pressAt p).active = some a → (s.pressAt p).delay = none →
      (s.pressAt p).signalPending = false → exec .occurrenceOffer s =
        .next (u.setPress p { s.pressAt p with delay := some (s.pressAt p).cfg.delay })) ∧
    (∀ (r : BagRun) (more : List BagRun), lowBin e = none → filledId e = none →
      (∀ q, (s.pressAt q).cfg.triggers.source ≠ some e.source) → s.bag.queue = r :: more → r.stop = .source e.source →
      r.start ≠ .source e.source → r.stopTaken = false →
      (r.state = .filling ∨ r.state = .checking ∨ r.state = .releasing) → exec .occurrenceOffer s =
        .next (u.setBag { s.bag with queue := { r with stopTaken := true, tailLeft := r.tail } :: more })) ∧
    (∀ (b : Nat) (v : Bin), lowBin e = some b → filledId e = none → s.bag.queue = [] →
      (∀ q, (s.pressAt q).cfg.triggers.source ≠ some e.source) → (∀ q, (s.pressAt q).cfg.surgeBin ≠ b) →
      s.bin b = some v → v.cfg.kind = .ground → (v.cfg.arming = .single ∨ v.cfg.arming = .repeating) →
      (∀ r ∈ s.mill.queue, r.destination ≠ b) → sourceFit s v.cfg.grindSource = true → s.mill.queue.length < 8 →
      s.mill.state = .stopped → s.mill.stopMark = true → exec .occurrenceOffer s =
        .next ((u.setMill { s.mill with
          queue := s.mill.queue ++ [⟨61440 + b, v.cfg.grindSource, b, v.cfg.grindScreen, 0, .waiting, 0⟩] }).setInv
          { s.inv with bins := if v.cfg.arming = .single
              then Table.set s.inv.bins b { v with cfg := { v.cfg with arming := .off } } else s.inv.bins }))) ∧
  (∀ (s : State) (e : Event) (r : BagRun) (more : List BagRun), s.bag.queue = r :: more → s.stopped = false →
    r.state = .armed → r.start = .source e.source →
    handle (.listenBagStart r.number e) s =
      (s.setBag { s.bag with queue := { r with burst := 0, state := .waitBag } :: more }, [.enterWaitBag])) ∧
  (∀ (s : State) (id b : Nat),
    (waitingClaim s id = true → handle (.listenBatch (.reservationFilled id b)) s = startSelection s) ∧
    (waitingClaim s id = false → handle (.listenBatch (.reservationFilled id b)) s = (s, [])) ∧
    ∀ (r : BagRun) (more : List BagRun) (x : Reservation) (phase : BagPhase), s.bag.queue = r :: more →
      r.state = .held .short .stock phase → s.claim (.bagRun r.number) r.reservation = some x →
      min r.target x.wanted ≤ x.held → s.stopped = false → r.reservation = id →
      handle (.listenShort (.reservationFilled id b)) s = continueRun s r) ∧
  ∀ (s u : State) (e : Event) (rest : List Event) (k : Nat) (v : Slot), s.router.waiting = e :: rest → lowBin e = none →
    filledId e = none → s.bag.queue = [] → (∀ p, (s.pressAt p).cfg.triggers.source ≠ some e.source) →
    s.servingSlot e.source = some k → s.slot k = v → 2 ≤ v.remaining →
    u = (s.setRouter { s.router with waiting := rest }).setSlot k { v with remaining := v.remaining - 1 } →
    (∀ (o : Order) (l : OrderLine), v.action = .postBag → s.order v.order = some o → o.line v.line = some l →
      l.bulk = false → l.status = .opened → l.delivered + 1 ≤ l.quantity + l.overTol →
      s.book.loadout.state ≠ .finished → exec .occurrenceOffer s = .next (u.putOrder { o with
        lines := o.lines.set (v.line - 1) { l with
          delivered := l.delivered + 1
          status := if l.quantity - l.underTol ≤ l.delivered + 1 then .done else .opened } })) ∧
    (∀ b : Batch, v.action = .releaseBatch → s.line.batches.find? (·.releaseWait) = some b →
      (s.stopped = true ∨ ∃ y ∈ s.line.batches, y.onScales = true ∧ y.number ≠ b.number) →
      exec .occurrenceOffer s = .next (u.putBatch { b with releaseWait := false })) ∧
    (∀ (p : PressId) (a : ActiveRun), v.action = .changeover → (v.press = 2 ↔ p = .two) →
      (s.pressAt p).cfg.triggers.source.isSome = true → (s.pressAt p).active = some a → (s.pressAt p).delay = none →
      (s.pressAt p).signalPending = false → exec .occurrenceOffer s =
        .next (u.setPress p { s.pressAt p with delay := some (s.pressAt p).cfg.delay })) ∧
    (v.action = .bagStart → s.stopped = false → exec .occurrenceOffer s =
      .next (u.setBag { s.bag with startMark := true }))
end

