-- ==== Sys2Proof/Laws/State.lean ====
section
/-! SUPPORT. What each update of the state leaves and what it writes: one lemma per field per setter, and the readings that a new
Link Port does not change. -/

namespace Sys2Proof.Machine

/-! ### State.setLink -/

@[simp] theorem State.setLink_link (s : State) (v : Link) : (s.setLink v).link = v := rfl
@[simp] theorem State.setLink_store (s : State) (v : Link) : (s.setLink v).store = s.store := rfl
@[simp] theorem State.setLink_weigh (s : State) (v : Link) : (s.setLink v).weigh = s.weigh := rfl
@[simp] theorem State.setLink_inv (s : State) (v : Link) : (s.setLink v).inv = s.inv := rfl
@[simp] theorem State.setLink_io (s : State) (v : Link) : (s.setLink v).io = s.io := rfl
@[simp] theorem State.setLink_arb (s : State) (v : Link) : (s.setLink v).arb = s.arb := rfl
@[simp] theorem State.setLink_line (s : State) (v : Link) : (s.setLink v).line = s.line := rfl
@[simp] theorem State.setLink_mill (s : State) (v : Link) : (s.setLink v).mill = s.mill := rfl
@[simp] theorem State.setLink_press (s : State) (v : Link) : (s.setLink v).press = s.press := rfl
@[simp] theorem State.setLink_bag (s : State) (v : Link) : (s.setLink v).bag = s.bag := rfl
@[simp] theorem State.setLink_book (s : State) (v : Link) : (s.setLink v).book = s.book := rfl
@[simp] theorem State.setLink_router (s : State) (v : Link) : (s.setLink v).router = s.router := rfl
@[simp] theorem State.setLink_pending (s : State) (v : Link) : (s.setLink v).pending = s.pending := rfl
@[simp] theorem State.setLink_twice (s : State) (v w : Link) : (s.setLink v).setLink w = s.setLink w := rfl

/-! ### State.setStore -/

@[simp] theorem State.setStore_link (s : State) (v : Store) : (s.setStore v).link = s.link := rfl
@[simp] theorem State.setStore_store (s : State) (v : Store) : (s.setStore v).store = v := rfl
@[simp] theorem State.setStore_weigh (s : State) (v : Store) : (s.setStore v).weigh = s.weigh := rfl
@[simp] theorem State.setStore_inv (s : State) (v : Store) : (s.setStore v).inv = s.inv := rfl
@[simp] theorem State.setStore_io (s : State) (v : Store) : (s.setStore v).io = s.io := rfl
@[simp] theorem State.setStore_arb (s : State) (v : Store) : (s.setStore v).arb = s.arb := rfl
@[simp] theorem State.setStore_line (s : State) (v : Store) : (s.setStore v).line = s.line := rfl
@[simp] theorem State.setStore_mill (s : State) (v : Store) : (s.setStore v).mill = s.mill := rfl
@[simp] theorem State.setStore_press (s : State) (v : Store) : (s.setStore v).press = s.press := rfl
@[simp] theorem State.setStore_bag (s : State) (v : Store) : (s.setStore v).bag = s.bag := rfl
@[simp] theorem State.setStore_book (s : State) (v : Store) : (s.setStore v).book = s.book := rfl
@[simp] theorem State.setStore_router (s : State) (v : Store) : (s.setStore v).router = s.router := rfl
@[simp] theorem State.setStore_pending (s : State) (v : Store) : (s.setStore v).pending = s.pending := rfl
@[simp] theorem State.setStore_twice (s : State) (v w : Store) : (s.setStore v).setStore w = s.setStore w := rfl

/-! ### State.setWeigh -/

@[simp] theorem State.setWeigh_link (s : State) (v : Weigh) : (s.setWeigh v).link = s.link := rfl
@[simp] theorem State.setWeigh_store (s : State) (v : Weigh) : (s.setWeigh v).store = s.store := rfl
@[simp] theorem State.setWeigh_weigh (s : State) (v : Weigh) : (s.setWeigh v).weigh = v := rfl
@[simp] theorem State.setWeigh_inv (s : State) (v : Weigh) : (s.setWeigh v).inv = s.inv := rfl
@[simp] theorem State.setWeigh_io (s : State) (v : Weigh) : (s.setWeigh v).io = s.io := rfl
@[simp] theorem State.setWeigh_arb (s : State) (v : Weigh) : (s.setWeigh v).arb = s.arb := rfl
@[simp] theorem State.setWeigh_line (s : State) (v : Weigh) : (s.setWeigh v).line = s.line := rfl
@[simp] theorem State.setWeigh_mill (s : State) (v : Weigh) : (s.setWeigh v).mill = s.mill := rfl
@[simp] theorem State.setWeigh_press (s : State) (v : Weigh) : (s.setWeigh v).press = s.press := rfl
@[simp] theorem State.setWeigh_bag (s : State) (v : Weigh) : (s.setWeigh v).bag = s.bag := rfl
@[simp] theorem State.setWeigh_book (s : State) (v : Weigh) : (s.setWeigh v).book = s.book := rfl
@[simp] theorem State.setWeigh_router (s : State) (v : Weigh) : (s.setWeigh v).router = s.router := rfl
@[simp] theorem State.setWeigh_pending (s : State) (v : Weigh) : (s.setWeigh v).pending = s.pending := rfl
@[simp] theorem State.setWeigh_twice (s : State) (v w : Weigh) : (s.setWeigh v).setWeigh w = s.setWeigh w := rfl

/-! ### State.setInv -/

@[simp] theorem State.setInv_link (s : State) (v : Inventory) : (s.setInv v).link = s.link := rfl
@[simp] theorem State.setInv_store (s : State) (v : Inventory) : (s.setInv v).store = s.store := rfl
@[simp] theorem State.setInv_weigh (s : State) (v : Inventory) : (s.setInv v).weigh = s.weigh := rfl
@[simp] theorem State.setInv_inv (s : State) (v : Inventory) : (s.setInv v).inv = v := rfl
@[simp] theorem State.setInv_io (s : State) (v : Inventory) : (s.setInv v).io = s.io := rfl
@[simp] theorem State.setInv_arb (s : State) (v : Inventory) : (s.setInv v).arb = s.arb := rfl
@[simp] theorem State.setInv_line (s : State) (v : Inventory) : (s.setInv v).line = s.line := rfl
@[simp] theorem State.setInv_mill (s : State) (v : Inventory) : (s.setInv v).mill = s.mill := rfl
@[simp] theorem State.setInv_press (s : State) (v : Inventory) : (s.setInv v).press = s.press := rfl
@[simp] theorem State.setInv_bag (s : State) (v : Inventory) : (s.setInv v).bag = s.bag := rfl
@[simp] theorem State.setInv_book (s : State) (v : Inventory) : (s.setInv v).book = s.book := rfl
@[simp] theorem State.setInv_router (s : State) (v : Inventory) : (s.setInv v).router = s.router := rfl
@[simp] theorem State.setInv_pending (s : State) (v : Inventory) : (s.setInv v).pending = s.pending := rfl
@[simp] theorem State.setInv_twice (s : State) (v w : Inventory) : (s.setInv v).setInv w = s.setInv w := rfl

/-! ### State.setIO -/

@[simp] theorem State.setIO_link (s : State) (v : PlantIO) : (s.setIO v).link = s.link := rfl
@[simp] theorem State.setIO_store (s : State) (v : PlantIO) : (s.setIO v).store = s.store := rfl
@[simp] theorem State.setIO_weigh (s : State) (v : PlantIO) : (s.setIO v).weigh = s.weigh := rfl
@[simp] theorem State.setIO_inv (s : State) (v : PlantIO) : (s.setIO v).inv = s.inv := rfl
@[simp] theorem State.setIO_io (s : State) (v : PlantIO) : (s.setIO v).io = v := rfl
@[simp] theorem State.setIO_arb (s : State) (v : PlantIO) : (s.setIO v).arb = s.arb := rfl
@[simp] theorem State.setIO_line (s : State) (v : PlantIO) : (s.setIO v).line = s.line := rfl
@[simp] theorem State.setIO_mill (s : State) (v : PlantIO) : (s.setIO v).mill = s.mill := rfl
@[simp] theorem State.setIO_press (s : State) (v : PlantIO) : (s.setIO v).press = s.press := rfl
@[simp] theorem State.setIO_bag (s : State) (v : PlantIO) : (s.setIO v).bag = s.bag := rfl
@[simp] theorem State.setIO_book (s : State) (v : PlantIO) : (s.setIO v).book = s.book := rfl
@[simp] theorem State.setIO_router (s : State) (v : PlantIO) : (s.setIO v).router = s.router := rfl
@[simp] theorem State.setIO_pending (s : State) (v : PlantIO) : (s.setIO v).pending = s.pending := rfl
@[simp] theorem State.setIO_twice (s : State) (v w : PlantIO) : (s.setIO v).setIO w = s.setIO w := rfl

/-! ### State.setArb -/

@[simp] theorem State.setArb_link (s : State) (v : Arbiter) : (s.setArb v).link = s.link := rfl
@[simp] theorem State.setArb_store (s : State) (v : Arbiter) : (s.setArb v).store = s.store := rfl
@[simp] theorem State.setArb_weigh (s : State) (v : Arbiter) : (s.setArb v).weigh = s.weigh := rfl
@[simp] theorem State.setArb_inv (s : State) (v : Arbiter) : (s.setArb v).inv = s.inv := rfl
@[simp] theorem State.setArb_io (s : State) (v : Arbiter) : (s.setArb v).io = s.io := rfl
@[simp] theorem State.setArb_arb (s : State) (v : Arbiter) : (s.setArb v).arb = v := rfl
@[simp] theorem State.setArb_line (s : State) (v : Arbiter) : (s.setArb v).line = s.line := rfl
@[simp] theorem State.setArb_mill (s : State) (v : Arbiter) : (s.setArb v).mill = s.mill := rfl
@[simp] theorem State.setArb_press (s : State) (v : Arbiter) : (s.setArb v).press = s.press := rfl
@[simp] theorem State.setArb_bag (s : State) (v : Arbiter) : (s.setArb v).bag = s.bag := rfl
@[simp] theorem State.setArb_book (s : State) (v : Arbiter) : (s.setArb v).book = s.book := rfl
@[simp] theorem State.setArb_router (s : State) (v : Arbiter) : (s.setArb v).router = s.router := rfl
@[simp] theorem State.setArb_pending (s : State) (v : Arbiter) : (s.setArb v).pending = s.pending := rfl
@[simp] theorem State.setArb_twice (s : State) (v w : Arbiter) : (s.setArb v).setArb w = s.setArb w := rfl

/-! ### State.setLine -/

@[simp] theorem State.setLine_link (s : State) (v : BatchLine) : (s.setLine v).link = s.link := rfl
@[simp] theorem State.setLine_store (s : State) (v : BatchLine) : (s.setLine v).store = s.store := rfl
@[simp] theorem State.setLine_weigh (s : State) (v : BatchLine) : (s.setLine v).weigh = s.weigh := rfl
@[simp] theorem State.setLine_inv (s : State) (v : BatchLine) : (s.setLine v).inv = s.inv := rfl
@[simp] theorem State.setLine_io (s : State) (v : BatchLine) : (s.setLine v).io = s.io := rfl
@[simp] theorem State.setLine_arb (s : State) (v : BatchLine) : (s.setLine v).arb = s.arb := rfl
@[simp] theorem State.setLine_line (s : State) (v : BatchLine) : (s.setLine v).line = v := rfl
@[simp] theorem State.setLine_mill (s : State) (v : BatchLine) : (s.setLine v).mill = s.mill := rfl
@[simp] theorem State.setLine_press (s : State) (v : BatchLine) : (s.setLine v).press = s.press := rfl
@[simp] theorem State.setLine_bag (s : State) (v : BatchLine) : (s.setLine v).bag = s.bag := rfl
@[simp] theorem State.setLine_book (s : State) (v : BatchLine) : (s.setLine v).book = s.book := rfl
@[simp] theorem State.setLine_router (s : State) (v : BatchLine) : (s.setLine v).router = s.router := rfl
@[simp] theorem State.setLine_pending (s : State) (v : BatchLine) : (s.setLine v).pending = s.pending := rfl
@[simp] theorem State.setLine_twice (s : State) (v w : BatchLine) : (s.setLine v).setLine w = s.setLine w := rfl

/-! ### State.setMill -/

@[simp] theorem State.setMill_link (s : State) (v : Mill) : (s.setMill v).link = s.link := rfl
@[simp] theorem State.setMill_store (s : State) (v : Mill) : (s.setMill v).store = s.store := rfl
@[simp] theorem State.setMill_weigh (s : State) (v : Mill) : (s.setMill v).weigh = s.weigh := rfl
@[simp] theorem State.setMill_inv (s : State) (v : Mill) : (s.setMill v).inv = s.inv := rfl
@[simp] theorem State.setMill_io (s : State) (v : Mill) : (s.setMill v).io = s.io := rfl
@[simp] theorem State.setMill_arb (s : State) (v : Mill) : (s.setMill v).arb = s.arb := rfl
@[simp] theorem State.setMill_line (s : State) (v : Mill) : (s.setMill v).line = s.line := rfl
@[simp] theorem State.setMill_mill (s : State) (v : Mill) : (s.setMill v).mill = v := rfl
@[simp] theorem State.setMill_press (s : State) (v : Mill) : (s.setMill v).press = s.press := rfl
@[simp] theorem State.setMill_bag (s : State) (v : Mill) : (s.setMill v).bag = s.bag := rfl
@[simp] theorem State.setMill_book (s : State) (v : Mill) : (s.setMill v).book = s.book := rfl
@[simp] theorem State.setMill_router (s : State) (v : Mill) : (s.setMill v).router = s.router := rfl
@[simp] theorem State.setMill_pending (s : State) (v : Mill) : (s.setMill v).pending = s.pending := rfl
@[simp] theorem State.setMill_twice (s : State) (v w : Mill) : (s.setMill v).setMill w = s.setMill w := rfl

/-! ### State.setPresses -/

@[simp] theorem State.setPresses_link (s : State) (v : Presses) : (s.setPresses v).link = s.link := rfl
@[simp] theorem State.setPresses_store (s : State) (v : Presses) : (s.setPresses v).store = s.store := rfl
@[simp] theorem State.setPresses_weigh (s : State) (v : Presses) : (s.setPresses v).weigh = s.weigh := rfl
@[simp] theorem State.setPresses_inv (s : State) (v : Presses) : (s.setPresses v).inv = s.inv := rfl
@[simp] theorem State.setPresses_io (s : State) (v : Presses) : (s.setPresses v).io = s.io := rfl
@[simp] theorem State.setPresses_arb (s : State) (v : Presses) : (s.setPresses v).arb = s.arb := rfl
@[simp] theorem State.setPresses_line (s : State) (v : Presses) : (s.setPresses v).line = s.line := rfl
@[simp] theorem State.setPresses_mill (s : State) (v : Presses) : (s.setPresses v).mill = s.mill := rfl
@[simp] theorem State.setPresses_press (s : State) (v : Presses) : (s.setPresses v).press = v := rfl
@[simp] theorem State.setPresses_bag (s : State) (v : Presses) : (s.setPresses v).bag = s.bag := rfl
@[simp] theorem State.setPresses_book (s : State) (v : Presses) : (s.setPresses v).book = s.book := rfl
@[simp] theorem State.setPresses_router (s : State) (v : Presses) : (s.setPresses v).router = s.router := rfl
@[simp] theorem State.setPresses_pending (s : State) (v : Presses) : (s.setPresses v).pending = s.pending := rfl
@[simp] theorem State.setPresses_twice (s : State) (v w : Presses) : (s.setPresses v).setPresses w = s.setPresses w := rfl

/-! ### State.setBag -/

@[simp] theorem State.setBag_link (s : State) (v : Bagger) : (s.setBag v).link = s.link := rfl
@[simp] theorem State.setBag_store (s : State) (v : Bagger) : (s.setBag v).store = s.store := rfl
@[simp] theorem State.setBag_weigh (s : State) (v : Bagger) : (s.setBag v).weigh = s.weigh := rfl
@[simp] theorem State.setBag_inv (s : State) (v : Bagger) : (s.setBag v).inv = s.inv := rfl
@[simp] theorem State.setBag_io (s : State) (v : Bagger) : (s.setBag v).io = s.io := rfl
@[simp] theorem State.setBag_arb (s : State) (v : Bagger) : (s.setBag v).arb = s.arb := rfl
@[simp] theorem State.setBag_line (s : State) (v : Bagger) : (s.setBag v).line = s.line := rfl
@[simp] theorem State.setBag_mill (s : State) (v : Bagger) : (s.setBag v).mill = s.mill := rfl
@[simp] theorem State.setBag_press (s : State) (v : Bagger) : (s.setBag v).press = s.press := rfl
@[simp] theorem State.setBag_bag (s : State) (v : Bagger) : (s.setBag v).bag = v := rfl
@[simp] theorem State.setBag_book (s : State) (v : Bagger) : (s.setBag v).book = s.book := rfl
@[simp] theorem State.setBag_router (s : State) (v : Bagger) : (s.setBag v).router = s.router := rfl
@[simp] theorem State.setBag_pending (s : State) (v : Bagger) : (s.setBag v).pending = s.pending := rfl
@[simp] theorem State.setBag_twice (s : State) (v w : Bagger) : (s.setBag v).setBag w = s.setBag w := rfl

/-! ### State.setBook -/

@[simp] theorem State.setBook_link (s : State) (v : Book) : (s.setBook v).link = s.link := rfl
@[simp] theorem State.setBook_store (s : State) (v : Book) : (s.setBook v).store = s.store := rfl
@[simp] theorem State.setBook_weigh (s : State) (v : Book) : (s.setBook v).weigh = s.weigh := rfl
@[simp] theorem State.setBook_inv (s : State) (v : Book) : (s.setBook v).inv = s.inv := rfl
@[simp] theorem State.setBook_io (s : State) (v : Book) : (s.setBook v).io = s.io := rfl
@[simp] theorem State.setBook_arb (s : State) (v : Book) : (s.setBook v).arb = s.arb := rfl
@[simp] theorem State.setBook_line (s : State) (v : Book) : (s.setBook v).line = s.line := rfl
@[simp] theorem State.setBook_mill (s : State) (v : Book) : (s.setBook v).mill = s.mill := rfl
@[simp] theorem State.setBook_press (s : State) (v : Book) : (s.setBook v).press = s.press := rfl
@[simp] theorem State.setBook_bag (s : State) (v : Book) : (s.setBook v).bag = s.bag := rfl
@[simp] theorem State.setBook_book (s : State) (v : Book) : (s.setBook v).book = v := rfl
@[simp] theorem State.setBook_router (s : State) (v : Book) : (s.setBook v).router = s.router := rfl
@[simp] theorem State.setBook_pending (s : State) (v : Book) : (s.setBook v).pending = s.pending := rfl
@[simp] theorem State.setBook_twice (s : State) (v w : Book) : (s.setBook v).setBook w = s.setBook w := rfl

/-! ### State.setRouter -/

@[simp] theorem State.setRouter_link (s : State) (v : Router) : (s.setRouter v).link = s.link := rfl
@[simp] theorem State.setRouter_store (s : State) (v : Router) : (s.setRouter v).store = s.store := rfl
@[simp] theorem State.setRouter_weigh (s : State) (v : Router) : (s.setRouter v).weigh = s.weigh := rfl
@[simp] theorem State.setRouter_inv (s : State) (v : Router) : (s.setRouter v).inv = s.inv := rfl
@[simp] theorem State.setRouter_io (s : State) (v : Router) : (s.setRouter v).io = s.io := rfl
@[simp] theorem State.setRouter_arb (s : State) (v : Router) : (s.setRouter v).arb = s.arb := rfl
@[simp] theorem State.setRouter_line (s : State) (v : Router) : (s.setRouter v).line = s.line := rfl
@[simp] theorem State.setRouter_mill (s : State) (v : Router) : (s.setRouter v).mill = s.mill := rfl
@[simp] theorem State.setRouter_press (s : State) (v : Router) : (s.setRouter v).press = s.press := rfl
@[simp] theorem State.setRouter_bag (s : State) (v : Router) : (s.setRouter v).bag = s.bag := rfl
@[simp] theorem State.setRouter_book (s : State) (v : Router) : (s.setRouter v).book = s.book := rfl
@[simp] theorem State.setRouter_router (s : State) (v : Router) : (s.setRouter v).router = v := rfl
@[simp] theorem State.setRouter_pending (s : State) (v : Router) : (s.setRouter v).pending = s.pending := rfl
@[simp] theorem State.setRouter_twice (s : State) (v w : Router) : (s.setRouter v).setRouter w = s.setRouter w := rfl

/-! ### State.setPending -/

@[simp] theorem State.setPending_link (s : State) (v : List Instr) : (s.setPending v).link = s.link := rfl
@[simp] theorem State.setPending_store (s : State) (v : List Instr) : (s.setPending v).store = s.store := rfl
@[simp] theorem State.setPending_weigh (s : State) (v : List Instr) : (s.setPending v).weigh = s.weigh := rfl
@[simp] theorem State.setPending_inv (s : State) (v : List Instr) : (s.setPending v).inv = s.inv := rfl
@[simp] theorem State.setPending_io (s : State) (v : List Instr) : (s.setPending v).io = s.io := rfl
@[simp] theorem State.setPending_arb (s : State) (v : List Instr) : (s.setPending v).arb = s.arb := rfl
@[simp] theorem State.setPending_line (s : State) (v : List Instr) : (s.setPending v).line = s.line := rfl
@[simp] theorem State.setPending_mill (s : State) (v : List Instr) : (s.setPending v).mill = s.mill := rfl
@[simp] theorem State.setPending_press (s : State) (v : List Instr) : (s.setPending v).press = s.press := rfl
@[simp] theorem State.setPending_bag (s : State) (v : List Instr) : (s.setPending v).bag = s.bag := rfl
@[simp] theorem State.setPending_book (s : State) (v : List Instr) : (s.setPending v).book = s.book := rfl
@[simp] theorem State.setPending_router (s : State) (v : List Instr) : (s.setPending v).router = s.router := rfl
@[simp] theorem State.setPending_pending (s : State) (v : List Instr) : (s.setPending v).pending = v := rfl
@[simp] theorem State.setPending_twice (s : State) (v w : List Instr) : (s.setPending v).setPending w = s.setPending w := rfl

/-! ### Occurrences -/

@[simp] theorem State.raise_link (s : State) (e : Event) : (s.raise e).link = s.link := rfl
@[simp] theorem State.raise_store (s : State) (e : Event) : (s.raise e).store = s.store := rfl
@[simp] theorem State.raise_weigh (s : State) (e : Event) : (s.raise e).weigh = s.weigh := rfl
@[simp] theorem State.raise_inv (s : State) (e : Event) : (s.raise e).inv = s.inv := rfl
@[simp] theorem State.raise_io (s : State) (e : Event) : (s.raise e).io = s.io := rfl
@[simp] theorem State.raise_arb (s : State) (e : Event) : (s.raise e).arb = s.arb := rfl
@[simp] theorem State.raise_line (s : State) (e : Event) : (s.raise e).line = s.line := rfl
@[simp] theorem State.raise_mill (s : State) (e : Event) : (s.raise e).mill = s.mill := rfl
@[simp] theorem State.raise_press (s : State) (e : Event) : (s.raise e).press = s.press := rfl
@[simp] theorem State.raise_bag (s : State) (e : Event) : (s.raise e).bag = s.bag := rfl
@[simp] theorem State.raise_book (s : State) (e : Event) : (s.raise e).book = s.book := rfl
@[simp] theorem State.raise_pending (s : State) (e : Event) : (s.raise e).pending = s.pending := rfl
@[simp] theorem State.raise_waiting (s : State) (e : Event) : (s.raise e).router.waiting = s.router.waiting ++ [e] := rfl
@[simp] theorem State.raise_levels (s : State) (e : Event) : (s.raise e).router.levels = s.router.levels := rfl
@[simp] theorem State.raise_notices (s : State) (e : Event) : (s.raise e).router.notices = s.router.notices := rfl
@[simp] theorem State.raise_floor (s : State) (e : Event) : (s.raise e).router.floor = s.router.floor := rfl
@[simp] theorem State.raise_slots (s : State) (e : Event) : (s.raise e).router.slots = s.router.slots := rfl

/-! ### Readings under a new Link Port -/

@[simp] theorem State.setLink_chan (s : State) (v : Link) (x : Scale) : (s.setLink v).chan x = s.chan x := rfl
@[simp] theorem State.setLink_bin (s : State) (v : Link) (x : Nat) : (s.setLink v).bin x = s.bin x := rfl
@[simp] theorem State.setLink_reservation (s : State) (v : Link) (x : Nat) : (s.setLink v).reservation x = s.reservation x := rfl
@[simp] theorem State.setLink_freeMass (s : State) (v : Link) (x : Nat) : (s.setLink v).freeMass x = s.freeMass x := rfl
@[simp] theorem State.setLink_reworkBin (s : State) (v : Link) : (s.setLink v).reworkBin = s.reworkBin := rfl
@[simp] theorem State.setLink_pin (s : State) (v : Link) (x : Nat) : (s.setLink v).pin x = s.pin x := rfl
@[simp] theorem State.setLink_inputWith (s : State) (v : Link) (x : InputUse) : (s.setLink v).inputWith x = s.inputWith x := rfl
@[simp] theorem State.setLink_useActive (s : State) (v : Link) (x : InputUse) : (s.setLink v).useActive x = s.useActive x := rfl
@[simp] theorem State.setLink_asked (s : State) (v : Link) (x : Role) : (s.setLink v).asked x = s.asked x := rfl
@[simp] theorem State.setLink_feederBin (s : State) (v : Link) (x : Feeder) : (s.setLink v).feederBin x = s.feederBin x := rfl
@[simp] theorem State.setLink_probeBin (s : State) (v : Link) (x : Nat) : (s.setLink v).probeBin x = s.probeBin x := rfl
@[simp] theorem State.setLink_readAnalog (s : State) (v : Link) (x : Nat) : (s.setLink v).readAnalog x = s.readAnalog x := rfl
@[simp] theorem State.setLink_saving (s : State) (v : Link) : (s.setLink v).saving = s.saving := rfl
@[simp] theorem State.setLink_stopped (s : State) (v : Link) : (s.setLink v).stopped = s.stopped := rfl
@[simp] theorem State.setLink_pressAt (s : State) (v : Link) (x : PressId) : (s.setLink v).pressAt x = s.pressAt x := rfl
@[simp] theorem State.setLink_headRun (s : State) (v : Link) : (s.setLink v).headRun = s.headRun := rfl
@[simp] theorem State.setLink_batch (s : State) (v : Link) (x : Nat) : (s.setLink v).batch x = s.batch x := rfl
@[simp] theorem State.setLink_mixerBatch (s : State) (v : Link) : (s.setLink v).mixerBatch = s.mixerBatch := rfl
@[simp] theorem State.setLink_scaleBatch (s : State) (v : Link) : (s.setLink v).scaleBatch = s.scaleBatch := rfl
@[simp] theorem State.setLink_grind (s : State) (v : Link) (x : Nat) : (s.setLink v).grind x = s.grind x := rfl
@[simp] theorem State.setLink_currentGrind (s : State) (v : Link) : (s.setLink v).currentGrind = s.currentGrind := rfl
@[simp] theorem State.setLink_order (s : State) (v : Link) (x : Nat) : (s.setLink v).order x = s.order x := rfl
@[simp] theorem State.setLink_truckOrder (s : State) (v : Link) : (s.setLink v).truckOrder = s.truckOrder := rfl
@[simp] theorem State.setLink_currentLine (s : State) (v : Link) : (s.setLink v).currentLine = s.currentLine := rfl
@[simp] theorem State.setLink_compartment (s : State) (v : Link) (x : Nat) : (s.setLink v).compartment x = s.compartment x := rfl
@[simp] theorem State.setLink_level (s : State) (v : Link) (x : Nat) : (s.setLink v).level x = s.level x := rfl
@[simp] theorem State.setLink_slot (s : State) (v : Link) (x : Nat) : (s.setLink v).slot x = s.slot x := rfl
@[simp] theorem State.setLink_eligible (s : State) (v : Link) : (s.setLink v).eligible = s.eligible := rfl
@[simp] theorem State.setLink_transferOf (s : State) (v : Link) (x : Owner) : (s.setLink v).transferOf x = s.transferOf x := rfl
@[simp] theorem State.setLink_hasTransfer (s : State) (v : Link) (x : Owner) : (s.setLink v).hasTransfer x = s.hasTransfer x := rfl
@[simp] theorem State.setLink_flowing (s : State) (v : Link) (x : Owner) : (s.setLink v).flowing x = s.flowing x := rfl
@[simp] theorem State.setLink_outputOwned (s : State) (v : Link) (x : Nat) : (s.setLink v).outputOwned x = s.outputOwned x := rfl
@[simp] theorem State.setLink_outputOn (s : State) (v : Link) (x : Nat) : (s.setLink v).outputOn x = s.outputOn x := rfl
@[simp] theorem State.setLink_speedOut (s : State) (v : Link) (x : Nat) : (s.setLink v).speedOut x = s.speedOut x := rfl
@[simp] theorem State.setLink_beingFilled (s : State) (v : Link) (x : Nat) : (s.setLink v).beingFilled x = s.beingFilled x := rfl
@[simp] theorem State.setLink_reservationFull (s : State) (v : Link) (x : Nat) : (s.setLink v).reservationFull x = s.reservationFull x := rfl

end Sys2Proof.Machine
end

