-- ==== Sys2Proof/Laws/Tables.lean ====
section
/-! SUPPORT. What the operations on numbered tables do. -/

namespace Sys2Proof

variable {α : Type}

@[simp] theorem Table.get_nil (k : Nat) : Table.get ([] : Table α) k = none := rfl

theorem Table.get_set (t : Table α) (k j : Nat) (v : α) :
    Table.get (Table.set t k v) j = if k = j then some v else Table.get t j := by
  induction t with
  | nil => simp [Table.set, Table.get]
  | cons e t ih =>
    obtain ⟨i, w⟩ := e
    simp only [Table.set]
    split_ifs with h1 h2 <;> simp only [Table.get, ih] <;> split_ifs <;> simp_all

@[simp] theorem Table.get_set_self (t : Table α) (k : Nat) (v : α) : Table.get (Table.set t k v) k = some v := by
  simp [Table.get_set]

theorem Table.get_set_other (t : Table α) {k j : Nat} (v : α) (h : k ≠ j) :
    Table.get (Table.set t k v) j = Table.get t j := by
  simp [Table.get_set, h]

theorem Table.get_del (t : Table α) (k j : Nat) :
    Table.get (Table.del t k) j = if k = j then none else Table.get t j := by
  induction t with
  | nil => simp [Table.del, Table.get]
  | cons e t ih =>
    obtain ⟨i, w⟩ := e
    simp only [Table.del]
    split_ifs with h1 <;> simp only [Table.get, ih] <;> split_ifs <;> simp_all

theorem Table.mem_set {t : Table α} {k : Nat} {v : α} {e : Nat × α} (h : e ∈ Table.set t k v) : e = (k, v) ∨ e ∈ t := by
  induction t with
  | nil => simpa [Table.set] using h
  | cons x t ih =>
    obtain ⟨i, w⟩ := x
    simp only [Table.set] at h
    split_ifs at h <;> simp only [List.mem_cons] at h ⊢ <;> tauto

theorem Table.mem_del {t : Table α} {k : Nat} {e : Nat × α} (h : e ∈ Table.del t k) : e ∈ t ∧ e.1 ≠ k := by
  induction t with
  | nil => simp [Table.del] at h
  | cons x t ih =>
    obtain ⟨i, w⟩ := x
    simp only [Table.del] at h
    split_ifs at h with h1
    · exact ⟨List.mem_cons_of_mem _ (ih h).1, (ih h).2⟩
    · rcases List.mem_cons.1 h with h | h
      · subst h; exact ⟨List.mem_cons_self, h1⟩
      · exact ⟨List.mem_cons_of_mem _ (ih h).1, (ih h).2⟩

theorem Table.mem_put [DecidableEq α] {d : α} {t : Table α} {k : Nat} {v : α} {e : Nat × α} (h : e ∈ Table.put d t k v) :
    e = (k, v) ∨ e ∈ t := by
  unfold Table.put at h
  split_ifs at h
  · exact .inr (Table.mem_del h).1
  · exact Table.mem_set h

theorem Table.getD_put [DecidableEq α] (d : α) (t : Table α) (k j : Nat) (v : α) :
    Table.getD d (Table.put d t k v) j = if k = j then v else Table.getD d t j := by
  unfold Table.getD Table.put
  split_ifs with h1 h2 <;> simp_all [Table.get_del, Table.get_set]

theorem Table.mem_of_get {t : Table α} {k : Nat} {v : α} (h : Table.get t k = some v) : (k, v) ∈ t := by
  induction t with
  | nil => simp at h
  | cons x t ih =>
    obtain ⟨i, w⟩ := x
    simp only [Table.get] at h
    split_ifs at h with h1
    · simp_all
    · exact List.mem_cons_of_mem _ (ih h)

theorem Table.get_map {β : Type} (t : Table α) (f : α → β) (k : Nat) :
    Table.get (t.map (fun e => (e.1, f e.2))) k = (Table.get t k).map f := by
  induction t with
  | nil => rfl
  | cons x t ih =>
    obtain ⟨i, w⟩ := x
    simp only [List.map_cons, Table.get, ih]
    split_ifs <;> rfl

end Sys2Proof
end

