-- ==== Sys2Proof/Laws/Ledger.lean ====
section
/-! SUPPORT. What the postings and the reservation operations do to the ledger of reservations and to the stock: every one of
them keeps both in their bounds. -/

namespace Sys2Proof.Machine

/-! ### Held masses -/

theorem heldTotal_nil (b : Nat) : heldTotal [] b = 0 := rfl

theorem heldTotal_cons (r : Reservation) (l : List Reservation) (b : Nat) :
    heldTotal (r :: l) b = (if r.bin = b then r.held else 0) + heldTotal l b := by
  unfold heldTotal reservationsOf
  by_cases h : r.bin = b <;> simp [h]

theorem heldTotal_append (l m : List Reservation) (b : Nat) : heldTotal (l ++ m) b = heldTotal l b + heldTotal m b := by
  induction l with
  | nil => simp [heldTotal_nil]
  | cons r l ih => simp only [List.cons_append, heldTotal_cons, ih]; omega

theorem heldTotal_reverse (l : List Reservation) (b : Nat) : heldTotal l.reverse b = heldTotal l b := by
  induction l with
  | nil => rfl
  | cons r l ih => simp only [List.reverse_cons, heldTotal_append, heldTotal_cons, heldTotal_nil, ih]; omega

theorem heldTotal_filter_le (l : List Reservation) (p : Reservation → Bool) (b : Nat) :
    heldTotal (l.filter p) b ≤ heldTotal l b := by
  induction l with
  | nil => simp [heldTotal_nil]
  | cons r l ih =>
    rw [List.filter_cons]
    split_ifs <;> simp only [heldTotal_cons] <;> omega

/-! ### Ledgers up to one bin -/

/-- The ledger with the on-hand of bin `b` left out of account. -/
def ledgerBut (bins : Table Bin) (b : Nat) (l : List Reservation) : Prop :=
  (∀ r ∈ l, (Table.get bins r.bin).isSome = true ∧ r.held ≤ r.wanted) ∧ (l.map (·.id)).Nodup ∧
    l.length ≤ Config.reservationCap ∧ ∀ c v, c ≠ b → Table.get bins c = some v → heldTotal l c ≤ v.onHand

/-- One list of reservations stands for another: the same ids and bins in order, each held mass within its wanted mass. -/
structure Stands (l m : List Reservation) : Prop where
  ids : m.map (·.id) = l.map (·.id)
  bins : m.map (·.bin) = l.map (·.bin)
  held : (∀ r ∈ l, r.held ≤ r.wanted) → ∀ r ∈ m, r.held ≤ r.wanted

theorem Stands.length {l m : List Reservation} (h : Stands l m) : m.length = l.length := by
  simpa using congrArg List.length h.ids

theorem Stands.mem_bin {l m : List Reservation} (h : Stands l m) {r : Reservation} (hr : r ∈ m) :
    ∃ x ∈ l, x.bin = r.bin := by
  have : r.bin ∈ m.map (·.bin) := List.mem_map_of_mem hr
  rw [h.bins] at this
  simpa [List.mem_map] using this

theorem ledgerBut_stands {bins : Table Bin} {b : Nat} {l m : List Reservation} (hl : ledgerBut bins b l) (h : Stands l m)
    (hc : ∀ c, c ≠ b → heldTotal m c ≤ heldTotal l c) : ledgerBut bins b m := by
  refine ⟨fun r hr => ?_, h.ids ▸ hl.2.1, h.length ▸ hl.2.2.1, fun c v hcb hv => (hc c hcb).trans (hl.2.2.2 c v hcb hv)⟩
  obtain ⟨x, hx, hb⟩ := h.mem_bin hr
  exact ⟨hb ▸ (hl.1 x hx).1, h.held (fun y hy => (hl.1 y hy).2) r hr⟩

theorem ledgerOk_of_but {i : Inventory} {b : Nat} (h : ledgerBut i.bins b i.reservations)
    (hb : ∀ v, Table.get i.bins b = some v → heldTotal i.reservations b ≤ v.onHand) : i.LedgerOk := by
  refine ⟨h.1, h.2.1, h.2.2.1, fun c v hv => ?_⟩
  by_cases hc : c = b
  · subst hc; exact hb v hv
  · exact h.2.2.2 c v hc hv

theorem ledgerBut_of_ok {i : Inventory} (b : Nat) (h : i.LedgerOk) : ledgerBut i.bins b i.reservations :=
  ⟨h.1, h.2.1, h.2.2.1, fun c v _ hv => h.2.2.2 c v hv⟩

theorem ledgerBut_filter {bins : Table Bin} {b : Nat} {l : List Reservation} (p : Reservation → Bool)
    (hl : ledgerBut bins b l) : ledgerBut bins b (l.filter p) := by
  refine ⟨fun r hr => hl.1 r (List.mem_of_mem_filter hr), hl.2.1.sublist (List.filter_sublist.map _),
    (List.length_filter_le _ _).trans hl.2.2.1, fun c v hc hv => (heldTotal_filter_le l p c).trans (hl.2.2.2 c v hc hv)⟩

/-- The bins may change their records as long as no bin is lost and no other on-hand falls. -/
theorem ledgerBut_bins {bins bins' : Table Bin} {b : Nat} {l : List Reservation} (hl : ledgerBut bins b l)
    (hs : ∀ c, (Table.get bins c).isSome = true → (Table.get bins' c).isSome = true)
    (ho : ∀ c v', c ≠ b → Table.get bins' c = some v' → ∀ v, Table.get bins c = some v → v.onHand ≤ v'.onHand)
    (hn : ∀ c, c ≠ b → Table.get bins c = none → Table.get bins' c ≠ none → heldTotal l c = 0) :
    ledgerBut bins' b l := by
  refine ⟨fun r hr => ⟨hs _ (hl.1 r hr).1, (hl.1 r hr).2⟩, hl.2.1, hl.2.2.1, fun c v' hc hv' => ?_⟩
  cases hv : Table.get bins c with
  | none => rw [hn c hc hv (by simp [hv'])]; omega
  | some v => exact (hl.2.2.2 c v hc hv).trans (ho c v' hc hv' v hv)

/-! ### Give-back -/

theorem giveBackFrom_stands (b : Nat) (l : List Reservation) : ∀ n, Stands l (giveBackFrom b n l) := by
  induction l with
  | nil => intro n; exact ⟨rfl, rfl, fun _ _ h => by simp [giveBackFrom] at h⟩
  | cons r l ih =>
    intro n
    simp only [giveBackFrom]
    split_ifs with h
    · obtain ⟨h1, h2, h3⟩ := ih (n - r.held)
      refine ⟨by simp [h1], by simp [h2], fun hl x hx => ?_⟩
      rcases List.mem_cons.1 hx with rfl | hx
      · have := hl r List.mem_cons_self; simp only; omega
      · exact h3 (fun y hy => hl y (List.mem_cons_of_mem _ hy)) x hx
    · obtain ⟨h1, h2, h3⟩ := ih n
      refine ⟨by simp [h1], by simp [h2], fun hl x hx => ?_⟩
      rcases List.mem_cons.1 hx with rfl | hx
      · exact hl _ List.mem_cons_self
      · exact h3 (fun y hy => hl y (List.mem_cons_of_mem _ hy)) x hx

theorem giveBackFrom_held (b : Nat) (l : List Reservation) : ∀ n,
    heldTotal (giveBackFrom b n l) b = heldTotal l b - n ∧
      ∀ c, c ≠ b → heldTotal (giveBackFrom b n l) c = heldTotal l c := by
  induction l with
  | nil => intro n; simp [giveBackFrom, heldTotal_nil]
  | cons r l ih =>
    intro n
    simp only [giveBackFrom]
    split_ifs with h
    · obtain ⟨h1, h2⟩ := ih (n - r.held)
      refine ⟨?_, fun c hc => ?_⟩
      · simp only [heldTotal_cons, h1, h, if_true]; omega
      · simp only [heldTotal_cons, h2 c hc, h, Ne.symm hc, if_false]
    · obtain ⟨h1, h2⟩ := ih n
      refine ⟨?_, fun c hc => ?_⟩
      · simp only [heldTotal_cons, h1, h, if_false]; omega
      · simp only [heldTotal_cons, h2 c hc]

theorem giveBack_held (b on : Nat) (l : List Reservation) :
    heldTotal (giveBack b on l) b = min (heldTotal l b) on ∧ ∀ c, c ≠ b → heldTotal (giveBack b on l) c = heldTotal l c := by
  have h := giveBackFrom_held b l.reverse (heldTotal l b - on)
  unfold giveBack
  refine ⟨?_, fun c hc => ?_⟩
  · rw [heldTotal_reverse, h.1, heldTotal_reverse]; omega
  · rw [heldTotal_reverse, h.2 c hc, heldTotal_reverse]

theorem giveBack_stands (b on : Nat) (l : List Reservation) : Stands l (giveBack b on l) := by
  have h := giveBackFrom_stands b l.reverse (heldTotal l b - on)
  refine ⟨?_, ?_, fun hl r hr => ?_⟩
  · simp [giveBack, h.ids]
  · simp [giveBack, h.bins]
  · exact h.held (fun x hx => hl x (List.mem_reverse.1 hx)) r (List.mem_reverse.1 hr)

/-! ### Top-up -/

theorem topUpFrom_stands (b : Nat) (l : List Reservation) : ∀ n, Stands l (topUpFrom b n l).1 := by
  induction l with
  | nil => intro n; exact ⟨rfl, rfl, fun _ _ h => by simp [topUpFrom] at h⟩
  | cons r l ih =>
    intro n
    simp only [topUpFrom]
    split_ifs with h
    · obtain ⟨h1, h2, h3⟩ := ih (n - min (r.wanted - r.held) n)
      refine ⟨by simp [h1], by simp [h2], fun hl x hx => ?_⟩
      rcases List.mem_cons.1 hx with rfl | hx
      · have := hl r List.mem_cons_self; simp only; omega
      · exact h3 (fun y hy => hl y (List.mem_cons_of_mem _ hy)) x hx
    · obtain ⟨h1, h2, h3⟩ := ih n
      refine ⟨by simp [h1], by simp [h2], fun hl x hx => ?_⟩
      rcases List.mem_cons.1 hx with rfl | hx
      · exact hl _ List.mem_cons_self
      · exact h3 (fun y hy => hl y (List.mem_cons_of_mem _ hy)) x hx

theorem topUpFrom_held (b : Nat) (l : List Reservation) : ∀ n,
    heldTotal (topUpFrom b n l).1 b ≤ heldTotal l b + n ∧ ∀ c, c ≠ b → heldTotal (topUpFrom b n l).1 c = heldTotal l c := by
  induction l with
  | nil => intro n; simp [topUpFrom, heldTotal_nil]
  | cons r l ih =>
    intro n
    simp only [topUpFrom]
    split_ifs with h
    · obtain ⟨h1, h2⟩ := ih (n - min (r.wanted - r.held) n)
      refine ⟨?_, fun c hc => ?_⟩
      · simp only [heldTotal_cons, h.1, if_true]; omega
      · simp only [heldTotal_cons, h2 c hc, h.1, Ne.symm hc, if_false]
    · obtain ⟨h1, h2⟩ := ih n
      refine ⟨?_, fun c hc => ?_⟩
      · simp only [heldTotal_cons]; omega
      · simp only [heldTotal_cons, h2 c hc]

end Sys2Proof.Machine
end

