-- ==== Sys2Proof/Laws/Keeps.lean ====
section
/-! SUPPORT. What every consequence of a command keeps: the Link Port, the settings store, the waiting commands, the levels, the
causes of a Line Stop, and the bounds of the router, the ledger, the stock and the arbiter. Here the primitive operations;
`Laws/Tasks.lean` has the blocks'. -/

namespace Sys2Proof.Machine

/-- From `s` to `t` nothing changes that only the link, the reset and the settings requests change, and no bound is lost. -/
structure Keeps (s t : State) : Prop where
  link : t.link = s.link
  store : t.store = s.store
  pending : t.pending = s.pending
  levels : t.router.levels = s.router.levels
  floor : t.router.floor = s.router.floor
  router : s.router.BoundsOk → t.router.BoundsOk
  ledger : s.inv.LedgerOk → t.inv.LedgerOk
  stock : s.inv.StockOk → t.inv.StockOk
  stop : t.arb.stop = s.arb.stop
  waits : s.arb.StopOk → t.arb.StopOk
  resources : s.arb.ResourcesOk → t.arb.ResourcesOk
  dispatch : s.book.dispatch.length ≤ Config.dispatchCap → t.book.dispatch.length ≤ Config.dispatchCap

theorem Keeps.refl (s : State) : Keeps s s := ⟨rfl, rfl, rfl, rfl, rfl, id, id, id, rfl, id, id, id⟩

theorem Keeps.trans {s t u : State} (h : Keeps s t) (k : Keeps t u) : Keeps s u :=
  ⟨k.link.trans h.link, k.store.trans h.store, k.pending.trans h.pending, k.levels.trans h.levels,
    k.floor.trans h.floor, k.router ∘ h.router, k.ledger ∘ h.ledger, k.stock ∘ h.stock, k.stop.trans h.stop,
    k.waits ∘ h.waits, k.resources ∘ h.resources, k.dispatch ∘ h.dispatch⟩

/-! ### Blocks without a bound of their own -/

variable {s t : State}

theorem Keeps.setWeigh (h : Keeps s t) (v : Weigh) : Keeps s (t.setWeigh v) := h.trans ⟨rfl, rfl, rfl, rfl, rfl, id, id, id, rfl, id, id, id⟩
theorem Keeps.setIO (h : Keeps s t) (v : PlantIO) : Keeps s (t.setIO v) := h.trans ⟨rfl, rfl, rfl, rfl, rfl, id, id, id, rfl, id, id, id⟩
theorem Keeps.setLine (h : Keeps s t) (v : BatchLine) : Keeps s (t.setLine v) := h.trans ⟨rfl, rfl, rfl, rfl, rfl, id, id, id, rfl, id, id, id⟩
theorem Keeps.setMill (h : Keeps s t) (v : Mill) : Keeps s (t.setMill v) := h.trans ⟨rfl, rfl, rfl, rfl, rfl, id, id, id, rfl, id, id, id⟩
theorem Keeps.setPresses (h : Keeps s t) (v : Presses) : Keeps s (t.setPresses v) := h.trans ⟨rfl, rfl, rfl, rfl, rfl, id, id, id, rfl, id, id, id⟩
theorem Keeps.setBag (h : Keeps s t) (v : Bagger) : Keeps s (t.setBag v) := h.trans ⟨rfl, rfl, rfl, rfl, rfl, id, id, id, rfl, id, id, id⟩
theorem Keeps.setBook (h : Keeps s t) (v : Book) (hv : t.book.dispatch.length ≤ Config.dispatchCap →
    v.dispatch.length ≤ Config.dispatchCap := by exact id) : Keeps s (t.setBook v) :=
  h.trans ⟨rfl, rfl, rfl, rfl, rfl, id, id, id, rfl, id, id, hv⟩

theorem Keeps.setChan (h : Keeps s t) (sc : Scale) (c : Channel) : Keeps s (t.setChan sc c) := h.setWeigh _
theorem Keeps.setPin (h : Keeps s t) (n : Nat) (p : InputPin) : Keeps s (t.setPin n p) := h.setIO _
theorem Keeps.ask (h : Keeps s t) (r : Role) (on : Bool) : Keeps s (t.ask r on) := h.setIO _
theorem Keeps.setAnalogPin (h : Keeps s t) (n : Nat) (p : Int) : Keeps s (t.setAnalogPin n p) := h.setIO _
theorem Keeps.setAnalogOut (h : Keeps s t) (n v : Nat) : Keeps s (t.setAnalogOut n v) := h.setIO _
theorem Keeps.takeOffered (h : Keeps s t) (e : PlantEvent) : Keeps s (t.takeOffered e) := h.setIO _
theorem Keeps.setPress (h : Keeps s t) (p : PressId) (x : Press) : Keeps s (t.setPress p x) := h.setPresses _
theorem Keeps.modPress (h : Keeps s t) (p : PressId) (f : Press → Press) : Keeps s (t.modPress p f) := h.setPress _ _

theorem Keeps.offer (h : Keeps s t) (e : PlantEvent) : Keeps s (t.offer e) := by
  unfold State.offer
  split_ifs
  exacts [h, h.setIO _]

theorem Keeps.foldl {α : Type} {f : State → α → State} (hf : ∀ u x, Keeps u (f u x)) (l : List α) :
    ∀ {s t : State}, Keeps s t → Keeps s (l.foldl f t) := by
  induction l with
  | nil => exact fun h => h
  | cons x l ih => exact fun h => ih (h.trans (hf _ x))

theorem Keeps.askAll (h : Keeps s t) (l : List Role) (on : Bool) : Keeps s (t.askAll l on) :=
  h.trans (Keeps.foldl (fun u _ => (Keeps.refl u).ask _ _) l (Keeps.refl t))

/-! ### The router -/

theorem Keeps.setWaiting (h : Keeps s t) (l : List Event) : Keeps s (t.setRouter { t.router with waiting := l }) :=
  h.trans ⟨rfl, rfl, rfl, rfl, rfl, id, id, id, rfl, id, id, id⟩

theorem Keeps.raise (h : Keeps s t) (e : Event) : Keeps s (t.raise e) := h.setWaiting _

theorem defaultLevel_le (k : Nat) : defaultLevel k ≤ 7 := by
  unfold defaultLevel
  cases h : ([7, 7, 6, 6, 5, 3, 4, 3, 6, 4, 4, 2, 3, 6, 5, 3, 3, 6, 6, 3, 3, 1, 2, 3, 3, 5, 3, 6, 3, 5, 6, 4,
    3, 3, 3, 3, 3, 3, 3, 3] : List Nat)[k - 1]? with
  | none => simp
  | some v =>
    have := List.mem_of_getElem? h
    simp at this ⊢
    omega

theorem level_le {s : State} (h : levelsOk s.router.levels) (k : Nat) : s.level k ≤ 7 := by
  unfold State.level Table.getD
  cases hk : Table.get s.router.levels k with
  | none => simpa using defaultLevel_le k
  | some v => simpa using h _ (Table.mem_of_get hk)

theorem Keeps.pendNotice (h : Keeps s t) (e : Event) : Keeps s (Sys2Proof.Machine.pendNotice t e) := by
  unfold Sys2Proof.Machine.pendNotice
  simp only
  split_ifs with h0
  · exact h
  · refine h.trans ⟨rfl, rfl, rfl, rfl, rfl, fun hb => ⟨hb.1, hb.2.1, fun x hx => ?_, hb.2.2.2⟩, id, id, rfl, id, id, id⟩
    rcases Table.mem_set hx with rfl | hx
    · cases hn : Table.get t.router.notices e.source with
      | none =>
        have := level_le hb.1 e.source
        simp only; omega
      | some n =>
        have := hb.2.2.1 _ (Table.mem_of_get hn)
        simp only [satAdd] at this ⊢; omega
    · exact hb.2.2.1 x hx

theorem slot_armed {s : State} (h : s.router.BoundsOk) {k : Nat} (ha : (s.slot k).armed = true) :
    1 ≤ (s.slot k).remaining ∧ (s.slot k).remaining ≤ max16 ∧ 3 ≤ (s.slot k).source ∧ (s.slot k).source ≤ 40 := by
  unfold State.slot Table.getD at *
  cases hk : Table.get s.router.slots k with
  | none => simp [hk, emptySlot] at ha
  | some v =>
    rw [hk] at ha
    exact h.2.2.2 _ (Table.mem_of_get hk) ha

/-- A slot may take any form whose armed one is in its bounds. -/
theorem Keeps.setSlot (h : Keeps s t) (k : Nat) (v : Slot)
    (hv : t.router.BoundsOk → v.armed = true → 1 ≤ v.remaining ∧ v.remaining ≤ max16 ∧ 3 ≤ v.source ∧ v.source ≤ 40) :
    Keeps s (t.setSlot k v) := by
  refine h.trans ⟨rfl, rfl, rfl, rfl, rfl, fun hb => ⟨hb.1, hb.2.1, hb.2.2.1, fun x hx ha => ?_⟩, id, id, rfl, id, id, id⟩
  rcases Table.mem_put hx with rfl | hx
  · exact hv hb ha
  · exact hb.2.2.2 x hx ha

theorem Keeps.slotCount (h : Keeps s t) (k : Nat) : Keeps s (Sys2Proof.Machine.slotCount t k) := by
  unfold Sys2Proof.Machine.slotCount
  have hs : Keeps s (t.setSlot k { t.slot k with
      remaining := (t.slot k).remaining - 1,
      armed := (t.slot k).armed && decide ((t.slot k).remaining - 1 ≠ 0) }) := by
    refine h.setSlot k _ fun hb hv => ?_
    simp only [Bool.and_eq_true, decide_eq_true_eq] at hv ⊢
    have := slot_armed hb hv.1
    omega
  simp only
  split_ifs
  exacts [hs.raise _, hs]

end Sys2Proof.Machine
end

