-- ==== Sys2Proof/Laws/Postings.lean ====
section
/-! SUPPORT. The postings, the reservation operations and the Route Arbiter keep what `Keeps` lists. -/

namespace Sys2Proof.Machine

variable {s t : State}

/-! ### Bins -/

/-- The Inventory Unit may take any form that keeps its two bounds. -/
theorem Keeps.setInv (h : Keeps s t) (v : Inventory) (hl : t.inv.LedgerOk → v.LedgerOk) (hs : t.inv.StockOk → v.StockOk) :
    Keeps s (t.setInv v) :=
  h.trans ⟨rfl, rfl, rfl, rfl, rfl, id, hl, hs, rfl, id, id, id⟩

theorem ledgerOk_setBin {i : Inventory} {b : Nat} {v w : Bin} (hb : Table.get i.bins b = some v) (ho : v.onHand ≤ w.onHand)
    (h : i.LedgerOk) : Inventory.LedgerOk { i with bins := Table.set i.bins b w } := by
  refine ⟨fun r hr => ⟨?_, (h.1 r hr).2⟩, h.2.1, h.2.2.1, fun c x hx => ?_⟩
  · have := (h.1 r hr).1
    simp only [Table.get_set]; split_ifs <;> simp_all
  · simp only [Table.get_set] at hx
    split_ifs at hx with hc
    · subst hc
      simp only [Option.some.injEq] at hx; subst hx
      exact (h.2.2.2 _ v hb).trans ho
    · exact h.2.2.2 c x hx

theorem stockOk_setBin {i : Inventory} {b : Nat} {w : Bin} (l : List Reservation) (n : Nat)
    (hw : w.onHand ≤ w.cfg.capacity ∧ w.cfg.highMark ≤ w.cfg.capacity) (h : i.StockOk) :
    Inventory.StockOk ⟨Table.set i.bins b w, l, n⟩ := by
  intro c x hx
  simp only [Table.get_set] at hx
  split_ifs at hx with hc
  · simp only [Option.some.injEq] at hx; subst hx; exact hw
  · exact h c x hx

/-- A bin may change its record, its on-hand, capacity and high mark as they were. -/
theorem Keeps.touch (h : Keeps s t) {b : Nat} {v w : Bin} (hb : t.bin b = some v) (ho : w.onHand = v.onHand)
    (hc : w.cfg.capacity = v.cfg.capacity) (hm : w.cfg.highMark = v.cfg.highMark) : Keeps s (t.setBin b w) := by
  refine h.setInv _ (ledgerOk_setBin hb ho.ge) fun hs => stockOk_setBin _ _ ?_ hs
  have := hs b v hb
  omega

theorem Keeps.modBin (h : Keeps s t) (b : Nat) (f : Bin → Bin) (ho : ∀ v, (f v).onHand = v.onHand)
    (hc : ∀ v, (f v).cfg = v.cfg) : Keeps s (t.modBin b f) := by
  unfold State.modBin
  split
  · next v hv => exact h.touch hv (ho v) (by rw [hc]) (by rw [hc])
  · exact h

theorem Keeps.askFeeder (h : Keeps s t) (b n : Nat) : Keeps s (t.askFeeder b n) :=
  h.modBin b _ (fun _ => rfl) (fun _ => rfl)

/-! ### Reservations -/

theorem Keeps.raiseAll (h : Keeps s t) {α : Type} (f : α → Event) (l : List α) :
    Keeps s (l.foldl (fun u x => u.raise (f x)) t) :=
  h.trans (Keeps.foldl (fun u _ => (Keeps.refl u).raise _) l (Keeps.refl t))

theorem Keeps.topUp (h : Keeps s t) (b : Nat) : Keeps s (Sys2Proof.Machine.topUp t b).1 := by
  unfold Sys2Proof.Machine.topUp
  suffices key : Keeps s (t.setInv ⟨t.inv.bins, (topUpFrom b (t.freeMass b) t.inv.reservations).1, t.inv.nextId⟩) from
    key.raiseAll (fun id => Event.reservationFilled id b) _
  refine h.setInv _ (fun hl => ?_) (fun hs => hs)
  have h0 : ledgerBut t.inv.bins b t.inv.reservations := ledgerBut_of_ok b hl
  refine ledgerOk_of_but (b := b) (ledgerBut_stands h0 (topUpFrom_stands b t.inv.reservations (t.freeMass b))
    fun c hc => ((topUpFrom_held b t.inv.reservations (t.freeMass b)).2 c hc).le) fun v hv => ?_
  have h1 := (topUpFrom_held b t.inv.reservations (t.freeMass b)).1
  have h2 := hl.2.2.2 b v hv
  have h3 : t.freeMass b = v.onHand - heldTotal t.inv.reservations b := by
    have : t.bin b = some v := hv
    simp [State.freeMass, this]
  show heldTotal (topUpFrom b (t.freeMass b) t.inv.reservations).1 b ≤ _
  omega

theorem Keeps.dropReservations (h : Keeps s t) (p : Reservation → Bool) :
    Keeps s (t.setInv { t.inv with reservations := t.inv.reservations.filter p }) := by
  refine h.setInv _ (fun hl => ?_) (fun hs => hs)
  have := ledgerBut_filter p (ledgerBut_of_ok 0 hl)
  exact ⟨this.1, this.2.1, this.2.2.1, fun c v hv => (heldTotal_filter_le _ p c).trans (hl.2.2.2 c v hv)⟩

theorem Keeps.closeReservation (h : Keeps s t) (id : Nat) : Keeps s (Sys2Proof.Machine.closeReservation t id).1 := by
  unfold Sys2Proof.Machine.closeReservation
  split
  · exact h
  · exact (h.dropReservations _).topUp _

theorem Keeps.closeClaim (h : Keeps s t) (o : Holder) (id : Nat) : Keeps s (Sys2Proof.Machine.closeClaim t o id).1 := by
  unfold Sys2Proof.Machine.closeClaim
  split
  exacts [h.closeReservation _, h]

theorem Keeps.closeHeld (h : Keeps s t) (o : Holder) (id : Option Nat) :
    Keeps s (Sys2Proof.Machine.closeHeld t o id).1 := by
  unfold Sys2Proof.Machine.closeHeld
  split
  exacts [h.closeClaim _ _, h]

theorem Keeps.foldResult {α : Type} {f : α → State → Result} (hf : ∀ x u, Keeps u (f x u).1) (l : List α) :
    ∀ (r : Result), Keeps s r.1 → Keeps s (l.foldl (fun r x => r.andThen (fun u => f x u)) r).1 := by
  induction l with
  | nil => exact fun r h => h
  | cons x l ih => exact fun r h => ih _ (h.trans (hf x r.1))

theorem Keeps.closeAll (h : Keeps s t) (l : List (Holder × Nat)) : Keeps s (Sys2Proof.Machine.closeAll t l).1 :=
  Keeps.foldResult (f := fun c u => Sys2Proof.Machine.closeClaim u c.1 c.2) (fun c u => (Keeps.refl u).closeClaim c.1 c.2) l _ h

theorem heldTotal_map_id {l : List Reservation} {r : Reservation} (hn : (l.map (·.id)).Nodup) (hr : r ∈ l)
    {next : Reservation} (hh : next.held ≤ r.held) (hb : next.bin = r.bin) (c : Nat) :
    heldTotal (l.map (fun x => if x.id = r.id then next else x)) c ≤ heldTotal l c := by
  induction l with
  | nil => simp at hr
  | cons x l ih =>
    simp only [List.map_cons, List.nodup_cons] at hn
    simp only [List.map_cons, heldTotal_cons]
    rcases List.mem_cons.1 hr with rfl | hr
    · have : l.map (fun x => if x.id = r.id then next else x) = l := by
        conv_rhs => rw [← List.map_id l]
        refine List.map_congr_left fun y hy => ?_
        have : y.id ≠ r.id := fun h => hn.1 (h ▸ List.mem_map_of_mem hy)
        simp [this]
      rw [this]
      simp only [if_true, hb]
      split_ifs <;> omega
    · have hne : x.id ≠ r.id := fun h => hn.1 (h ▸ List.mem_map_of_mem hr)
      simp only [hne, if_false]
      have := ih hn.2 hr
      omega

theorem Keeps.changeWanted (h : Keeps s t) (id wanted : Nat) : Keeps s (Sys2Proof.Machine.changeWanted t id wanted).1 := by
  unfold Sys2Proof.Machine.changeWanted
  split
  · exact h
  · next r hr =>
    have hmem : r ∈ t.inv.reservations := List.mem_of_find?_eq_some hr
    have hid : r.id = id := by simpa using List.find?_some hr
    subst hid
    have key : Keeps s (t.setInv ⟨t.inv.bins, t.inv.reservations.map
        (fun x => if x.id = r.id then { r with wanted := wanted, held := min r.held wanted } else x), t.inv.nextId⟩) := by
      refine h.setInv _ (fun hl => ⟨fun x hx => ?_, ?_, ?_, fun c v hv => ?_⟩) (fun hs => hs)
      · simp only [List.mem_map] at hx
        obtain ⟨y, hy, rfl⟩ := hx
        split_ifs
        · exact ⟨(hl.1 r hmem).1, Nat.min_le_right _ _⟩
        · exact hl.1 y hy
      · have : (t.inv.reservations.map (fun x => if x.id = r.id then
            ({ r with wanted := wanted, held := min r.held wanted } : Reservation) else x)).map (·.id) =
            t.inv.reservations.map (·.id) := by
          rw [List.map_map]
          refine List.map_congr_left fun y _ => ?_
          simp only [Function.comp]
          split_ifs with hy
          · simp [hy]
          · rfl
        rw [show (Inventory.reservations _) = _ from rfl]
        simpa only [this] using hl.2.1
      · simpa using hl.2.2.1
      · refine le_trans ?_ (hl.2.2.2 c v hv)
        have := heldTotal_map_id (next := { r with wanted := wanted, held := min r.held wanted }) hl.2.1 hmem
          (Nat.min_le_left _ _) rfl c
        exact this
    by_cases h0 : wanted = 0
    · rw [if_pos h0]; exact h.closeReservation _
    · rw [if_neg h0]
      simp only
      split
      · exact (key.raise _).topUp _
      · exact key.topUp _

/-! ### Postings -/

theorem Keeps.markEvents (h : Keeps s t) (b before : Nat) (cause : LowCause) (clamped : Bool) :
    Keeps s (Sys2Proof.Machine.markEvents t b before cause clamped) := by
  unfold Sys2Proof.Machine.markEvents
  split
  · exact h
  · simp only
    split_ifs <;> simp only [h, Keeps.raise]

/-- The middle of a posting: the on-hand is changed, and give-back and closing have run (R39). -/
theorem Keeps.postingMid {b : Nat} {w : Bin} {l : List Reservation} (hl : Stands t.inv.reservations l)
    (hh : ∀ c, heldTotal l c ≤ heldTotal t.inv.reservations c)
    (hw : t.inv.StockOk → w.onHand ≤ w.cfg.capacity ∧ w.cfg.highMark ≤ w.cfg.capacity) :
    Keeps t (t.setInv ⟨Table.set t.inv.bins b w, closeEmpty b (giveBack b w.onHand l), t.inv.nextId⟩) := by
  refine (Keeps.refl t).setInv _ (fun hk => ?_) fun hs => stockOk_setBin _ _ (hw hs) hs
  have h1 : ledgerBut t.inv.bins b (giveBack b w.onHand l) :=
    ledgerBut_stands (ledgerBut_stands (ledgerBut_of_ok b hk) hl fun c _ => hh c) (giveBack_stands _ _ _)
      fun c hc => ((giveBack_held b w.onHand l).2 c hc).le
  have h2 : ledgerBut (Table.set t.inv.bins b w) b (giveBack b w.onHand l) := by
    refine ledgerBut_bins h1 (fun c hc => ?_) (fun c x hc hx y hy => ?_) (fun c hc hx hy => ?_)
    · simp only [Table.get_set]; split_ifs <;> simp_all
    · rw [Table.get_set_other _ _ (Ne.symm hc)] at hx
      simp_all
    · rw [Table.get_set_other _ _ (Ne.symm hc)] at hy
      exact absurd hx hy
  refine ledgerOk_of_but (b := b) (ledgerBut_filter _ h2) fun x hx => ?_
  simp only [Table.get_set_self, Option.some.injEq] at hx
  subst hx
  refine (heldTotal_filter_le _ _ _).trans ?_
  rw [(giveBack_held b _ _).1]
  exact Nat.min_le_right _ _

/-- A posting that takes bin `b` to the record `w`. -/
theorem Keeps.posting (h : Keeps s t) {b : Nat} {w : Bin} {l : List Reservation}
    (hl : Stands t.inv.reservations l) (hh : ∀ c, heldTotal l c ≤ heldTotal t.inv.reservations c)
    (hw : t.inv.StockOk → w.onHand ≤ w.cfg.capacity ∧ w.cfg.highMark ≤ w.cfg.capacity)
    (before : Nat) (topping : Bool) (cause : LowCause) (clamped : Bool) :
    Keeps s (finishPosting (t.setInv ⟨Table.set t.inv.bins b w, l, t.inv.nextId⟩) b before topping cause clamped).1 := by
  have hget : (t.setInv ⟨Table.set t.inv.bins b w, l, t.inv.nextId⟩).bin b = some w := Table.get_set_self _ _ _
  unfold finishPosting
  rw [hget]
  have mid := h.trans (Keeps.postingMid (b := b) (w := w) hl hh hw)
  simp only
  split_ifs
  · exact (mid.topUp b).markEvents _ _ _ _
  · exact mid.markEvents _ _ _ _

theorem Stands.rfl' (l : List Reservation) : Stands l l := ⟨rfl, rfl, fun h => h⟩

theorem chargeReservation_stands (l : List Reservation) (id : Option Nat) (b x : Nat) :
    Stands l (chargeReservation l id b x) := by
  unfold chargeReservation
  refine ⟨?_, ?_, fun h r hr => ?_⟩
  · rw [List.map_map]; exact List.map_congr_left fun y _ => by simp only [Function.comp]; split_ifs <;> rfl
  · rw [List.map_map]; exact List.map_congr_left fun y _ => by simp only [Function.comp]; split_ifs <;> rfl
  · simp only [List.mem_map] at hr
    obtain ⟨y, hy, rfl⟩ := hr
    have := h y hy
    split_ifs
    · simp only; omega
    · exact this

theorem chargeReservation_held (l : List Reservation) (id : Option Nat) (b x c : Nat) :
    heldTotal (chargeReservation l id b x) c ≤ heldTotal l c := by
  induction l with
  | nil => simp [chargeReservation, heldTotal_nil]
  | cons r l ih =>
    unfold chargeReservation at *
    simp only [List.map_cons, heldTotal_cons]
    split_ifs <;> simp_all; omega

theorem Keeps.fill (h : Keeps s t) (b mass : Nat) (ps : List Piece) :
    Keeps s (Sys2Proof.Machine.fill t b mass ps).result.1 := by
  unfold Sys2Proof.Machine.fill
  split
  · exact h
  · next v hv =>
    by_cases hm : mass = 0
    · rw [if_pos hm]; exact h
    · rw [if_neg hm]
      refine h.posting (Stands.rfl' _) (fun _ => le_rfl) (fun hs => ?_) _ _ _ _
      have := hs b v hv
      simp only; omega

theorem Keeps.draw (h : Keeps s t) (b x : Nat) (id : Option Nat) :
    Keeps s (Sys2Proof.Machine.draw t b x id).result.1 := by
  unfold Sys2Proof.Machine.draw
  split
  · exact h
  · next v hv =>
    refine h.posting (chargeReservation_stands _ id b x) (fun c => chargeReservation_held _ id b x c) (fun hs => ?_) _ _ _ _
    have := hs b v hv
    simp only; omega

theorem Keeps.countBin (h : Keeps s t) (b mass tag : Nat) (hm : ∀ v, t.bin b = some v → mass ≤ v.cfg.capacity) :
    Keeps s (Sys2Proof.Machine.countBin t b mass tag).1 := by
  unfold Sys2Proof.Machine.countBin
  split
  · exact h
  · next v hv =>
    refine h.posting (Stands.rfl' _) (fun _ => le_rfl) (fun hs => ?_) _ _ _ _
    exact ⟨hm v hv, (hs b v hv).2⟩

theorem Keeps.highCorrection (h : Keeps s t) (b : Nat) : Keeps s (Sys2Proof.Machine.highCorrection t b).1 := by
  unfold Sys2Proof.Machine.highCorrection
  split
  · exact h
  · next v hv =>
    by_cases hm : v.onHand < v.cfg.highMark
    · rw [if_pos hm]
      refine h.posting (Stands.rfl' _) (fun _ => le_rfl) (fun hs => ?_) _ _ _ _
      exact ⟨(hs b v hv).2, (hs b v hv).2⟩
    · rw [if_neg hm]; exact h

theorem Keeps.writeOff (h : Keeps s t) (b : Nat) : Keeps s (Sys2Proof.Machine.writeOff t b).1 := by
  unfold Sys2Proof.Machine.writeOff
  split
  · exact h
  · next v hv =>
    refine h.posting (Stands.rfl' _) (fun _ => le_rfl) (fun hs => ?_) _ _ _ _
    exact ⟨Nat.zero_le _, (hs b v hv).2⟩

/-! ### Creation -/

/-- The number a creation tries first. -/
def firstTry (n : Nat) : Nat := if n = 0 ∨ max16 < n then 1 else n

theorem freshId_spec (live : List Nat) : ∀ fuel n,
    freshId live fuel n ∉ live ∨ ∀ i, i < fuel → (firstTry n - 1 + i) % 65535 + 1 ∈ live := by
  intro fuel
  induction fuel with
  | zero => exact fun n => .inr fun i hi => by omega
  | succ fuel ih =>
    intro n
    have h1 : 1 ≤ firstTry n ∧ firstTry n ≤ 65535 := by unfold firstTry; simp only [max16]; split_ifs <;> omega
    have h2 : firstTry (firstTry n + 1) - 1 = firstTry n % 65535 := by
      generalize firstTry n = m at h1
      have hm : max16 = 65535 := rfl
      unfold firstTry
      by_cases h : m + 1 = 0 ∨ max16 < m + 1
      · rw [if_pos h]; omega
      · rw [if_neg h]; omega
    have hstep : freshId live (fuel + 1) n = if live.contains (firstTry n) then freshId live fuel (firstTry n + 1) else firstTry n := rfl
    rw [hstep]
    by_cases hc : live.contains (firstTry n) = true
    · rw [if_pos hc]
      rcases ih (firstTry n + 1) with h | h
      · exact .inl h
      · refine .inr fun i hi => ?_
        rcases Nat.eq_zero_or_pos i with rfl | hp
        · have : (firstTry n - 1 + 0) % 65535 + 1 = firstTry n := by omega
          rw [this]; simpa using hc
        · have := h (i - 1) (by omega)
          rw [h2] at this
          have e : (firstTry n % 65535 + (i - 1)) % 65535 = (firstTry n - 1 + i) % 65535 := by omega
          rwa [e] at this
    · rw [if_neg hc]; exact .inl (by simpa using hc)

/-- With fewer live ids than tries, a creation takes an id that none has. -/
theorem freshId_fresh {live : List Nat} {fuel n : Nat} (h : live.length < fuel) (hf : fuel ≤ 65535) :
    freshId live fuel n ∉ live := by
  rcases freshId_spec live fuel n with h1 | h1
  · exact h1
  · exfalso
    have hsub : ((List.range fuel).map (fun i => (firstTry n - 1 + i) % 65535 + 1)) ⊆ live := by
      intro x hx
      simp only [List.mem_map, List.mem_range] at hx
      obtain ⟨i, hi, rfl⟩ := hx
      exact h1 i hi
    have hnd : ((List.range fuel).map (fun i => (firstTry n - 1 + i) % 65535 + 1)).Nodup := by
      refine List.Nodup.map_on (fun i hi j hj hij => ?_) List.nodup_range
      simp only [List.mem_range] at hi hj
      omega
    have := (List.subperm_of_subset hnd hsub).length_le
    simp at this
    omega

theorem Keeps.createOne (h : Keeps s t) (b : Nat) (k : Holder) (wanted : Nat) (hb : (t.bin b).isSome = true)
    (hn : t.inv.reservations.length < Config.reservationCap) : Keeps s (Sys2Proof.Machine.createOne t b k wanted).1 := by
  unfold Sys2Proof.Machine.createOne
  simp only
  refine h.setInv _ (fun hl => ⟨fun r hr => ?_, ?_, ?_, fun c v hv => ?_⟩) (fun hs => hs)
  · rcases List.mem_append.1 hr with hr | hr
    · exact hl.1 r hr
    · simp only [List.mem_singleton] at hr; subst hr
      exact ⟨hb, Nat.min_le_left _ _⟩
  · simp only [List.map_append, List.map_cons, List.map_nil]
    refine List.nodup_append.2 ⟨hl.2.1, List.nodup_singleton _, fun x hx y hy => ?_⟩
    simp only [List.mem_singleton] at hy; subst hy
    rintro rfl
    refine freshId_fresh ?_ ?_ hx <;> simp [Config.reservationCap] at hn ⊢
    omega
  · simp only [List.length_append, List.length_singleton]; omega
  · simp only [heldTotal_append, heldTotal_cons, heldTotal_nil]
    have h1 := hl.2.2.2 c v hv
    split_ifs with hc
    · subst hc
      have : t.freeMass b = v.onHand - heldTotal t.inv.reservations b := by
        have hv' : t.bin b = some v := hv
        simp [State.freeMass, hv']
      omega
    · omega

theorem Keeps.createAll {claims : List (Nat × Holder × Nat)} : ∀ {s t : State}, Keeps s t →
    (∀ c ∈ claims, (t.bin c.1).isSome = true) → t.inv.reservations.length + claims.length ≤ Config.reservationCap →
    Keeps s (Sys2Proof.Machine.createAll t claims).1 := by
  induction claims with
  | nil => exact fun h _ _ => h
  | cons c rest ih =>
    obtain ⟨b, k, w⟩ := c
    intro s t h hb hn
    simp only [Sys2Proof.Machine.createAll]
    refine ih (h.createOne b k w (hb _ List.mem_cons_self) (by simp at hn; omega)) (fun c hc => hb c (List.mem_cons_of_mem _ hc)) ?_
    simp only [Sys2Proof.Machine.createOne, State.setInv_inv, List.length_append, List.length_nil, List.length_cons] at hn ⊢
    omega

theorem claimRefusal_none {claims : List (Nat × Holder × Nat)} (h : claimRefusal s claims = none) :
    (∀ c ∈ claims, (s.bin c.1).isSome = true) ∧ s.inv.reservations.length + claims.length ≤ Config.reservationCap := by
  unfold claimRefusal at h
  split_ifs at h with h1 h2 h3
  refine ⟨fun c hc => ?_, by omega⟩
  simp only [List.any_eq_true, not_exists, not_and] at h1
  have := h1 c hc
  cases hb : s.bin c.1 <;> simp_all

end Sys2Proof.Machine
end

