-- ==== Sys2Proof/Laws/Transfers.lean ====
section
/-! SUPPORT. The Route Arbiter's operations keep what `Keeps` lists: no transfer comes to life in a Line Stop, and no resource comes to
be held twice. -/

namespace Sys2Proof.Machine

variable {s t : State}

/-! ### What leaves the arbiter alone -/

theorem foldl_raise_arb {α : Type} (f : α → Event) (l : List α) : ∀ u : State, (l.foldl (fun u x => u.raise (f x)) u).arb = u.arb := by
  induction l with
  | nil => exact fun _ => rfl
  | cons x l ih => exact fun u => ih _

theorem topUp_arb (s : State) (b : Nat) : (topUp s b).1.arb = s.arb :=
  foldl_raise_arb (fun id => Event.reservationFilled id b) _ _

theorem markEvents_arb (s : State) (b before : Nat) (cause : LowCause) (clamped : Bool) :
    (markEvents s b before cause clamped).arb = s.arb := by
  unfold markEvents
  split
  · rfl
  · simp only; split_ifs <;> rfl

theorem finishPosting_arb (s : State) (b before : Nat) (topping : Bool) (cause : LowCause) (clamped : Bool) :
    (finishPosting s b before topping cause clamped).1.arb = s.arb := by
  unfold finishPosting
  split
  · rfl
  · simp only [markEvents_arb]
    split
    · exact topUp_arb _ _
    · rfl

theorem highCorrection_arb (s : State) (b : Nat) : (highCorrection s b).1.arb = s.arb := by
  unfold highCorrection
  split
  · rfl
  · split
    · exact finishPosting_arb _ _ _ _ _ _
    · rfl

/-! ### Tables of transfers -/

/-- The arbiter may take any form that keeps the Line Stop, and the two bounds. -/
theorem Keeps.setArb (h : Keeps s t) (a : Arbiter) (hs : a.stop = t.arb.stop)
    (hw : t.stopped = true → t.arb.StopOk → a.StopOk) (hr : t.arb.ResourcesOk → a.ResourcesOk) : Keeps s (t.setArb a) := by
  refine h.trans ⟨rfl, rfl, rfl, rfl, rfl, id, id, id, hs, fun ho => ?_, hr, id⟩
  by_cases hst : t.stopped = true
  · exact hw hst ho
  · intro hi
    rw [State.setArb_arb, hs] at hi
    exact absurd hi hst

theorem resources_set {a : Arbiter} {slot : Nat} {x : Transfer} (h : a.ResourcesOk)
    (hx : ∀ n ∈ x.held, (∃ old, Table.get a.transfers slot = some old ∧ n ∈ old.held) ∨ ∀ e ∈ a.transfers, n ∉ e.2.held)
    (w : List Nat) : Arbiter.ResourcesOk { a with transfers := Table.set a.transfers slot x, waiting := w } := by
  intro e he f hf hef n hn hm
  have key : ∀ f ∈ a.transfers, slot ≠ f.1 → n ∈ x.held → n ∈ f.2.held → False := by
    intro f hf hs hn hm
    rcases hx n hn with ⟨old, ho, hold⟩ | hfree
    · exact h _ (Table.mem_of_get ho) f hf hs n hold hm
    · exact hfree f hf hm
  rcases Table.mem_set he with rfl | he <;> rcases Table.mem_set hf with rfl | hf
  · exact hef rfl
  · exact key f hf hef hn hm
  · exact key e he (Ne.symm hef) hm hn
  · exact h e he f hf hef n hn hm

theorem resources_sub {a b : Arbiter} (h : a.ResourcesOk) (hs : ∀ e ∈ b.transfers, e ∈ a.transfers) : b.ResourcesOk :=
  fun e he f hf => h e (hs e he) f (hs f hf)

theorem stopOk_sub {a b : Arbiter} (h : a.StopOk) (hs : b.stop = a.stop) (hw : a.waiting = [] → b.waiting = [])
    (ht : ∀ e ∈ b.transfers, e ∈ a.transfers) : b.StopOk := by
  intro hi
  rw [hs] at hi
  exact ⟨hw (h hi).1, fun e he => (h hi).2 e (ht e he)⟩

theorem Keeps.removeTransfer (h : Keeps s t) (slot : Nat) : Keeps s (Sys2Proof.Machine.removeTransfer t slot) :=
  h.setArb _ rfl (fun _ ho => stopOk_sub ho rfl (fun hw => by simp [hw]) fun _ he => (Table.mem_del he).1)
    fun hr => resources_sub hr fun _ he => (Table.mem_del he).1

theorem Keeps.dropOutputs (h : Keeps s t) (x : Transfer) : Keeps s (Sys2Proof.Machine.dropOutputs t x) :=
  (h.trans (Keeps.foldl (fun u (leg : Leg) => (Keeps.refl u).askFeeder leg.bin 0) _ (Keeps.refl t))).askAll _ _

theorem Keeps.endTransfer (h : Keeps s t) (o : Owner) : Keeps s (Sys2Proof.Machine.endTransfer t o).1 := by
  unfold Sys2Proof.Machine.endTransfer
  split
  · exact h
  · exact (h.dropOutputs _).removeTransfer _

theorem foldResult_arb {α : Type} {f : α → State → Result} (hf : ∀ x u, (f x u).1.arb = u.arb) (l : List α) :
    ∀ r : Result, (l.foldl (fun r x => r.andThen (fun u => f x u)) r).1.arb = r.1.arb := by
  induction l with
  | nil => exact fun _ => rfl
  | cons x l ih => exact fun r => (ih _).trans (hf x r.1)

theorem Keeps.enterFlowing (h : Keeps s t) (slot : Nat) (x : Transfer)
    (hw : t.stopped = true → ∃ e ∈ t.arb.transfers, e.2.state ≠ .aborted)
    (hx : ∀ n ∈ x.held, (∃ old, Table.get t.arb.transfers slot = some old ∧ n ∈ old.held) ∨
      ∀ e ∈ t.arb.transfers, n ∉ e.2.held) : Keeps s (Sys2Proof.Machine.enterFlowing t slot x).1 := by
  unfold Sys2Proof.Machine.enterFlowing
  have key : Keeps s (putTransfer t slot { x with state := .flowing, timer := none }) :=
    h.setArb _ rfl (fun hst ho => by
      obtain ⟨e, he, hne⟩ := hw hst
      exact absurd ((ho hst).2 e he) hne) fun hr => resources_set (x := { x with state := .flowing, timer := none }) hr hx _
  exact Keeps.foldResult (f := fun b u => Sys2Proof.Machine.highCorrection u b)
    (fun b u => (Keeps.refl u).highCorrection b) _ _ key

theorem enterFlowing_arb (s : State) (slot : Nat) (x : Transfer) : (enterFlowing s slot x).1.arb =
    { s.arb with transfers := Table.set s.arb.transfers slot { x with state := .flowing, timer := none } } :=
  foldResult_arb (f := fun b u => highCorrection u b) (fun b u => highCorrection_arb u b) _ _

/-! ### Grants -/

theorem grantable_free {s : State} {x : Transfer} (h : grantable s x = true) :
    ∀ n ∈ s.legResources x.legs, ∀ e ∈ s.arb.transfers, n ∉ e.2.held := by
  intro n hn e he hm
  unfold grantable State.resourceHeld at h
  simp only [List.all_eq_true, Bool.not_eq_true', List.any_eq_false] at h
  exact h n hn e he (by simpa using hm)

theorem stopped_of_arb {u : State} (h : u.arb.stop = t.arb.stop) : u.stopped = t.stopped := by
  unfold State.stopped; rw [h]

theorem Keeps.setArbFree (h : Keeps s t) (a : Arbiter) (hs : a.stop = t.arb.stop) (hst : t.stopped = false)
    (hr : t.arb.ResourcesOk → a.ResourcesOk) : Keeps s (t.setArb a) :=
  h.setArb a hs (fun h1 => by simp [hst] at h1) hr

theorem Keeps.grant (h : Keeps s t) (slot : Nat) (x : Transfer) (hst : t.stopped = false)
    (hg : grantable t x = true) : Keeps s (Sys2Proof.Machine.grant t slot x).1 := by
  unfold Sys2Proof.Machine.grant
  simp only
  have hm : Keeps s (t.setArb { t.arb with waiting := t.arb.waiting.erase slot }) :=
    h.setArbFree _ rfl hst fun hr => resources_sub hr fun _ he => he
  split
  · exact hm.enterFlowing slot _ (fun h1 => by simp [State.stopped] at h1 hst; simp [hst] at h1)
      (fun n hn => .inr (grantable_free hg n hn))
  · exact hm.setArbFree _ rfl hst fun hr => resources_set hr (fun n hn => .inr (grantable_free hg n hn)) _

theorem Keeps.grantScanOver (l : List Nat) : ∀ {s t : State}, Keeps s t → t.stopped = false →
    Keeps s (Sys2Proof.Machine.grantScanOver l t).1 := by
  induction l with
  | nil => exact fun h _ => h
  | cons slot l ih =>
    intro s t h hst
    unfold Sys2Proof.Machine.grantScanOver
    split
    · exact ih h hst
    · next x _ =>
      split
      · next hg =>
        have hk := (Keeps.refl t).grant slot x hst hg
        exact ih (h.trans hk) ((stopped_of_arb hk.stop).trans hst)
      · exact ih h hst

theorem Keeps.grantScan (h : Keeps s t) : Keeps s (Sys2Proof.Machine.grantScan t).1 := by
  unfold Sys2Proof.Machine.grantScan
  split
  · exact h
  · next hst => exact Keeps.grantScanOver _ h (by simpa using hst)

theorem transferRefusal_stopped {o : Owner} {legs : List Leg} (h : transferRefusal t o legs = none) : t.stopped = false := by
  unfold transferRefusal at h
  split at h
  · cases h
  · next hst => simpa using hst

theorem Keeps.openTransfer (h : Keeps s t) (o : Owner) (legs : List Leg) (gates : List Role) (hst : t.stopped = false) :
    Keeps s (Sys2Proof.Machine.openTransfer t o legs gates).1 := by
  have tail : ∀ u, Keeps t u → Keeps s (if grantable (u.setArb { u.arb with
        transfers := Table.set u.arb.transfers (freeSlot u) ⟨o, legs, gates, .waiting, [], none, false, none⟩
        waiting := u.arb.waiting ++ [freeSlot u] }) ⟨o, legs, gates, .waiting, [], none, false, none⟩ = true then
      Sys2Proof.Machine.grant (u.setArb { u.arb with
        transfers := Table.set u.arb.transfers (freeSlot u) ⟨o, legs, gates, .waiting, [], none, false, none⟩
        waiting := u.arb.waiting ++ [freeSlot u] }) (freeSlot u) ⟨o, legs, gates, .waiting, [], none, false, none⟩
      else (u.setArb { u.arb with
        transfers := Table.set u.arb.transfers (freeSlot u) ⟨o, legs, gates, .waiting, [], none, false, none⟩
        waiting := u.arb.waiting ++ [freeSlot u] }).done).1 := by
    intro u hk
    have hsu : u.stopped = false := (stopped_of_arb hk.stop).trans hst
    have h3 : Keeps t (u.setArb { u.arb with
        transfers := Table.set u.arb.transfers (freeSlot u) ⟨o, legs, gates, .waiting, [], none, false, none⟩
        waiting := u.arb.waiting ++ [freeSlot u] }) :=
      hk.setArbFree _ rfl hsu fun hr => resources_set hr (fun n hn => by simp at hn) _
    split
    · next hg => exact h.trans (h3.grant _ _ hsu hg)
    · exact h.trans h3
  unfold Sys2Proof.Machine.openTransfer
  rcases t.transferOf o with _ | ⟨slot, x⟩
  · exact tail t (Keeps.refl t)
  · exact tail _ ((Keeps.refl t).removeTransfer slot)

theorem Keeps.judgeTransfer (h : Keeps s t) (slot : Nat) : Keeps s (Sys2Proof.Machine.judgeTransfer t slot).1 := by
  unfold Sys2Proof.Machine.judgeTransfer
  split
  · exact h
  · next x hx =>
    have hmem := Table.mem_of_get hx
    split
    · next hfl =>
      split
      · unfold abortTransfer
        have hd := (Keeps.refl t).dropOutputs x
        refine h.trans (hd.trans ((Keeps.refl _).setArb _ rfl (fun hst ho => ?_) fun hr =>
          resources_set hr (fun n hn => by simp at hn) _))
        intro hi
        refine ⟨(ho hi).1, fun e he => ?_⟩
        rcases Table.mem_set he with rfl | he
        · rfl
        · exact (ho hi).2 e he
      · exact h
    · next hpw =>
      split
      · exact h.enterFlowing slot x (fun _ => ⟨_, hmem, by rw [hpw]; decide⟩)
          (fun n hn => .inl ⟨x, hx, hn⟩)
      · exact h
    · exact h

theorem Keeps.permitExpiry (h : Keeps s t) (slot : Nat) : Keeps s (Sys2Proof.Machine.permitExpiry t slot).1 := by
  unfold Sys2Proof.Machine.permitExpiry
  split
  · exact h
  · next x hx =>
    split
    · next hc =>
      refine h.setArb _ rfl (fun hst ho => ?_) fun hr =>
        resources_set (x := { x with timer := none, expired := true }) hr (fun n hn => .inl ⟨x, hx, hn⟩) _
      have := (ho hst).2 _ (Table.mem_of_get hx)
      simp only at this
      rw [this] at hc
      exact absurd hc.1 (by decide)
    · exact h

end Sys2Proof.Machine
end

