-- ==== Sys2Proof/Laws/Tasks.lean ====
section
/-! SUPPORT. Every operation of every block, every task, and so everything that follows from a command, keeps what `Keeps`
lists. -/

set_option linter.unusedTactic false
set_option linter.unreachableTactic false

namespace Sys2Proof.Machine

-- The proofs are checked one after another: checked side by side, their threads would take too much memory in one file.
set_option Elab.async false

variable {s t : State}

/-! ### Weigh.lean -/

theorem Keeps.autoZero (h : Keeps s t) (sc : Scale) :
    Keeps s (Sys2Proof.Machine.autoZero t sc) := by
  unfold Sys2Proof.Machine.autoZero
  try dsimp only [State.done, Result.andThen]
  repeat' split
  all_goals try dsimp only [State.done, Result.andThen]
  all_goals repeat' first
    | exact h
    | with_reducible apply Keeps.setChan

theorem Keeps.askDoseFeeder (h : Keeps s t) (o : DoseOrder) (value : Nat) :
    Keeps s (Sys2Proof.Machine.askDoseFeeder t o value) := by
  unfold Sys2Proof.Machine.askDoseFeeder
  try dsimp only [State.done, Result.andThen]
  repeat' split
  all_goals try dsimp only [State.done, Result.andThen]
  all_goals repeat' first
    | exact h
    | with_reducible apply Keeps.askFeeder

theorem Keeps.putDose (h : Keeps s t) (sc : Scale) (d : OpenDose) :
    Keeps s (Sys2Proof.Machine.putDose t sc d) := by
  unfold Sys2Proof.Machine.putDose
  try dsimp only [State.done, Result.andThen]
  all_goals repeat' first
    | exact h
    | with_reducible apply Keeps.setChan

theorem Keeps.adaptInflight (h : Keeps s t) (sc : Scale) (d : OpenDose) (actual : Int) (settled : Option Settled) :
    Keeps s (Sys2Proof.Machine.adaptInflight t sc d actual settled) := by
  unfold Sys2Proof.Machine.adaptInflight
  dsimp only
  split
  · exact h
  · split
    · exact h.modBin _ _ (fun _ => rfl) (fun _ => rfl)
    · exact h

theorem Keeps.doseDraw (h : Keeps s t) (d : OpenDose) (actual : Int) :
    Keeps s (Sys2Proof.Machine.doseDraw t d actual).result.1 := by
  unfold Sys2Proof.Machine.doseDraw
  try dsimp only [State.done, Result.andThen]
  repeat' split
  all_goals try dsimp only [State.done, Result.andThen]
  all_goals repeat' first
    | exact h
    | with_reducible apply Keeps.draw

theorem Keeps.endDose (h : Keeps s t) (sc : Scale) (d : OpenDose) (ending : DoseEnding) (actual : Int) (settled : Option Settled) :
    Keeps s (Sys2Proof.Machine.endDose t sc d ending actual settled).1 := by
  unfold Sys2Proof.Machine.endDose
  try dsimp only [State.done, Result.andThen]
  repeat' split
  all_goals try dsimp only [State.done, Result.andThen]
  all_goals repeat' first
    | exact h
    | with_reducible apply Keeps.doseDraw | with_reducible apply Keeps.adaptInflight | with_reducible apply
    Keeps.askDoseFeeder | with_reducible apply Keeps.setChan

theorem Keeps.endOpenDose (h : Keeps s t) (sc : Scale) (ending : DoseEnding) :
    Keeps s (Sys2Proof.Machine.endOpenDose t sc ending).1 := by
  unfold Sys2Proof.Machine.endOpenDose
  try dsimp only [State.done, Result.andThen]
  repeat' split
  all_goals try dsimp only [State.done, Result.andThen]
  all_goals repeat' first
    | exact h
    | with_reducible apply Keeps.endDose

theorem Keeps.enterSettling (h : Keeps s t) (sc : Scale) (d : OpenDose) :
    Keeps s (Sys2Proof.Machine.enterSettling t sc d).1 := by
  unfold Sys2Proof.Machine.enterSettling
  try dsimp only [State.done, Result.andThen]
  all_goals repeat' first
    | exact h
    | with_reducible apply Keeps.putDose | with_reducible apply Keeps.askDoseFeeder

theorem Keeps.feedOn (h : Keeps s t) (sc : Scale) (d : OpenDose) (state : DoseState) (speed : Nat) (timer : Option Tenths) (first : Option Int) :
    Keeps s (Sys2Proof.Machine.feedOn t sc d state speed timer first).1 := by
  unfold Sys2Proof.Machine.feedOn
  try dsimp only [State.done, Result.andThen]
  all_goals repeat' first
    | exact h
    | with_reducible apply Keeps.putDose | with_reducible apply Keeps.askDoseFeeder

theorem Keeps.raiseHandWait (h : Keeps s t) (d : OpenDose) :
    Keeps s (Sys2Proof.Machine.raiseHandWait t d) := by
  unfold Sys2Proof.Machine.raiseHandWait
  try dsimp only [State.done, Result.andThen]
  repeat' split
  all_goals try dsimp only [State.done, Result.andThen]
  all_goals repeat' first
    | exact h
    | with_reducible apply Keeps.raise

theorem Keeps.takeTare (h : Keeps s t) (sc : Scale) (d : OpenDose) (tare : Int) (first : Option Int) :
    Keeps s (Sys2Proof.Machine.takeTare t sc d tare first).1 := by
  unfold Sys2Proof.Machine.takeTare
  try dsimp only [State.done, Result.andThen]
  repeat' split
  all_goals try dsimp only [State.done, Result.andThen]
  all_goals repeat' first
    | exact h
    | with_reducible apply Keeps.raiseHandWait | with_reducible apply Keeps.feedOn | with_reducible apply
    Keeps.enterSettling | with_reducible apply Keeps.putDose | with_reducible apply Keeps.raise

theorem Keeps.judgeDose (h : Keeps s t) (sc : Scale) (d : OpenDose) (actual : Int) (mark : Settled) (first : Option Int) :
    Keeps s (Sys2Proof.Machine.judgeDose t sc d actual mark first).1 := by
  unfold Sys2Proof.Machine.judgeDose
  try dsimp only [State.done, Result.andThen]
  repeat' split
  all_goals try dsimp only [State.done, Result.andThen]
  all_goals repeat' first
    | exact h
    | with_reducible apply Keeps.feedOn | with_reducible apply Keeps.endDose

theorem Keeps.stallWatch (h : Keeps s t) (sc : Scale) (d : OpenDose) (n : Int) :
    Keeps s (Sys2Proof.Machine.stallWatch t sc d n).1 := by
  unfold Sys2Proof.Machine.stallWatch
  try dsimp only [State.done, Result.andThen]
  repeat' split
  all_goals try dsimp only [State.done, Result.andThen]
  all_goals repeat' first
    | exact h
    | with_reducible apply Keeps.endDose | with_reducible apply Keeps.putDose

theorem Keeps.doseSample (h : Keeps s t) (sc : Scale) (d : OpenDose) (f : Int) :
    Keeps s (Sys2Proof.Machine.doseSample t sc d f).1 := by
  unfold Sys2Proof.Machine.doseSample
  try dsimp only [State.done, Result.andThen]
  repeat' split
  all_goals try dsimp only [State.done, Result.andThen]
  all_goals repeat' first
    | exact h
    | with_reducible apply Keeps.stallWatch | with_reducible apply Keeps.judgeDose | with_reducible apply
    Keeps.takeTare | with_reducible apply Keeps.enterSettling | with_reducible apply Keeps.askDoseFeeder

theorem Keeps.takeSample (h : Keeps s t) (sc : Scale) (count : Int) (valid : Bool) :
    Keeps s (Sys2Proof.Machine.takeSample t sc count valid).1 := by
  unfold Sys2Proof.Machine.takeSample
  try dsimp only [State.done, Result.andThen]
  repeat' split
  all_goals try dsimp only [State.done, Result.andThen]
  all_goals repeat' first
    | exact h
    | with_reducible apply Keeps.doseSample | with_reducible apply Keeps.endDose | with_reducible apply
    Keeps.setChan | with_reducible apply Keeps.raise

theorem Keeps.presentDose (h : Keeps s t) (sc : Scale) (o : DoseOrder) :
    Keeps s (Sys2Proof.Machine.presentDose t sc o).result.1 := by
  unfold Sys2Proof.Machine.presentDose
  try dsimp only [State.done, Result.andThen]
  repeat' split
  all_goals try dsimp only [State.done, Result.andThen]
  all_goals repeat' first
    | exact h
    | with_reducible apply Keeps.setChan

theorem Keeps.tareExpiry (h : Keeps s t) (sc : Scale) :
    Keeps s (Sys2Proof.Machine.tareExpiry t sc).1 := by
  unfold Sys2Proof.Machine.tareExpiry
  try dsimp only [State.done, Result.andThen]
  repeat' split
  all_goals try dsimp only [State.done, Result.andThen]
  all_goals repeat' first
    | exact h
    | with_reducible apply Keeps.takeTare

theorem Keeps.settleExpiry (h : Keeps s t) (sc : Scale) :
    Keeps s (Sys2Proof.Machine.settleExpiry t sc).1 := by
  unfold Sys2Proof.Machine.settleExpiry
  try dsimp only [State.done, Result.andThen]
  repeat' split
  all_goals try dsimp only [State.done, Result.andThen]
  all_goals repeat' first
    | exact h
    | with_reducible apply Keeps.judgeDose

theorem Keeps.jogExpiry (h : Keeps s t) (sc : Scale) :
    Keeps s (Sys2Proof.Machine.jogExpiry t sc).1 := by
  unfold Sys2Proof.Machine.jogExpiry
  try dsimp only [State.done, Result.andThen]
  repeat' split
  all_goals try dsimp only [State.done, Result.andThen]
  all_goals repeat' first
    | exact h
    | with_reducible apply Keeps.enterSettling

theorem Keeps.handReady (h : Keeps s t) :
    Keeps s (Sys2Proof.Machine.handReady t).1 := by
  unfold Sys2Proof.Machine.handReady
  try dsimp only [State.done, Result.andThen]
  repeat' split
  all_goals try dsimp only [State.done, Result.andThen]
  all_goals repeat' first
    | exact h
    | with_reducible apply Keeps.enterSettling

/-! ### Arbiter.lean -/

theorem Keeps.sampleInputs (h : Keeps s t) (levels : Nat) : Keeps s (Sys2Proof.Machine.sampleInputs t levels) :=
  h.trans (Keeps.foldl (fun u _ => (Keeps.refl u).setPin _ _) _ (Keeps.refl t))

theorem Keeps.sampleProbes (h : Keeps s t) (old : State) (b : Nat) : Keeps s (Sys2Proof.Machine.sampleProbes old t b).1 := by
  unfold Sys2Proof.Machine.sampleProbes
  split
  · exact h
  · next v hv =>
    have key : ∀ (w : Bin) (c1 c2 : Bool), w.onHand = v.onHand → w.cfg = v.cfg →
        Keeps s (if c2 = true then (if c1 = true then (t.setBin b w).offer (.highProbe b) else t.setBin b w).offer
          (.lowProbe b) else if c1 = true then (t.setBin b w).offer (.highProbe b) else t.setBin b w) := by
      intro w c1 c2 h1 h2
      have := h.touch (w := w) hv h1 (by rw [h2]) (by rw [h2])
      cases c1 <;> cases c2
      exacts [this, this.offer _, this.offer _, (this.offer _).offer _]
    refine key _ _ _ ?_ ?_ <;> rfl

theorem Keeps.offerEdges (h : Keeps s t) (old : State) : Keeps s (Sys2Proof.Machine.offerEdges old t) := by
  refine h.trans (Keeps.foldl (fun u n => ?_) _ (Keeps.refl t))
  split
  · split
    · exact (Keeps.refl u).offer _
    · exact Keeps.refl u
  · exact Keeps.refl u

--

theorem Keeps.offerPressFeedback (h : Keeps s t) (p : PressId) :
    Keeps s (Sys2Proof.Machine.offerPressFeedback t p) := by
  unfold Sys2Proof.Machine.offerPressFeedback
  try dsimp only [State.done, Result.andThen]
  repeat' split
  all_goals try dsimp only [State.done, Result.andThen]
  all_goals repeat' first
    | exact h
    | with_reducible apply Keeps.offer

theorem Keeps.offerMillFeedback (h : Keeps s t) :
    Keeps s (Sys2Proof.Machine.offerMillFeedback t) := by
  unfold Sys2Proof.Machine.offerMillFeedback
  try dsimp only [State.done, Result.andThen]
  repeat' split
  all_goals try dsimp only [State.done, Result.andThen]
  all_goals repeat' first
    | exact h
    | with_reducible apply Keeps.offer

theorem Keeps.offerMixerEmpty (h : Keeps s t) :
    Keeps s (Sys2Proof.Machine.offerMixerEmpty t) := by
  unfold Sys2Proof.Machine.offerMixerEmpty
  try dsimp only [State.done, Result.andThen]
  repeat' split
  all_goals try dsimp only [State.done, Result.andThen]
  all_goals repeat' first
    | exact h
    | with_reducible apply Keeps.offer

theorem Keeps.setAnalogPins (l : List Int) : ∀ (n : Nat) {s t : State}, Keeps s t →
    Keeps s (Sys2Proof.Machine.setAnalogPins n l t) := by
  induction l with
  | nil => exact fun _ _ _ h => h
  | cons p l ih => exact fun n _ _ h => ih (n + 1) (h.setAnalogPin n p)

--

theorem Keeps.highCover (h : Keeps s t) (b : Nat) : Keeps s (Sys2Proof.Machine.highCover t b).1 := by
  unfold Sys2Proof.Machine.highCover
  dsimp only
  have key : Keeps s (t.modBin b (fun v => { v with highCovered := some true })) :=
    h.modBin _ _ (fun _ => rfl) (fun _ => rfl)
  split
  · exact key.highCorrection _
  · exact key

theorem Keeps.lowUncover (h : Keeps s t) (b : Nat) : Keeps s (Sys2Proof.Machine.lowUncover t b).1 := by
  unfold Sys2Proof.Machine.lowUncover
  split
  · exact h
  · next v hv =>
    dsimp only
    have key : Keeps s (t.setBin b { v with lowCovered := some false }) := h.touch hv rfl rfl rfl
    split
    · split
      · exact key
      · exact key.draw _ _ _
    · split
      · exact key.writeOff _
      · exact key

/-! ### BatchLine.lean -/

theorem Keeps.putBatch (h : Keeps s t) (b : Batch) : Keeps s (t.putBatch b) := h.setLine _

theorem Keeps.dropBatch (h : Keeps s t) (n : Nat) : Keeps s (t.dropBatch n) := h.setLine _

theorem Keeps.enterDosing (h : Keeps s t) (b : Batch) :
    Keeps s (Sys2Proof.Machine.enterDosing t b).1 := by
  unfold Sys2Proof.Machine.enterDosing
  try dsimp only [State.done, Result.andThen]
  repeat' split
  all_goals try dsimp only [State.done, Result.andThen]
  all_goals repeat' first
    | exact h
    | with_reducible apply Keeps.putBatch | with_reducible apply Keeps.autoZero

theorem Keeps.selectOver (l : List Batch) : ∀ {s t : State}, Keeps s t → Keeps s (Sys2Proof.Machine.selectOver l t).1 := by
  induction l with
  | nil => exact fun h => h
  | cons b l ih =>
    intro s t h
    unfold Sys2Proof.Machine.selectOver
    repeat' split
    · exact h.enterDosing b
    · exact ih ((h.putBatch _).raise _)
    · exact ih h
    · exact ih h

theorem Keeps.startSelection (h : Keeps s t) : Keeps s (Sys2Proof.Machine.startSelection t).1 := by
  unfold Sys2Proof.Machine.startSelection
  split
  · exact h
  · exact Keeps.selectOver _ h

theorem Keeps.roomCheckOf (h : Keeps s t) (b : Batch) : Keeps s (Sys2Proof.Machine.roomCheckOf t b).1 := by
  unfold Sys2Proof.Machine.roomCheckOf
  split
  · split
    · exact h.putBatch _
    · dsimp only
      split
      · exact h.putBatch _
      · exact h.putBatch _
      · exact h
      · next hr => exact (h.putBatch _).openTransfer _ _ _ (transferRefusal_stopped (t := t) hr)
  · exact h

theorem Keeps.roomCheck (h : Keeps s t) :
    Keeps s (Sys2Proof.Machine.roomCheck t).1 := by
  unfold Sys2Proof.Machine.roomCheck
  try dsimp only [State.done, Result.andThen]
  repeat' split
  all_goals try dsimp only [State.done, Result.andThen]
  all_goals repeat' first
    | exact h
    | with_reducible apply Keeps.roomCheckOf

theorem Keeps.roomCheckAt (h : Keeps s t) (bin : Nat) :
    Keeps s (Sys2Proof.Machine.roomCheckAt t bin).1 := by
  unfold Sys2Proof.Machine.roomCheckAt
  try dsimp only [State.done, Result.andThen]
  repeat' split
  all_goals try dsimp only [State.done, Result.andThen]
  all_goals repeat' first
    | exact h
    | with_reducible apply Keeps.roomCheckOf

theorem Keeps.enterMixed (h : Keeps s t) (b : Batch) :
    Keeps s (Sys2Proof.Machine.enterMixed t b).1 := by
  unfold Sys2Proof.Machine.enterMixed
  try dsimp only [State.done, Result.andThen]
  all_goals repeat' first
    | exact h
    | with_reducible apply Keeps.roomCheck | with_reducible apply Keeps.putBatch

theorem Keeps.enterMixing (h : Keeps s t) (b : Batch) (left : Tenths) :
    Keeps s (Sys2Proof.Machine.enterMixing t b left).1 := by
  unfold Sys2Proof.Machine.enterMixing
  try dsimp only [State.done, Result.andThen]
  repeat' split
  all_goals try dsimp only [State.done, Result.andThen]
  all_goals repeat' first
    | exact h
    | with_reducible apply Keeps.enterMixed | with_reducible apply Keeps.putBatch

theorem Keeps.askGates (h : Keeps s t) (b : Batch) (on : Bool) :
    Keeps s (Sys2Proof.Machine.askGates t b on) := by
  unfold Sys2Proof.Machine.askGates
  try dsimp only [State.done, Result.andThen]
  repeat' split
  all_goals try dsimp only [State.done, Result.andThen]
  all_goals repeat' first
    | exact h
    | with_reducible apply Keeps.ask

theorem Keeps.enterDischarging (h : Keeps s t) (b : Batch) :
    Keeps s (Sys2Proof.Machine.enterDischarging t b).1 := by
  unfold Sys2Proof.Machine.enterDischarging
  try dsimp only [State.done, Result.andThen]
  all_goals repeat' first
    | exact h
    | with_reducible apply Keeps.askGates | with_reducible apply Keeps.putBatch | with_reducible apply Keeps.ask

theorem Keeps.tryDischarge (h : Keeps s t) :
    Keeps s (Sys2Proof.Machine.tryDischarge t).1 := by
  unfold Sys2Proof.Machine.tryDischarge
  try dsimp only [State.done, Result.andThen]
  repeat' split
  all_goals try dsimp only [State.done, Result.andThen]
  all_goals repeat' first
    | exact h
    | with_reducible apply Keeps.enterDischarging

theorem Keeps.judgeDischarge (h : Keeps s t) (sc : Scale) :
    Keeps s (Sys2Proof.Machine.judgeDischarge t sc).1 := by
  unfold Sys2Proof.Machine.judgeDischarge
  try dsimp only [State.done, Result.andThen]
  repeat' split
  all_goals try dsimp only [State.done, Result.andThen]
  all_goals repeat' first
    | exact h
    | with_reducible apply Keeps.enterMixing | with_reducible apply Keeps.startSelection | with_reducible apply
    Keeps.putBatch | with_reducible apply Keeps.ask

theorem Keeps.releaseFlowing (h : Keeps s t) :
    Keeps s (Sys2Proof.Machine.releaseFlowing t).1 := by
  unfold Sys2Proof.Machine.releaseFlowing
  try dsimp only [State.done, Result.andThen]
  repeat' split
  all_goals try dsimp only [State.done, Result.andThen]
  all_goals repeat' first
    | exact h
    | with_reducible apply Keeps.putBatch | with_reducible apply Keeps.ask

theorem Keeps.completeRelease (h : Keeps s t) (b : Batch) :
    Keeps s (Sys2Proof.Machine.completeRelease t b).1 := by
  unfold Sys2Proof.Machine.completeRelease
  try dsimp only [State.done, Result.andThen]
  all_goals repeat' first
    | exact h
    | with_reducible apply Keeps.tryDischarge | with_reducible apply Keeps.dropBatch | with_reducible apply
    Keeps.endTransfer | with_reducible apply Keeps.fill | with_reducible apply Keeps.ask | with_reducible apply
    Keeps.setLine | with_reducible apply Keeps.raise

theorem Keeps.finishRelease (h : Keeps s t) (n : Nat) : Keeps s (Sys2Proof.Machine.finishRelease t n).1 := by
  unfold Sys2Proof.Machine.finishRelease
  split
  · exact h
  · exact ((((h.fill _ _ _).setLine _).raise _).dropBatch _).ask _ _

theorem Keeps.holdMixer (h : Keeps s t) (b : Batch) (phase : BatchPhase) (reason : BatchReason) :
    Keeps s (Sys2Proof.Machine.holdMixer t b phase reason).1 := by
  unfold Sys2Proof.Machine.holdMixer
  try dsimp only [State.done, Result.andThen]
  all_goals repeat' first
    | exact h
    | with_reducible apply Keeps.putBatch | with_reducible apply Keeps.endTransfer | with_reducible apply
    Keeps.raise

theorem Keeps.callBatch (h : Keeps s t) (b : Batch) :
    Keeps s (Sys2Proof.Machine.callBatch t b) := by
  unfold Sys2Proof.Machine.callBatch
  try dsimp only [State.done, Result.andThen]
  repeat' split
  all_goals try dsimp only [State.done, Result.andThen]
  all_goals repeat' first
    | exact h
    | with_reducible apply Keeps.putBatch | with_reducible apply Keeps.raise

theorem Keeps.judgeWeighed (h : Keeps s t) (n : Nat) :
    Keeps s (Sys2Proof.Machine.judgeWeighed t n).1 := by
  unfold Sys2Proof.Machine.judgeWeighed
  try dsimp only [State.done, Result.andThen]
  repeat' split
  all_goals try dsimp only [State.done, Result.andThen]
  all_goals repeat' first
    | exact h
    | with_reducible apply Keeps.tryDischarge | with_reducible apply Keeps.putBatch

theorem Keeps.returnStep (h : Keeps s t) (n : Nat) (sc : Scale) :
    Keeps s (Sys2Proof.Machine.returnStep t n sc).1 := by
  unfold Sys2Proof.Machine.returnStep
  try dsimp only [State.done, Result.andThen]
  repeat' split
  all_goals try dsimp only [State.done, Result.andThen]
  all_goals repeat' first
    | exact h
    | with_reducible apply Keeps.putBatch | with_reducible apply Keeps.endTransfer | with_reducible apply
    Keeps.askAll

theorem Keeps.holdStep (h : Keeps s t) (n : Nat) (i : Nat) (reason : StepReason) :
    Keeps s (Sys2Proof.Machine.holdStep t n i reason).1 := by
  unfold Sys2Proof.Machine.holdStep
  try dsimp only [State.done, Result.andThen]
  repeat' split
  all_goals try dsimp only [State.done, Result.andThen]
  all_goals repeat' first
    | exact h
    | with_reducible apply Keeps.returnStep | with_reducible apply Keeps.putBatch | with_reducible apply Keeps.raise

theorem Keeps.presentStep (h : Keeps s t) (sc : Scale) :
    Keeps s (Sys2Proof.Machine.presentStep t sc).1 := by
  unfold Sys2Proof.Machine.presentStep
  try dsimp only [State.done, Result.andThen]
  repeat' split
  all_goals try dsimp only [State.done, Result.andThen]
  all_goals repeat' first
    | exact h
    | with_reducible apply Keeps.presentDose | with_reducible apply Keeps.askAll

theorem Keeps.takeStep (h : Keeps s t) (n : Nat) (sc : Scale) : Keeps s (Sys2Proof.Machine.takeStep t n sc).1 := by
  unfold Sys2Proof.Machine.takeStep
  split
  · exact h
  · split
    · split
      · exact h.judgeWeighed _
      · dsimp only
        split
        · exact (h.callBatch _).presentStep _
        · split
          · exact (h.callBatch _).holdStep _ _ _
          · next hr => exact (h.callBatch _).openTransfer _ _ _ (transferRefusal_stopped hr)
    · exact h

theorem Keeps.stepDoseEnded (h : Keeps s t) (n : Nat) (i : Nat) (rep : DoseReport) :
    Keeps s (Sys2Proof.Machine.stepDoseEnded t n i rep).1 := by
  unfold Sys2Proof.Machine.stepDoseEnded
  try dsimp only [State.done, Result.andThen]
  repeat' split
  all_goals try dsimp only [State.done, Result.andThen]
  all_goals repeat' first
    | exact h
    | with_reducible apply Keeps.askAll | with_reducible apply Keeps.endTransfer | with_reducible apply Keeps.putBatch

theorem Keeps.finishStep (h : Keeps s t) (n : Nat) (i : Nat) (ending : DoseEnding) :
    Keeps s (Sys2Proof.Machine.finishStep t n i ending).1 := by
  unfold Sys2Proof.Machine.finishStep
  try dsimp only [State.done, Result.andThen]
  repeat' split
  all_goals try dsimp only [State.done, Result.andThen]
  all_goals repeat' first
    | exact h
    | with_reducible apply Keeps.closeHeld | with_reducible apply Keeps.holdStep | with_reducible apply Keeps.putBatch

theorem Keeps.stepTransferFailed (h : Keeps s t) (sc : Scale) (reason : StepReason) :
    Keeps s (Sys2Proof.Machine.stepTransferFailed t sc reason).1 := by
  unfold Sys2Proof.Machine.stepTransferFailed
  try dsimp only [State.done, Result.andThen]
  repeat' split
  all_goals try dsimp only [State.done, Result.andThen]
  all_goals repeat' first
    | exact h
    | with_reducible apply Keeps.holdStep | with_reducible apply Keeps.endTransfer | with_reducible apply
    Keeps.askAll

theorem Keeps.leaveStepHold (h : Keeps s t) (n : Nat) :
    Keeps s (Sys2Proof.Machine.leaveStepHold t n).1 := by
  unfold Sys2Proof.Machine.leaveStepHold
  try dsimp only [State.done, Result.andThen]
  repeat' split
  all_goals try dsimp only [State.done, Result.andThen]
  all_goals repeat' first
    | exact h
    | with_reducible apply Keeps.takeStep | with_reducible apply Keeps.putBatch

theorem Keeps.releaseOldest (h : Keeps s t) :
    Keeps s (Sys2Proof.Machine.releaseOldest t).1 := by
  unfold Sys2Proof.Machine.releaseOldest
  try dsimp only [State.done, Result.andThen]
  repeat' split
  all_goals try dsimp only [State.done, Result.andThen]
  all_goals repeat' first
    | exact h
    | with_reducible apply Keeps.startSelection | with_reducible apply Keeps.putBatch

theorem Keeps.stopStep (h : Keeps s t) (n : Nat) (sc : Scale) :
    Keeps s (Sys2Proof.Machine.stopStep t n sc).1 := by
  unfold Sys2Proof.Machine.stopStep
  try dsimp only [State.done, Result.andThen]
  repeat' split
  all_goals try dsimp only [State.done, Result.andThen]
  all_goals repeat' first
    | exact h
    | with_reducible apply Keeps.holdStep | with_reducible apply Keeps.endTransfer | with_reducible apply
    Keeps.askAll

theorem Keeps.stopInMixer (h : Keeps s t) (b : Batch) (phase : BatchPhase) :
    Keeps s (Sys2Proof.Machine.stopInMixer t b phase).1 := by
  unfold Sys2Proof.Machine.stopInMixer
  try dsimp only [State.done, Result.andThen]
  all_goals repeat' first
    | exact h
    | with_reducible apply Keeps.putBatch | with_reducible apply Keeps.endTransfer | with_reducible apply
    Keeps.askAll | with_reducible apply Keeps.raise

theorem Keeps.stopSteps (h : Keeps s t) (n : Nat) :
    Keeps s ((Sys2Proof.Machine.stopStep t n .main).andThen (fun u => Sys2Proof.Machine.stopStep u n .micro)).1 := by
  have h1 := h.stopStep n .main
  revert h1
  generalize Sys2Proof.Machine.stopStep t n .main = r
  exact fun h1 => h1.stopStep n .micro
theorem Keeps.stopBatch (h : Keeps s t) (b : Batch) : Keeps s (Sys2Proof.Machine.stopBatch t b).1 := by
  unfold Sys2Proof.Machine.stopBatch
  split
  · exact h.stopSteps _
  · exact h.stopSteps _
  · exact h.stopInMixer _ _
  · exact h.stopInMixer _ _
  · split
    · exact h.stopInMixer _ _
    · exact h
  · exact h.stopInMixer _ _
  · exact h

theorem Keeps.stopBatches (h : Keeps s t) : Keeps s (Sys2Proof.Machine.stopBatches t).1 := by
  refine Keeps.foldResult (f := fun (b : Batch) u => match u.batch b.number with
    | some x => Sys2Proof.Machine.stopBatch u x
    | none => u.done) (fun b u => ?_) _ _ h
  split
  · exact (Keeps.refl u).stopBatch _
  · exact Keeps.refl u

/-! ### Mill.lean -/

theorem Keeps.putGrind (h : Keeps s t) (r : GrindRequest) : Keeps s (t.putGrind r) := h.setMill _

theorem Keeps.dropGrind (h : Keeps s t) (n : Nat) : Keeps s (t.dropGrind n) := h.setMill _

theorem Keeps.millFeedOff (h : Keeps s t) :
    Keeps s (Sys2Proof.Machine.millFeedOff t) := by
  unfold Sys2Proof.Machine.millFeedOff
  try dsimp only [State.done, Result.andThen]
  repeat' split
  all_goals try dsimp only [State.done, Result.andThen]
  all_goals repeat' first
    | exact h
    | with_reducible apply Keeps.askFeeder | with_reducible apply Keeps.setMill

theorem Keeps.millMotor (h : Keeps s t) (on : Bool) :
    Keeps s (Sys2Proof.Machine.millMotor t on) := by
  unfold Sys2Proof.Machine.millMotor
  try dsimp only [State.done, Result.andThen]
  repeat' split
  all_goals try dsimp only [State.done, Result.andThen]
  all_goals repeat' first
    | exact h
    | with_reducible apply Keeps.ask | with_reducible apply Keeps.setMill

theorem Keeps.raiseGrindDone (h : Keeps s t) (r : GrindRequest) :
    Keeps s (Sys2Proof.Machine.raiseGrindDone t r) := by
  unfold Sys2Proof.Machine.raiseGrindDone
  try dsimp only [State.done, Result.andThen]
  all_goals repeat' first
    | exact h
    | with_reducible apply Keeps.raise

theorem Keeps.millReturn (h : Keeps s t) :
    Keeps s (Sys2Proof.Machine.millReturn t) := by
  unfold Sys2Proof.Machine.millReturn
  try dsimp only [State.done, Result.andThen]
  repeat' split
  all_goals try dsimp only [State.done, Result.andThen]
  all_goals repeat' first
    | exact h
    | with_reducible apply Keeps.putGrind | with_reducible apply Keeps.setMill

theorem Keeps.holdMill (h : Keeps s t) (reason : MillReason) (motor : Bool) :
    Keeps s (Sys2Proof.Machine.holdMill t reason motor).1 := by
  unfold Sys2Proof.Machine.holdMill
  try dsimp only [State.done, Result.andThen]
  repeat' split
  all_goals try dsimp only [State.done, Result.andThen]
  all_goals repeat' first
    | exact h
    | with_reducible apply Keeps.millMotor | with_reducible apply Keeps.millFeedOff | with_reducible apply
    Keeps.endTransfer | with_reducible apply Keeps.setMill | with_reducible apply Keeps.raise

theorem Keeps.enterIdleRun (h : Keeps s t) :
    Keeps s (Sys2Proof.Machine.enterIdleRun t) := by
  unfold Sys2Proof.Machine.enterIdleRun
  try dsimp only [State.done, Result.andThen]
  all_goals repeat' first
    | exact h
    | with_reducible apply Keeps.setMill

theorem Keeps.enterStopping (h : Keeps s t) :
    Keeps s (Sys2Proof.Machine.enterStopping t) := by
  unfold Sys2Proof.Machine.enterStopping
  try dsimp only [State.done, Result.andThen]
  all_goals repeat' first
    | exact h
    | with_reducible apply Keeps.millMotor | with_reducible apply Keeps.setMill

theorem Keeps.drainEnd (h : Keeps s t) :
    Keeps s (Sys2Proof.Machine.drainEnd t).1 := by
  unfold Sys2Proof.Machine.drainEnd
  try dsimp only [State.done, Result.andThen]
  repeat' split
  all_goals try dsimp only [State.done, Result.andThen]
  all_goals repeat' first
    | exact h
    | with_reducible apply Keeps.enterStopping | with_reducible apply Keeps.setMill

theorem Keeps.enterDraining (h : Keeps s t) :
    Keeps s (Sys2Proof.Machine.enterDraining t).1 := by
  unfold Sys2Proof.Machine.enterDraining
  try dsimp only [State.done, Result.andThen]
  repeat' split
  all_goals try dsimp only [State.done, Result.andThen]
  all_goals repeat' first
    | exact h
    | with_reducible apply Keeps.drainEnd | with_reducible apply Keeps.setMill

theorem Keeps.warmEnd (h : Keeps s t) :
    Keeps s (Sys2Proof.Machine.warmEnd t).1 := by
  unfold Sys2Proof.Machine.warmEnd
  try dsimp only [State.done, Result.andThen]
  repeat' split
  all_goals try dsimp only [State.done, Result.andThen]
  all_goals repeat' first
    | exact h
    | with_reducible apply Keeps.setMill

theorem Keeps.millFound (h : Keeps s t) :
    Keeps s (Sys2Proof.Machine.millFound t).1 := by
  unfold Sys2Proof.Machine.millFound
  try dsimp only [State.done, Result.andThen]
  repeat' split
  all_goals try dsimp only [State.done, Result.andThen]
  all_goals repeat' first
    | exact h
    | with_reducible apply Keeps.warmEnd | with_reducible apply Keeps.setMill

theorem Keeps.enterStarting (h : Keeps s t) :
    Keeps s (Sys2Proof.Machine.enterStarting t).1 := by
  unfold Sys2Proof.Machine.enterStarting
  try dsimp only [State.done, Result.andThen]
  repeat' split
  all_goals try dsimp only [State.done, Result.andThen]
  all_goals repeat' first
    | exact h
    | with_reducible apply Keeps.millFound | with_reducible apply Keeps.millMotor | with_reducible apply
    Keeps.setMill

theorem Keeps.enterRunning (h : Keeps s t) : Keeps s (Sys2Proof.Machine.enterRunning t).1 := by
  unfold Sys2Proof.Machine.enterRunning
  split
  · exact h
  · dsimp only
    split
    · exact (h.setMill _).holdMill _ _
    · exact (h.setMill _).holdMill _ _
    · next hr => exact (h.setMill _).openTransfer _ _ _ (transferRefusal_stopped hr)

theorem Keeps.serveOver (l : List GrindRequest) : ∀ {s t : State}, Keeps s t → Keeps s (Sys2Proof.Machine.serveOver l t).1 := by
  induction l with
  | nil => exact fun h => h
  | cons b l ih =>
    intro s t h
    unfold Sys2Proof.Machine.serveOver
    repeat' split
    · exact ih ((h.putGrind _).raise _)
    · exact ih ((h.dropGrind _).raiseGrindDone _)
    · exact h
    · exact ih h

theorem Keeps.screenCheck (h : Keeps s t) :
    Keeps s (Sys2Proof.Machine.screenCheck t) := by
  unfold Sys2Proof.Machine.screenCheck
  try dsimp only [State.done, Result.andThen]
  repeat' split
  all_goals try dsimp only [State.done, Result.andThen]
  all_goals repeat' first
    | exact h
    | with_reducible apply Keeps.setMill | with_reducible apply Keeps.raise

theorem Keeps.takeGrind (h : Keeps s t) (r : GrindRequest) :
    Keeps s (Sys2Proof.Machine.takeGrind t r) := by
  unfold Sys2Proof.Machine.takeGrind
  try dsimp only [State.done, Result.andThen]
  all_goals repeat' first
    | exact h
    | with_reducible apply Keeps.putGrind | with_reducible apply Keeps.setMill

theorem Keeps.serving (h : Keeps s t) :
    Keeps s (Sys2Proof.Machine.serving t).1 := by
  unfold Sys2Proof.Machine.serving
  try dsimp only [State.done, Result.andThen]
  repeat' split
  all_goals try dsimp only [State.done, Result.andThen]
  all_goals repeat' first
    | exact h
    | with_reducible apply Keeps.takeGrind | with_reducible apply Keeps.screenCheck | with_reducible apply
    Keeps.serveOver | with_reducible apply Keeps.enterStarting

theorem Keeps.servingOrIdle (h : Keeps s t) :
    Keeps s (Sys2Proof.Machine.servingOrIdle t).1 := by
  unfold Sys2Proof.Machine.servingOrIdle
  try dsimp only [State.done, Result.andThen]
  repeat' split
  all_goals try dsimp only [State.done, Result.andThen]
  all_goals repeat' first
    | exact h
    | with_reducible apply Keeps.takeGrind | with_reducible apply Keeps.screenCheck | with_reducible apply
    Keeps.serveOver | with_reducible apply Keeps.enterIdleRun

theorem Keeps.completeGrind (h : Keeps s t) (r : GrindRequest) :
    Keeps s (Sys2Proof.Machine.completeGrind t r).1 := by
  unfold Sys2Proof.Machine.completeGrind
  try dsimp only [State.done, Result.andThen]
  all_goals repeat' first
    | exact h
    | with_reducible apply Keeps.millFeedOff | with_reducible apply Keeps.endTransfer

theorem Keeps.finishGrind (h : Keeps s t) (n : Nat) :
    Keeps s (Sys2Proof.Machine.finishGrind t n).1 := by
  unfold Sys2Proof.Machine.finishGrind
  try dsimp only [State.done, Result.andThen]
  repeat' split
  all_goals try dsimp only [State.done, Result.andThen]
  all_goals repeat' first
    | exact h
    | with_reducible apply Keeps.enterDraining | with_reducible apply Keeps.raiseGrindDone | with_reducible apply
    Keeps.dropGrind | with_reducible apply Keeps.setMill

theorem Keeps.millJudgePosting (h : Keeps s t) (b : Nat) :
    Keeps s (Sys2Proof.Machine.millJudgePosting t b).1 := by
  unfold Sys2Proof.Machine.millJudgePosting
  try dsimp only [State.done, Result.andThen]
  repeat' split
  all_goals try dsimp only [State.done, Result.andThen]
  all_goals repeat' first
    | exact h
    | with_reducible apply Keeps.completeGrind

theorem Keeps.millJudgeProbe (h : Keeps s t) (b : Nat) :
    Keeps s (Sys2Proof.Machine.millJudgeProbe t b).1 := by
  unfold Sys2Proof.Machine.millJudgeProbe
  try dsimp only [State.done, Result.andThen]
  repeat' split
  all_goals try dsimp only [State.done, Result.andThen]
  all_goals repeat' first
    | exact h
    | with_reducible apply Keeps.completeGrind

theorem Keeps.noFlow (h : Keeps s t) :
    Keeps s (Sys2Proof.Machine.noFlow t).1 := by
  unfold Sys2Proof.Machine.noFlow
  try dsimp only [State.done, Result.andThen]
  repeat' split
  all_goals try dsimp only [State.done, Result.andThen]
  all_goals repeat' first
    | exact h
    | with_reducible apply Keeps.millFeedOff | with_reducible apply Keeps.endTransfer

theorem Keeps.finishNoFlow (h : Keeps s t) (n : Nat) :
    Keeps s (Sys2Proof.Machine.finishNoFlow t n).1 := by
  unfold Sys2Proof.Machine.finishNoFlow
  try dsimp only [State.done, Result.andThen]
  repeat' split
  all_goals try dsimp only [State.done, Result.andThen]
  all_goals repeat' first
    | exact h
    | with_reducible apply Keeps.enterDraining | with_reducible apply Keeps.putGrind | with_reducible apply
    Keeps.setMill | with_reducible apply Keeps.raise

theorem Keeps.overload (h : Keeps s t) :
    Keeps s (Sys2Proof.Machine.overload t).1 := by
  unfold Sys2Proof.Machine.overload
  try dsimp only [State.done, Result.andThen]
  all_goals repeat' first
    | exact h
    | with_reducible apply Keeps.holdMill

theorem Keeps.millWatch (h : Keeps s t) :
    Keeps s (Sys2Proof.Machine.millWatch t).1 := by
  unfold Sys2Proof.Machine.millWatch
  try dsimp only [State.done, Result.andThen]
  repeat' split
  all_goals try dsimp only [State.done, Result.andThen]
  all_goals repeat' first
    | exact h
    | with_reducible apply Keeps.overload | with_reducible apply Keeps.noFlow | with_reducible apply Keeps.askFeeder
    | with_reducible apply Keeps.setMill

theorem Keeps.loopInterval (h : Keeps s t) :
    Keeps s (Sys2Proof.Machine.loopInterval t).1 := by
  unfold Sys2Proof.Machine.loopInterval
  try dsimp only [State.done, Result.andThen]
  repeat' split
  all_goals try dsimp only [State.done, Result.andThen]
  all_goals repeat' first
    | exact h
    | with_reducible apply Keeps.millWatch | with_reducible apply Keeps.putGrind | with_reducible apply Keeps.draw |
    with_reducible apply Keeps.fill | with_reducible apply Keeps.askFeeder | with_reducible apply Keeps.setMill

theorem Keeps.autoGrind (h : Keeps s t) (b : Nat) : Keeps s (Sys2Proof.Machine.autoGrind t b).1 := by
  unfold Sys2Proof.Machine.autoGrind
  split
  · exact h
  · next v hv =>
    dsimp only
    repeat' split
    · exact h
    · exact h
    · exact h.raise _
    · exact h.raise _
    · exact (h.setMill _).touch (v := v) hv rfl rfl rfl
    · exact h.setMill _

theorem Keeps.millTransferFailed (h : Keeps s t) (reason : MillReason) :
    Keeps s (Sys2Proof.Machine.millTransferFailed t reason).1 := by
  unfold Sys2Proof.Machine.millTransferFailed
  try dsimp only [State.done, Result.andThen]
  repeat' split
  all_goals try dsimp only [State.done, Result.andThen]
  all_goals repeat' first
    | exact h
    | with_reducible apply Keeps.holdMill | with_reducible apply Keeps.endTransfer

theorem Keeps.millFeedbackLoss (h : Keeps s t) :
    Keeps s (Sys2Proof.Machine.millFeedbackLoss t).1 := by
  unfold Sys2Proof.Machine.millFeedbackLoss
  try dsimp only [State.done, Result.andThen]
  repeat' split
  all_goals try dsimp only [State.done, Result.andThen]
  all_goals repeat' first
    | exact h
    | with_reducible apply Keeps.holdMill

theorem Keeps.stopMill (h : Keeps s t) :
    Keeps s (Sys2Proof.Machine.stopMill t).1 := by
  unfold Sys2Proof.Machine.stopMill
  try dsimp only [State.done, Result.andThen]
  repeat' split
  all_goals try dsimp only [State.done, Result.andThen]
  all_goals repeat' first
    | exact h
    | with_reducible apply Keeps.holdMill

/-! ### Pelleting.lean -/

theorem Keeps.writeSteam (h : Keeps s t) (p : PressId) (a : ActiveRun) :
    Keeps s (Sys2Proof.Machine.writeSteam t p a) := by
  unfold Sys2Proof.Machine.writeSteam
  try dsimp only [State.done, Result.andThen]
  all_goals repeat' first
    | exact h
    | with_reducible apply Keeps.setAnalogOut

theorem Keeps.raisePressHeld (h : Keeps s t) (p : PressId) (reason : PressReason) (cause : PressCause) :
    Keeps s (Sys2Proof.Machine.raisePressHeld t p reason cause) := by
  unfold Sys2Proof.Machine.raisePressHeld
  try dsimp only [State.done, Result.andThen]
  all_goals repeat' first
    | exact h
    | with_reducible apply Keeps.raise

theorem Keeps.pressFeedOff (h : Keeps s t) (p : PressId) :
    Keeps s (Sys2Proof.Machine.pressFeedOff t p) := by
  unfold Sys2Proof.Machine.pressFeedOff
  try dsimp only [State.done, Result.andThen]
  all_goals repeat' first
    | exact h
    | with_reducible apply Keeps.askFeeder | with_reducible apply Keeps.modPress

theorem Keeps.askPressMotor (h : Keeps s t) (p : PressId) (on : Bool) :
    Keeps s (Sys2Proof.Machine.askPressMotor t p on) := by
  unfold Sys2Proof.Machine.askPressMotor
  try dsimp only [State.done, Result.andThen]
  repeat' split
  all_goals try dsimp only [State.done, Result.andThen]
  all_goals repeat' first
    | exact h
    | with_reducible apply Keeps.modPress | with_reducible apply Keeps.ask

theorem Keeps.holdPress (h : Keeps s t) (p : PressId) (reason : PressReason) (cause : PressCause) (motor : Bool) :
    Keeps s (Sys2Proof.Machine.holdPress t p reason cause motor).1 := by
  unfold Sys2Proof.Machine.holdPress
  try dsimp only [State.done, Result.andThen]
  repeat' split
  all_goals try dsimp only [State.done, Result.andThen]
  all_goals repeat' first
    | exact h
    | with_reducible apply Keeps.askPressMotor | with_reducible apply Keeps.pressFeedOff | with_reducible apply
    Keeps.raisePressHeld | with_reducible apply Keeps.endTransfer | with_reducible apply Keeps.modPress |
    with_reducible apply Keeps.raise

theorem Keeps.askDivert (h : Keeps s t) (p : PressId) (phase : RunPhase) :
    Keeps s (Sys2Proof.Machine.askDivert t p phase) := h.ask _ _

theorem Keeps.enterPhaseRaising (h : Keeps s t) (p : PressId) (events : List Event) :
    Keeps s (Sys2Proof.Machine.enterPhaseRaising t p events).1 := by
  unfold Sys2Proof.Machine.enterPhaseRaising
  split
  · exact h
  · dsimp only
    split
    · exact ((h.modPress _ _).raiseAll id events).holdPress _ _ _ _
    · exact ((h.modPress _ _).raiseAll id events).holdPress _ _ _ _
    · next hr => exact ((h.modPress _ _).askDivert _ _).openTransfer _ _ _ (transferRefusal_stopped hr)

theorem Keeps.enterPhase (h : Keeps s t) (p : PressId) : Keeps s (Sys2Proof.Machine.enterPhase t p).1 :=
  h.enterPhaseRaising p []

theorem Keeps.endRun (h : Keeps s t) (p : PressId) (reason : RunEnd) :
    Keeps s (Sys2Proof.Machine.endRun t p reason) := by
  unfold Sys2Proof.Machine.endRun
  try dsimp only [State.done, Result.andThen]
  repeat' split
  all_goals try dsimp only [State.done, Result.andThen]
  all_goals repeat' first
    | exact h
    | with_reducible apply Keeps.modPress | with_reducible apply Keeps.raise

theorem Keeps.activateHead (h : Keeps s t) (p : PressId) :
    Keeps s (Sys2Proof.Machine.activateHead t p) := by
  unfold Sys2Proof.Machine.activateHead
  try dsimp only [State.done, Result.andThen]
  repeat' split
  all_goals try dsimp only [State.done, Result.andThen]
  all_goals repeat' first
    | exact h
    | with_reducible apply Keeps.writeSteam | with_reducible apply Keeps.modPress

theorem Keeps.carryBack (h : Keeps s t) (a : ActiveRun) :
    Keeps s (Sys2Proof.Machine.carryBack t a) := by
  unfold Sys2Proof.Machine.carryBack
  try dsimp only [State.done, Result.andThen]
  repeat' split
  all_goals try dsimp only [State.done, Result.andThen]
  all_goals repeat' first
    | exact h
    | with_reducible apply Keeps.setPresses | with_reducible apply Keeps.setPresses

theorem Keeps.changeover (h : Keeps s t) (p : PressId) :
    Keeps s (Sys2Proof.Machine.changeover t p).1 := by
  unfold Sys2Proof.Machine.changeover
  try dsimp only [State.done, Result.andThen]
  repeat' split
  all_goals try dsimp only [State.done, Result.andThen]
  all_goals repeat' first
    | exact h
    | with_reducible apply Keeps.carryBack | with_reducible apply Keeps.activateHead | with_reducible apply
    Keeps.pressFeedOff | with_reducible apply Keeps.endTransfer

theorem Keeps.pressChange (h : Keeps s t) (p : PressId) :
    Keeps s (Sys2Proof.Machine.pressChange t p).1 := by
  unfold Sys2Proof.Machine.pressChange
  try dsimp only [State.done, Result.andThen]
  repeat' split
  all_goals try dsimp only [State.done, Result.andThen]
  all_goals repeat' first
    | exact h
    | with_reducible apply Keeps.activateHead | with_reducible apply Keeps.endRun

theorem Keeps.pressEnter (h : Keeps s t) (p : PressId) (outgoing : Nat) :
    Keeps s (Sys2Proof.Machine.pressEnter t p outgoing).1 := by
  unfold Sys2Proof.Machine.pressEnter
  try dsimp only [State.done, Result.andThen]
  repeat' split
  all_goals try dsimp only [State.done, Result.andThen]
  all_goals repeat' first
    | exact h
    | with_reducible apply Keeps.enterPhaseRaising

theorem Keeps.holdNoRun (h : Keeps s t) (p : PressId) (cause : PressCause) :
    Keeps s (Sys2Proof.Machine.holdNoRun t p cause).1 := by
  unfold Sys2Proof.Machine.holdNoRun
  try dsimp only [State.done, Result.andThen]
  all_goals repeat' first
    | exact h
    | with_reducible apply Keeps.holdPress | with_reducible apply Keeps.modPress

theorem Keeps.goOnAfterSkip (h : Keeps s t) (p : PressId) (place : SignalPlace) :
    Keeps s (Sys2Proof.Machine.goOnAfterSkip t p place).1 := by
  unfold Sys2Proof.Machine.goOnAfterSkip
  try dsimp only [State.done, Result.andThen]
  repeat' split
  all_goals try dsimp only [State.done, Result.andThen]
  all_goals repeat' first
    | exact h
    | with_reducible apply Keeps.holdNoRun | with_reducible apply Keeps.enterPhase | with_reducible apply
    Keeps.askDivert | with_reducible apply Keeps.modPress

theorem Keeps.actSignal (h : Keeps s t) (p : PressId) (place : SignalPlace) :
    Keeps s (Sys2Proof.Machine.actSignal t p place).1.1 := by
  unfold Sys2Proof.Machine.actSignal
  try dsimp only [State.done, Result.andThen]
  repeat' split
  all_goals try dsimp only [State.done, Result.andThen]
  all_goals repeat' first
    | exact h
    | with_reducible apply Keeps.goOnAfterSkip | with_reducible apply Keeps.holdNoRun | with_reducible apply
    Keeps.changeover | with_reducible apply Keeps.modPress

theorem Keeps.countIgnored (h : Keeps s t) (p : PressId) :
    Keeps s (Sys2Proof.Machine.countIgnored t p) := by
  unfold Sys2Proof.Machine.countIgnored
  try dsimp only [State.done, Result.andThen]
  all_goals repeat' first
    | exact h
    | with_reducible apply Keeps.modPress

theorem Keeps.takeTrigger (h : Keeps s t) (p : PressId) :
    Keeps s (Sys2Proof.Machine.takeTrigger t p) := by
  unfold Sys2Proof.Machine.takeTrigger
  try dsimp only [State.done, Result.andThen]
  repeat' split
  all_goals try dsimp only [State.done, Result.andThen]
  all_goals repeat' first
    | exact h
    | with_reducible apply Keeps.countIgnored | with_reducible apply Keeps.modPress

theorem Keeps.triggerIf (h : Keeps s t) (p : PressId) (inSet : TriggerSet → Bool) :
    Keeps s (Sys2Proof.Machine.triggerIf t p inSet) := by
  unfold Sys2Proof.Machine.triggerIf
  try dsimp only [State.done, Result.andThen]
  repeat' split
  all_goals try dsimp only [State.done, Result.andThen]
  all_goals repeat' first
    | exact h
    | with_reducible apply Keeps.takeTrigger

theorem Keeps.boundaryTriggers (l : List Nat) (p : PressId) : ∀ {s t : State}, Keeps s t →
    Keeps s (Sys2Proof.Machine.boundaryTriggers l p t) := by
  induction l with
  | nil => exact fun h => h
  | cons _ l ih => exact fun h => ih (h.triggerIf _ _)

theorem Keeps.produceSignal (h : Keeps s t) (p : PressId) (immediate : Bool) :
    Keeps s (Sys2Proof.Machine.produceSignal t p immediate).1.1 := by
  unfold Sys2Proof.Machine.produceSignal
  try dsimp only [State.done, Result.andThen]
  repeat' split
  all_goals try dsimp only [State.done, Result.andThen]
  all_goals repeat' first
    | exact h
    | with_reducible apply Keeps.countIgnored | with_reducible apply Keeps.actSignal | with_reducible apply
    Keeps.modPress

theorem Keeps.immediateSignal (h : Keeps s t) (p : PressId) :
    Keeps s (Sys2Proof.Machine.immediateSignal t p).1.1 := by
  unfold Sys2Proof.Machine.immediateSignal
  try dsimp only [State.done, Result.andThen]
  all_goals repeat' first
    | exact h
    | with_reducible apply Keeps.produceSignal | with_reducible apply Keeps.modPress

theorem Keeps.pressButton (h : Keeps s t) (p : PressId) :
    Keeps s (Sys2Proof.Machine.pressButton t p).1 := by
  unfold Sys2Proof.Machine.pressButton
  try dsimp only [State.done, Result.andThen]
  repeat' split
  all_goals try dsimp only [State.done, Result.andThen]
  all_goals repeat' first
    | exact h
    | with_reducible apply Keeps.immediateSignal | with_reducible apply Keeps.takeTrigger

theorem Keeps.delayExpiry (h : Keeps s t) (p : PressId) :
    Keeps s (Sys2Proof.Machine.delayExpiry t p).1 := by
  unfold Sys2Proof.Machine.delayExpiry
  try dsimp only [State.done, Result.andThen]
  repeat' split
  all_goals try dsimp only [State.done, Result.andThen]
  all_goals repeat' first
    | exact h
    | with_reducible apply Keeps.produceSignal | with_reducible apply Keeps.modPress

theorem Keeps.startingEnd (h : Keeps s t) (p : PressId) :
    Keeps s (Sys2Proof.Machine.startingEnd t p).1 := by
  unfold Sys2Proof.Machine.startingEnd
  try dsimp only [State.done, Result.andThen]
  repeat' split
  all_goals try dsimp only [State.done, Result.andThen]
  all_goals repeat' first
    | exact h
    | with_reducible apply Keeps.actSignal | with_reducible apply Keeps.enterPhase | with_reducible apply
    Keeps.modPress

theorem Keeps.pressFound (h : Keeps s t) (p : PressId) :
    Keeps s (Sys2Proof.Machine.pressFound t p).1 := by
  unfold Sys2Proof.Machine.pressFound
  try dsimp only [State.done, Result.andThen]
  repeat' split
  all_goals try dsimp only [State.done, Result.andThen]
  all_goals repeat' first
    | exact h
    | with_reducible apply Keeps.startingEnd | with_reducible apply Keeps.modPress

theorem Keeps.pressStarting (h : Keeps s t) (p : PressId) :
    Keeps s (Sys2Proof.Machine.pressStarting t p).1 := by
  unfold Sys2Proof.Machine.pressStarting
  try dsimp only [State.done, Result.andThen]
  repeat' split
  all_goals try dsimp only [State.done, Result.andThen]
  all_goals repeat' first
    | exact h
    | with_reducible apply Keeps.pressFound | with_reducible apply Keeps.askPressMotor | with_reducible apply
    Keeps.modPress

theorem Keeps.starve (h : Keeps s t) (p : PressId) :
    Keeps s (Sys2Proof.Machine.starve t p) := by
  unfold Sys2Proof.Machine.starve
  try dsimp only [State.done, Result.andThen]
  all_goals repeat' first
    | exact h
    | with_reducible apply Keeps.pressFeedOff | with_reducible apply Keeps.raisePressHeld | with_reducible apply
    Keeps.modPress | with_reducible apply Keeps.raise

theorem Keeps.starvedJudge (h : Keeps s t) (p : PressId) :
    Keeps s (Sys2Proof.Machine.starvedJudge t p).1 := by
  unfold Sys2Proof.Machine.starvedJudge
  try dsimp only [State.done, Result.andThen]
  repeat' split
  all_goals try dsimp only [State.done, Result.andThen]
  all_goals repeat' first
    | exact h
    | with_reducible apply Keeps.askDivert
    | with_reducible apply Keeps.actSignal | with_reducible apply Keeps.modPress

theorem Keeps.starveExpiry (h : Keeps s t) (p : PressId) :
    Keeps s (Sys2Proof.Machine.starveExpiry t p).1 := by
  unfold Sys2Proof.Machine.starveExpiry
  try dsimp only [State.done, Result.andThen]
  repeat' split
  all_goals try dsimp only [State.done, Result.andThen]
  all_goals repeat' first
    | exact h
    | with_reducible apply Keeps.endRun | with_reducible apply Keeps.pressFeedOff | with_reducible apply
    Keeps.endTransfer

theorem Keeps.finishStarved (h : Keeps s t) (p : PressId) (run : Nat) :
    Keeps s (Sys2Proof.Machine.finishStarved t p run) := by
  unfold Sys2Proof.Machine.finishStarved
  try dsimp only [State.done, Result.andThen]
  all_goals repeat' first
    | exact h
    | with_reducible apply Keeps.modPress | with_reducible apply Keeps.setAnalogOut | with_reducible apply Keeps.raise

theorem Keeps.endFlush (h : Keeps s t) (p : PressId) :
    Keeps s (Sys2Proof.Machine.endFlush t p) := by
  unfold Sys2Proof.Machine.endFlush
  try dsimp only [State.done, Result.andThen]
  repeat' split
  all_goals try dsimp only [State.done, Result.andThen]
  all_goals repeat' first
    | exact h
    | with_reducible apply Keeps.modPress | with_reducible apply Keeps.ask

theorem Keeps.passOn (h : Keeps s t) (p : PressId) (x : Nat) (consumed : List (Nat × Nat)) :
    Keeps s (Sys2Proof.Machine.passOn t p x consumed).1 := by
  unfold Sys2Proof.Machine.passOn
  try dsimp only [State.done, Result.andThen]
  repeat' split
  all_goals try dsimp only [State.done, Result.andThen]
  all_goals repeat' first
    | exact h
    | with_reducible apply Keeps.fill | with_reducible apply Keeps.modPress

theorem Keeps.judgeFlush (h : Keeps s t) (p : PressId) :
    Keeps s (Sys2Proof.Machine.judgeFlush t p) := by
  unfold Sys2Proof.Machine.judgeFlush
  try dsimp only [State.done, Result.andThen]
  repeat' split
  all_goals try dsimp only [State.done, Result.andThen]
  all_goals repeat' first
    | exact h
    | with_reducible apply Keeps.endFlush

theorem Keeps.judgeLimit (h : Keeps s t) (p : PressId) :
    Keeps s (Sys2Proof.Machine.judgeLimit t p) := by
  unfold Sys2Proof.Machine.judgeLimit
  try dsimp only [State.done, Result.andThen]
  repeat' split
  all_goals try dsimp only [State.done, Result.andThen]
  all_goals repeat' first
    | exact h
    | with_reducible apply Keeps.triggerIf | with_reducible apply Keeps.modPress

/-- What step 1 of an interval lets expire: a delay it started at 0, and nothing else (R144, R150). -/
theorem mem_zeroDelay {before after : State} {p : PressId} {x : Task} : x ∈ zeroDelay before after p ↔
    x = .delayExpired p ∧ (before.pressAt p).delay = none ∧ (after.pressAt p).delay = some 0 := by
  unfold zeroDelay
  split <;> simp_all

theorem Keeps.pressPost (h : Keeps s t) (p : PressId) (a : ActiveRun) (m : Nat) :
    Keeps s (Sys2Proof.Machine.pressPost t p a m).1 := by
  unfold Sys2Proof.Machine.pressPost
  try dsimp only [State.done, Result.andThen]
  repeat' split
  all_goals try dsimp only [State.done, Result.andThen]
  all_goals repeat' first
    | exact h
    | with_reducible apply Keeps.judgeLimit | with_reducible apply Keeps.judgeFlush | with_reducible apply
    Keeps.passOn | with_reducible apply Keeps.endFlush | with_reducible apply Keeps.boundaryTriggers |
    with_reducible apply Keeps.holdPress | with_reducible apply Keeps.draw

theorem Keeps.controlInterval (h : Keeps s t) (p : PressId) :
    Keeps s (Sys2Proof.Machine.controlInterval t p).1 := by
  unfold Sys2Proof.Machine.controlInterval
  try dsimp only [State.done, Result.andThen]
  repeat' split
  all_goals try dsimp only [State.done, Result.andThen]
  all_goals repeat' first
    | exact h
    | with_reducible apply Keeps.pressPost | with_reducible apply Keeps.startingEnd | with_reducible apply
    Keeps.modPress

theorem Keeps.choke (h : Keeps s t) (p : PressId) (i : Int) :
    Keeps s (Sys2Proof.Machine.choke t p i).1 := by
  unfold Sys2Proof.Machine.choke
  try dsimp only [State.done, Result.andThen]
  all_goals repeat' first
    | exact h
    | with_reducible apply Keeps.pressFeedOff | with_reducible apply Keeps.endTransfer

theorem Keeps.finishChoke (h : Keeps s t) (p : PressId) (i : Int) :
    Keeps s (Sys2Proof.Machine.finishChoke t p i) := by
  unfold Sys2Proof.Machine.finishChoke
  try dsimp only [State.done, Result.andThen]
  all_goals repeat' first
    | exact h
    | with_reducible apply Keeps.raisePressHeld | with_reducible apply Keeps.modPress

theorem Keeps.pressWatch (h : Keeps s t) (p : PressId) :
    Keeps s (Sys2Proof.Machine.pressWatch t p).1 := by
  unfold Sys2Proof.Machine.pressWatch
  try dsimp only [State.done, Result.andThen]
  repeat' split
  all_goals try dsimp only [State.done, Result.andThen]
  all_goals repeat' first
    | exact h
    | with_reducible apply Keeps.choke | with_reducible apply Keeps.starve | with_reducible apply Keeps.holdPress |
    with_reducible apply Keeps.askFeeder | with_reducible apply Keeps.modPress

theorem Keeps.carryForward (h : Keeps s t) (p : PressId) (b : Nat) (removed : Nat) (consumed : List (Nat × Nat)) (boundaries : List Nat) :
    Keeps s (Sys2Proof.Machine.carryForward t p b removed consumed boundaries).1 := by
  unfold Sys2Proof.Machine.carryForward
  try dsimp only [State.done, Result.andThen]
  repeat' split
  all_goals try dsimp only [State.done, Result.andThen]
  all_goals repeat' first
    | exact h
    | with_reducible apply Keeps.judgeFlush | with_reducible apply Keeps.passOn | with_reducible apply
    Keeps.endFlush | with_reducible apply Keeps.starve | with_reducible apply Keeps.boundaryTriggers

theorem Keeps.pressTransferFailed (h : Keeps s t) (p : PressId) (reason : PressReason) :
    Keeps s (Sys2Proof.Machine.pressTransferFailed t p reason).1 := by
  unfold Sys2Proof.Machine.pressTransferFailed
  try dsimp only [State.done, Result.andThen]
  repeat' split
  all_goals try dsimp only [State.done, Result.andThen]
  all_goals repeat' first
    | exact h
    | with_reducible apply Keeps.holdPress | with_reducible apply Keeps.endTransfer

theorem Keeps.pressFeedbackLoss (h : Keeps s t) (p : PressId) :
    Keeps s (Sys2Proof.Machine.pressFeedbackLoss t p).1 := by
  unfold Sys2Proof.Machine.pressFeedbackLoss
  try dsimp only [State.done, Result.andThen]
  repeat' split
  all_goals try dsimp only [State.done, Result.andThen]
  all_goals repeat' first
    | exact h
    | with_reducible apply Keeps.holdPress

theorem Keeps.stopPress (h : Keeps s t) (p : PressId) :
    Keeps s (Sys2Proof.Machine.stopPress t p).1 := by
  unfold Sys2Proof.Machine.stopPress
  try dsimp only [State.done, Result.andThen]
  repeat' split
  all_goals try dsimp only [State.done, Result.andThen]
  all_goals repeat' first
    | exact h
    | with_reducible apply Keeps.askPressMotor | with_reducible apply Keeps.pressFeedOff | with_reducible apply
    Keeps.raisePressHeld | with_reducible apply Keeps.modPress | with_reducible apply Keeps.raise

theorem Keeps.pressStopNow (h : Keeps s t) (p : PressId) :
    Keeps s (Sys2Proof.Machine.pressStopNow t p).1 := by
  unfold Sys2Proof.Machine.pressStopNow
  try dsimp only [State.done, Result.andThen]
  all_goals repeat' first
    | exact h
    | with_reducible apply Keeps.pressFeedOff | with_reducible apply Keeps.endTransfer | with_reducible apply
    Keeps.modPress

theorem Keeps.finishPressStop (h : Keeps s t) (p : PressId) :
    Keeps s (Sys2Proof.Machine.finishPressStop t p) := by
  unfold Sys2Proof.Machine.finishPressStop
  try dsimp only [State.done, Result.andThen]
  repeat' split
  all_goals try dsimp only [State.done, Result.andThen]
  all_goals repeat' first
    | exact h
    | with_reducible apply Keeps.endRun | with_reducible apply Keeps.askPressMotor | with_reducible apply
    Keeps.modPress | with_reducible apply Keeps.setAnalogOut

/-! ### Bagging.lean -/

theorem Keeps.putHead (h : Keeps s t) (r : BagRun) :
    Keeps s (Sys2Proof.Machine.putHead t r) := by
  unfold Sys2Proof.Machine.putHead
  try dsimp only [State.done, Result.andThen]
  all_goals repeat' first
    | exact h
    | with_reducible apply Keeps.setBag

theorem Keeps.bagTimer (h : Keeps s t) (x : Option BagTimer) :
    Keeps s (Sys2Proof.Machine.bagTimer t x) := by
  unfold Sys2Proof.Machine.bagTimer
  try dsimp only [State.done, Result.andThen]
  all_goals repeat' first
    | exact h
    | with_reducible apply Keeps.setBag

theorem Keeps.holdBag (h : Keeps s t) (r : BagRun) (reason : BagReason) (cause : BagCause) :
    Keeps s (Sys2Proof.Machine.holdBag t r reason cause).1 := by
  unfold Sys2Proof.Machine.holdBag
  try dsimp only [State.done, Result.andThen]
  all_goals repeat' first
    | exact h
    | with_reducible apply Keeps.bagTimer | with_reducible apply Keeps.putHead | with_reducible apply
    Keeps.endTransfer | with_reducible apply Keeps.ask

theorem Keeps.endBagRun (h : Keeps s t) (r : BagRun) (cause : BagEnd) :
    Keeps s (Sys2Proof.Machine.endBagRun t r cause).1 := by
  unfold Sys2Proof.Machine.endBagRun
  try dsimp only [State.done, Result.andThen]
  all_goals repeat' first
    | exact h
    | with_reducible apply Keeps.putHead | with_reducible apply Keeps.endTransfer

theorem Keeps.finishBagRun (h : Keeps s t) (run : Nat) (cause : BagEnd) :
    Keeps s (Sys2Proof.Machine.finishBagRun t run cause).1 := by
  unfold Sys2Proof.Machine.finishBagRun
  try dsimp only [State.done, Result.andThen]
  repeat' split
  all_goals try dsimp only [State.done, Result.andThen]
  all_goals repeat' first
    | exact h
    | with_reducible apply Keeps.closeClaim | with_reducible apply Keeps.ask | with_reducible apply Keeps.setBag |
    with_reducible apply Keeps.raise

theorem Keeps.becomeHead (h : Keeps s t) :
    Keeps s (Sys2Proof.Machine.becomeHead t).1 := by
  unfold Sys2Proof.Machine.becomeHead
  try dsimp only [State.done, Result.andThen]
  repeat' split
  all_goals try dsimp only [State.done, Result.andThen]
  all_goals repeat' first
    | exact h
    | with_reducible apply Keeps.putHead | with_reducible apply Keeps.setBag

theorem Keeps.enterWaitBag (h : Keeps s t) : Keeps s (Sys2Proof.Machine.enterWaitBag t).1 := by
  unfold Sys2Proof.Machine.enterWaitBag
  split
  · exact h
  · dsimp only
    repeat' split
    · exact ((h.putHead _).setBag _).holdBag _ _ _
    · exact (h.putHead _).setBag _
    · exact ((h.putHead _).setBag _).holdBag _ _ _
    · exact ((h.putHead _).setBag _).holdBag _ _ _
    · next hr => exact ((h.putHead _).setBag _).openTransfer _ _ _ (transferRefusal_stopped hr)

theorem Keeps.presentBag (h : Keeps s t) :
    Keeps s (Sys2Proof.Machine.presentBag t).1 := by
  unfold Sys2Proof.Machine.presentBag
  try dsimp only [State.done, Result.andThen]
  repeat' split
  all_goals try dsimp only [State.done, Result.andThen]
  all_goals repeat' first
    | exact h
    | with_reducible apply Keeps.presentDose

theorem Keeps.beginBag (h : Keeps s t) (r : BagRun) :
    Keeps s (Sys2Proof.Machine.beginBag t r).1 := by
  unfold Sys2Proof.Machine.beginBag
  try dsimp only [State.done, Result.andThen]
  repeat' split
  all_goals try dsimp only [State.done, Result.andThen]
  all_goals repeat' first
    | exact h
    | with_reducible apply Keeps.presentBag | with_reducible apply Keeps.putHead | with_reducible apply Keeps.ask |
    with_reducible apply Keeps.setBag

theorem Keeps.tryBegin (h : Keeps s t) :
    Keeps s (Sys2Proof.Machine.tryBegin t).1 := by
  unfold Sys2Proof.Machine.tryBegin
  try dsimp only [State.done, Result.andThen]
  repeat' split
  all_goals try dsimp only [State.done, Result.andThen]
  all_goals repeat' first
    | exact h
    | with_reducible apply Keeps.beginBag | with_reducible apply Keeps.holdBag

theorem Keeps.bagArrives (h : Keeps s t) :
    Keeps s (Sys2Proof.Machine.bagArrives t).1 := by
  unfold Sys2Proof.Machine.bagArrives
  try dsimp only [State.done, Result.andThen]
  repeat' split
  all_goals try dsimp only [State.done, Result.andThen]
  all_goals repeat' first
    | exact h
    | with_reducible apply Keeps.tryBegin | with_reducible apply Keeps.setBag

theorem Keeps.enterReleasing (h : Keeps s t) (r : BagRun) :
    Keeps s (Sys2Proof.Machine.enterReleasing t r) := by
  unfold Sys2Proof.Machine.enterReleasing
  try dsimp only [State.done, Result.andThen]
  all_goals repeat' first
    | exact h
    | with_reducible apply Keeps.bagTimer | with_reducible apply Keeps.putHead | with_reducible apply Keeps.ask

theorem Keeps.enterChecking (h : Keeps s t) (r : BagRun) :
    Keeps s (Sys2Proof.Machine.enterChecking t r) := by
  unfold Sys2Proof.Machine.enterChecking
  try dsimp only [State.done, Result.andThen]
  repeat' split
  all_goals try dsimp only [State.done, Result.andThen]
  all_goals repeat' first
    | exact h
    | with_reducible apply Keeps.enterReleasing | with_reducible apply Keeps.bagTimer | with_reducible apply
    Keeps.putHead

theorem Keeps.adjustReservation (h : Keeps s t) (r : BagRun) : Keeps s (Sys2Proof.Machine.adjustReservation t r).result.1 := by
  unfold Sys2Proof.Machine.adjustReservation
  dsimp only
  split
  · split
    · exact h.changeWanted _ _
    · exact h
  · split
    · exact h
    · split
      · exact h
      · next hr =>
        have hc := claimRefusal_none hr
        refine Keeps.putHead (h.createOne _ _ _ (hc.1 _ List.mem_cons_self) ?_) _
        have := hc.2
        simp only [List.length_singleton] at this
        omega

theorem Keeps.enterBurstWait (h : Keeps s t) (r : BagRun) :
    Keeps s (Sys2Proof.Machine.enterBurstWait t r).1 := by
  unfold Sys2Proof.Machine.enterBurstWait
  try dsimp only [State.done, Result.andThen]
  repeat' split
  all_goals try dsimp only [State.done, Result.andThen]
  all_goals repeat' first
    | exact h
    | with_reducible apply Keeps.enterWaitBag | with_reducible apply Keeps.putHead | with_reducible apply
    Keeps.endTransfer | with_reducible apply Keeps.setBag

theorem Keeps.afterBag (h : Keeps s t) (r : BagRun) :
    Keeps s (Sys2Proof.Machine.afterBag t r).1 := by
  unfold Sys2Proof.Machine.afterBag
  try dsimp only [State.done, Result.andThen]
  repeat' split
  all_goals try dsimp only [State.done, Result.andThen]
  all_goals repeat' first
    | exact h
    | with_reducible apply Keeps.enterBurstWait | with_reducible apply Keeps.adjustReservation | with_reducible
    apply Keeps.enterWaitBag | with_reducible apply Keeps.endBagRun | with_reducible apply Keeps.holdBag |
    with_reducible apply Keeps.putHead

theorem Keeps.bagGone (h : Keeps s t) :
    Keeps s (Sys2Proof.Machine.bagGone t).1 := by
  unfold Sys2Proof.Machine.bagGone
  try dsimp only [State.done, Result.andThen]
  repeat' split
  all_goals try dsimp only [State.done, Result.andThen]
  all_goals repeat' first
    | exact h
    | with_reducible apply Keeps.afterBag | with_reducible apply Keeps.bagTimer | with_reducible apply Keeps.putHead
    | with_reducible apply Keeps.ask

theorem Keeps.checkExpiry (h : Keeps s t) :
    Keeps s (Sys2Proof.Machine.checkExpiry t).1 := by
  unfold Sys2Proof.Machine.checkExpiry
  try dsimp only [State.done, Result.andThen]
  repeat' split
  all_goals try dsimp only [State.done, Result.andThen]
  all_goals repeat' first
    | exact h
    | with_reducible apply Keeps.enterReleasing

theorem Keeps.recordAccepted (h : Keeps s t) (r : BagRun) :
    Keeps s (Sys2Proof.Machine.recordAccepted t r) := by
  unfold Sys2Proof.Machine.recordAccepted
  try dsimp only [State.done, Result.andThen]
  repeat' split
  all_goals try dsimp only [State.done, Result.andThen]
  all_goals repeat' first
    | exact h
    | with_reducible apply Keeps.enterChecking | with_reducible apply Keeps.raise

theorem Keeps.recordRejected (h : Keeps s t) (r : BagRun) (ending : DoseEnding) :
    Keeps s (Sys2Proof.Machine.recordRejected t r ending) := by
  unfold Sys2Proof.Machine.recordRejected
  try dsimp only [State.done, Result.andThen]
  all_goals repeat' first
    | exact h
    | with_reducible apply Keeps.enterChecking | with_reducible apply Keeps.ask | with_reducible apply Keeps.raise

theorem Keeps.recordInterrupted (h : Keeps s t) (r : BagRun) (ending : DoseEnding) (reason : BagReason) (cause : BagCause) :
    Keeps s (Sys2Proof.Machine.recordInterrupted t r ending reason cause).1 := by
  unfold Sys2Proof.Machine.recordInterrupted
  try dsimp only [State.done, Result.andThen]
  all_goals repeat' first
    | exact h
    | with_reducible apply Keeps.holdBag | with_reducible apply Keeps.raise

theorem Keeps.bagDoseEnded (h : Keeps s t) (rep : DoseReport) (consumed : List (Nat × Nat)) :
    Keeps s (Sys2Proof.Machine.bagDoseEnded t rep consumed).1 := by
  unfold Sys2Proof.Machine.bagDoseEnded
  try dsimp only [State.done, Result.andThen]
  repeat' split
  all_goals try dsimp only [State.done, Result.andThen]
  all_goals repeat' first
    | exact h
    | with_reducible apply Keeps.recordInterrupted | with_reducible apply Keeps.recordRejected | with_reducible
    apply Keeps.recordAccepted

theorem Keeps.startRun (h : Keeps s t) (r : BagRun) :
    Keeps s (Sys2Proof.Machine.startRun t r).1 := by
  unfold Sys2Proof.Machine.startRun
  try dsimp only [State.done, Result.andThen]
  all_goals repeat' first
    | exact h
    | with_reducible apply Keeps.enterWaitBag | with_reducible apply Keeps.putHead

theorem Keeps.takeStart (h : Keeps s t) (cls : StartTrigger) :
    Keeps s (Sys2Proof.Machine.takeStart t cls).1 := by
  unfold Sys2Proof.Machine.takeStart
  try dsimp only [State.done, Result.andThen]
  repeat' split
  all_goals try dsimp only [State.done, Result.andThen]
  all_goals repeat' first
    | exact h
    | with_reducible apply Keeps.startRun

theorem Keeps.markStart (h : Keeps s t) :
    Keeps s (Sys2Proof.Machine.markStart t).1.1 := by
  unfold Sys2Proof.Machine.markStart
  try dsimp only [State.done, Result.andThen]
  repeat' split
  all_goals try dsimp only [State.done, Result.andThen]
  all_goals repeat' first
    | exact h
    | with_reducible apply Keeps.setBag

theorem Keeps.commandStart (h : Keeps s t) :
    Keeps s (Sys2Proof.Machine.commandStart t).1.1 := by
  unfold Sys2Proof.Machine.commandStart
  try dsimp only [State.done, Result.andThen]
  repeat' split
  all_goals try dsimp only [State.done, Result.andThen]
  all_goals repeat' first
    | exact h
    | with_reducible apply Keeps.markStart | with_reducible apply Keeps.startRun

theorem Keeps.stopRun (h : Keeps s t) (r : BagRun) :
    Keeps s (Sys2Proof.Machine.stopRun t r).1 := by
  unfold Sys2Proof.Machine.stopRun
  try dsimp only [State.done, Result.andThen]
  repeat' split
  all_goals try dsimp only [State.done, Result.andThen]
  all_goals repeat' first
    | exact h
    | with_reducible apply Keeps.enterWaitBag | with_reducible apply Keeps.endBagRun | with_reducible apply
    Keeps.putHead

theorem Keeps.takeStop (h : Keeps s t) (cls : StopTrigger) :
    Keeps s (Sys2Proof.Machine.takeStop t cls).1 := by
  unfold Sys2Proof.Machine.takeStop
  try dsimp only [State.done, Result.andThen]
  repeat' split
  all_goals try dsimp only [State.done, Result.andThen]
  all_goals repeat' first
    | exact h
    | with_reducible apply Keeps.stopRun

theorem Keeps.bagTransferLost (h : Keeps s t) :
    Keeps s (Sys2Proof.Machine.bagTransferLost t).1 := by
  unfold Sys2Proof.Machine.bagTransferLost
  try dsimp only [State.done, Result.andThen]
  repeat' split
  all_goals try dsimp only [State.done, Result.andThen]
  all_goals repeat' first
    | exact h
    | with_reducible apply Keeps.holdBag | with_reducible apply Keeps.putHead | with_reducible apply
    Keeps.endTransfer

theorem Keeps.bagTransferExpired (h : Keeps s t) :
    Keeps s (Sys2Proof.Machine.bagTransferExpired t).1 := by
  unfold Sys2Proof.Machine.bagTransferExpired
  try dsimp only [State.done, Result.andThen]
  repeat' split
  all_goals try dsimp only [State.done, Result.andThen]
  all_goals repeat' first
    | exact h
    | with_reducible apply Keeps.holdBag | with_reducible apply Keeps.endTransfer

theorem Keeps.returnToPhase (h : Keeps s t) (r : BagRun) :
    Keeps s (Sys2Proof.Machine.returnToPhase t r).1 := by
  unfold Sys2Proof.Machine.returnToPhase
  try dsimp only [State.done, Result.andThen]
  repeat' split
  all_goals try dsimp only [State.done, Result.andThen]
  all_goals repeat' first
    | exact h
    | with_reducible apply Keeps.enterWaitBag | with_reducible apply Keeps.enterBurstWait | with_reducible apply Keeps.putHead

theorem Keeps.continueRun (h : Keeps s t) (r : BagRun) :
    Keeps s (Sys2Proof.Machine.continueRun t r).1 := by
  unfold Sys2Proof.Machine.continueRun
  try dsimp only [State.done, Result.andThen]
  repeat' split
  all_goals try dsimp only [State.done, Result.andThen]
  all_goals repeat' first
    | exact h
    | with_reducible apply Keeps.endBagRun | with_reducible apply Keeps.returnToPhase | with_reducible apply Keeps.adjustReservation | with_reducible apply
    Keeps.holdBag | with_reducible apply Keeps.putHead

theorem Keeps.shortResume (h : Keeps s t) (id : Nat) :
    Keeps s (Sys2Proof.Machine.shortResume t id).1 := by
  unfold Sys2Proof.Machine.shortResume
  try dsimp only [State.done, Result.andThen]
  repeat' split
  all_goals try dsimp only [State.done, Result.andThen]
  all_goals repeat' first
    | exact h
    | with_reducible apply Keeps.continueRun

theorem Keeps.stopGone (h : Keeps s t) (r : BagRun) :
    Keeps s (Sys2Proof.Machine.stopGone t r).1 := by
  unfold Sys2Proof.Machine.stopGone
  try dsimp only [State.done, Result.andThen]
  repeat' split
  all_goals try dsimp only [State.done, Result.andThen]
  all_goals repeat' first
    | exact h
    | with_reducible apply Keeps.endBagRun | with_reducible apply Keeps.holdBag | with_reducible apply Keeps.adjustReservation

theorem Keeps.stopBagger (h : Keeps s t) :
    Keeps s (Sys2Proof.Machine.stopBagger t).1 := by
  unfold Sys2Proof.Machine.stopBagger
  try dsimp only [State.done, Result.andThen]
  repeat' split
  all_goals try dsimp only [State.done, Result.andThen]
  all_goals repeat' first
    | exact h
    | with_reducible apply Keeps.stopGone | with_reducible apply Keeps.holdBag | with_reducible apply Keeps.bagTimer
    | with_reducible apply Keeps.putHead | with_reducible apply Keeps.setBag

/-! ### Loading.lean -/

theorem Keeps.putOrder (h : Keeps s t) (o : Order) : Keeps s (t.putOrder o) := h.setBook _

theorem Keeps.dropOrder (h : Keeps s t) (n : Nat) : Keeps s (t.dropOrder n) := h.setBook _

theorem Keeps.setLoadout (h : Keeps s t) (v : Loadout) : Keeps s (t.setLoadout v) := h.setBook _

theorem Keeps.putCompartment (h : Keeps s t) (k : Nat) (c : Compartment) :
    Keeps s (Sys2Proof.Machine.State.putCompartment t k c) := by
  unfold Sys2Proof.Machine.State.putCompartment
  try dsimp only [State.done, Result.andThen]
  repeat' split
  all_goals try dsimp only [State.done, Result.andThen]
  all_goals repeat' first
    | exact h
    | with_reducible apply Keeps.setLoadout

theorem Keeps.setCurrent (h : Keeps s t) (i : Option Nat) :
    Keeps s (Sys2Proof.Machine.State.setCurrent t i) := by
  unfold Sys2Proof.Machine.State.setCurrent
  try dsimp only [State.done, Result.andThen]
  repeat' split
  all_goals try dsimp only [State.done, Result.andThen]
  all_goals repeat' first
    | exact h
    | with_reducible apply Keeps.setLoadout

theorem Keeps.setLoadState (h : Keeps s t) (v : LoadState) :
    Keeps s (Sys2Proof.Machine.State.setLoadState t v) := by
  unfold Sys2Proof.Machine.State.setLoadState
  try dsimp only [State.done, Result.andThen]
  all_goals repeat' first
    | exact h
    | with_reducible apply Keeps.setLoadout

theorem Keeps.judgeLoaded (h : Keeps s t) :
    Keeps s (Sys2Proof.Machine.judgeLoaded t).1 := by
  unfold Sys2Proof.Machine.judgeLoaded
  try dsimp only [State.done, Result.andThen]
  repeat' split
  all_goals try dsimp only [State.done, Result.andThen]
  all_goals repeat' first
    | exact h
    | with_reducible apply Keeps.putOrder | with_reducible apply Keeps.raise

theorem Keeps.chooseLine (h : Keeps s t) :
    Keeps s (Sys2Proof.Machine.chooseLine t).1 := by
  unfold Sys2Proof.Machine.chooseLine
  try dsimp only [State.done, Result.andThen]
  repeat' split
  all_goals try dsimp only [State.done, Result.andThen]
  all_goals repeat' first
    | exact h
    | with_reducible apply Keeps.judgeLoaded | with_reducible apply Keeps.setLoadState | with_reducible apply
    Keeps.setCurrent | with_reducible apply Keeps.raise

theorem Keeps.judgeCompartment (h : Keeps s t) (o : Order) (k : Nat) :
    Keeps s (Sys2Proof.Machine.judgeCompartment t o k) := by
  unfold Sys2Proof.Machine.judgeCompartment
  try dsimp only [State.done, Result.andThen]
  repeat' split
  all_goals try dsimp only [State.done, Result.andThen]
  all_goals repeat' first
    | exact h
    | with_reducible apply Keeps.raise

theorem Keeps.postBag (h : Keeps s t) (order : Nat) (line : Nat) :
    Keeps s (Sys2Proof.Machine.postBag t order line).1 := by
  unfold Sys2Proof.Machine.postBag
  try dsimp only [State.done, Result.andThen]
  repeat' split
  all_goals try dsimp only [State.done, Result.andThen]
  all_goals repeat' first
    | exact h
    | with_reducible apply Keeps.judgeLoaded | with_reducible apply Keeps.putOrder | with_reducible apply
    Keeps.raise

theorem Keeps.holdLoadout (h : Keeps s t) (reason : LoadReason) (cause : LoadCause) :
    Keeps s (Sys2Proof.Machine.holdLoadout t reason cause).1 := by
  unfold Sys2Proof.Machine.holdLoadout
  try dsimp only [State.done, Result.andThen]
  all_goals repeat' first
    | exact h
    | with_reducible apply Keeps.setLoadState | with_reducible apply Keeps.endTransfer | with_reducible apply
    Keeps.raise

theorem Keeps.startLoading (h : Keeps s t) (retrying : Bool) : Keeps s (Sys2Proof.Machine.startLoading t retrying).1 := by
  unfold Sys2Proof.Machine.startLoading
  split
  · exact h
  · dsimp only
    repeat' split
    · exact ((h.putOrder _).setLoadout _).holdLoadout _ _
    · exact ((h.putOrder _).setLoadout _).holdLoadout _ _
    · exact ((h.putOrder _).setLoadout _).holdLoadout _ _
    · next hr => exact ((h.putOrder _).setLoadout _).openTransfer _ _ _ (transferRefusal_stopped hr)

theorem Keeps.presentLoad (h : Keeps s t) :
    Keeps s (Sys2Proof.Machine.presentLoad t).1 := by
  unfold Sys2Proof.Machine.presentLoad
  try dsimp only [State.done, Result.andThen]
  repeat' split
  all_goals try dsimp only [State.done, Result.andThen]
  all_goals repeat' first
    | exact h
    | with_reducible apply Keeps.setLoadout | with_reducible apply Keeps.presentDose

theorem Keeps.finishLine (h : Keeps s t) (o : Order) (i : Nat) (l : OrderLine) (status : LineStatus) :
    Keeps s (Sys2Proof.Machine.finishLine t o i l status).1 := by
  unfold Sys2Proof.Machine.finishLine
  try dsimp only [State.done, Result.andThen]
  all_goals repeat' first
    | exact h
    | with_reducible apply Keeps.judgeCompartment | with_reducible apply Keeps.putOrder | with_reducible apply
    Keeps.closeHeld

theorem Keeps.loadDoseEnded (h : Keeps s t) (rep : DoseReport) (consumed : List (Nat × Nat)) :
    Keeps s (Sys2Proof.Machine.loadDoseEnded t rep consumed).1 := by
  unfold Sys2Proof.Machine.loadDoseEnded
  try dsimp only [State.done, Result.andThen]
  all_goals repeat' first
    | exact h
    | with_reducible apply Keeps.endTransfer

theorem Keeps.finishLoad (h : Keeps s t) (rep : DoseReport) (consumed : List (Nat × Nat)) :
    Keeps s (Sys2Proof.Machine.finishLoad t rep consumed).1 := by
  unfold Sys2Proof.Machine.finishLoad
  try dsimp only [State.done, Result.andThen]
  repeat' split
  all_goals try dsimp only [State.done, Result.andThen]
  all_goals repeat' first
    | exact h
    | with_reducible apply Keeps.finishLine | with_reducible apply Keeps.holdLoadout | with_reducible apply
    Keeps.putCompartment | with_reducible apply Keeps.putOrder

theorem Keeps.truckTare (h : Keeps s t) :
    Keeps s (Sys2Proof.Machine.truckTare t).1 := by
  unfold Sys2Proof.Machine.truckTare
  try dsimp only [State.done, Result.andThen]
  repeat' split
  all_goals try dsimp only [State.done, Result.andThen]
  all_goals repeat' first
    | exact h
    | with_reducible apply Keeps.chooseLine | with_reducible apply Keeps.setLoadout | with_reducible apply
    Keeps.raise

theorem Keeps.loadTransferFailed (h : Keeps s t) (cause : LoadCause) :
    Keeps s (Sys2Proof.Machine.loadTransferFailed t cause).1 := by
  unfold Sys2Proof.Machine.loadTransferFailed
  try dsimp only [State.done, Result.andThen]
  repeat' split
  all_goals try dsimp only [State.done, Result.andThen]
  all_goals repeat' first
    | exact h
    | with_reducible apply Keeps.holdLoadout | with_reducible apply Keeps.endTransfer

theorem Keeps.stopLoadout (h : Keeps s t) :
    Keeps s (Sys2Proof.Machine.stopLoadout t).1 := by
  unfold Sys2Proof.Machine.stopLoadout
  try dsimp only [State.done, Result.andThen]
  repeat' split
  all_goals try dsimp only [State.done, Result.andThen]
  all_goals repeat' first
    | exact h
    | with_reducible apply Keeps.holdLoadout | with_reducible apply Keeps.endTransfer

/-! ### Router.lean -/

theorem Keeps.slotOrNotice (h : Keeps s t) (e : Event) :
    Keeps s (Sys2Proof.Machine.slotOrNotice t e).1 := by
  unfold Sys2Proof.Machine.slotOrNotice
  try dsimp only [State.done, Result.andThen]
  repeat' split
  all_goals try dsimp only [State.done, Result.andThen]
  all_goals repeat' first
    | exact h
    | with_reducible apply Keeps.pendNotice | with_reducible apply Keeps.slotCount

/-! ### Cascade.lean -/

theorem Keeps.handReport (h : Keeps s t) (rep : DoseReport) (consumed : List (Nat × Nat)) :
    Keeps s (Sys2Proof.Machine.handReport t rep consumed).1 := by
  unfold Sys2Proof.Machine.handReport
  try dsimp only [State.done, Result.andThen]
  repeat' split
  all_goals try dsimp only [State.done, Result.andThen]
  all_goals repeat' first
    | exact h
    | with_reducible apply Keeps.loadDoseEnded | with_reducible apply Keeps.bagDoseEnded | with_reducible apply
    Keeps.stepDoseEnded

theorem Keeps.tellFlowing (h : Keeps s t)  (w : Owner) :
    Keeps s (Sys2Proof.Machine.tellFlowing t w).1 := by
  unfold Sys2Proof.Machine.tellFlowing
  try dsimp only [State.done, Result.andThen]
  repeat' split
  all_goals try dsimp only [State.done, Result.andThen]
  all_goals repeat' first
    | exact h
    | with_reducible apply Keeps.presentLoad | with_reducible apply Keeps.tryBegin | with_reducible apply
    Keeps.presentStep | with_reducible apply Keeps.releaseFlowing

theorem Keeps.tellAborted (h : Keeps s t) (o : Owner) :
    Keeps s (Sys2Proof.Machine.tellAborted t o).1 := by
  unfold Sys2Proof.Machine.tellAborted
  try dsimp only [State.done, Result.andThen]
  repeat' split
  all_goals try dsimp only [State.done, Result.andThen]
  all_goals repeat' first
    | exact h
    | with_reducible apply Keeps.loadTransferFailed | with_reducible apply Keeps.bagTransferLost | with_reducible
    apply Keeps.pressTransferFailed | with_reducible apply Keeps.millTransferFailed | with_reducible apply
    Keeps.stepTransferFailed | with_reducible apply Keeps.holdMixer | with_reducible apply Keeps.endOpenDose |
    with_reducible apply Keeps.endTransfer

theorem Keeps.tellNoPermit (h : Keeps s t) (o : Owner) :
    Keeps s (Sys2Proof.Machine.tellNoPermit t o).1 := by
  unfold Sys2Proof.Machine.tellNoPermit
  try dsimp only [State.done, Result.andThen]
  repeat' split
  all_goals try dsimp only [State.done, Result.andThen]
  all_goals repeat' first
    | exact h
    | with_reducible apply Keeps.loadTransferFailed | with_reducible apply Keeps.bagTransferExpired | with_reducible
    apply Keeps.pressTransferFailed | with_reducible apply Keeps.millTransferFailed | with_reducible apply
    Keeps.stepTransferFailed | with_reducible apply Keeps.holdMixer | with_reducible apply Keeps.endTransfer

theorem Keeps.presentAgain (h : Keeps s t)  (w : Scale) :
    Keeps s (Sys2Proof.Machine.presentAgain t w).1 := by
  unfold Sys2Proof.Machine.presentAgain
  try dsimp only [State.done, Result.andThen]
  repeat' split
  all_goals try dsimp only [State.done, Result.andThen]
  all_goals repeat' first
    | exact h
    | with_reducible apply Keeps.presentLoad | with_reducible apply Keeps.presentBag | with_reducible apply
    Keeps.presentStep

theorem Keeps.judgeSample (h : Keeps s t)  (w : Scale) :
    Keeps s (Sys2Proof.Machine.judgeSample t w).1 := by
  unfold Sys2Proof.Machine.judgeSample
  try dsimp only [State.done, Result.andThen]
  repeat' split
  all_goals try dsimp only [State.done, Result.andThen]
  all_goals repeat' first
    | exact h
    | with_reducible apply Keeps.truckTare | with_reducible apply Keeps.judgeDischarge


/-- One task keeps what `Keeps` lists. -/
theorem Keeps.handle (h : Keeps s t) (x : Task) : Keeps s (Sys2Proof.Machine.handle x t).1 := by
  cases x <;> dsimp only [Sys2Proof.Machine.handle, State.done]
  case posted b => exact h.millJudgePosting b
  case highCovered b => exact h.millJudgeProbe b
  case toppedUp id => exact h.shortResume id
  case raise e => exact h.raise e
  case stopDose sc => exact h.endOpenDose sc .stopped
  case doseEnded rep consumed => exact h.handReport rep consumed
  case channelFree sc => exact h.presentAgain sc
  case sampled sc => exact h.judgeSample sc
  case grantScan => exact h.grantScan
  case judgeTransfer slot => exact h.judgeTransfer slot
  case ownerFlowing o => exact h.tellFlowing o
  case ownerAborted o => exact h.tellAborted o
  case ownerNoPermit o => exact h.tellNoPermit o
  case stopBatches => exact h.stopBatches
  case stopMill => exact h.stopMill
  case stopPress p => exact h.stopPress p
  case stopBagger => exact h.stopBagger
  case stopLoadout => exact h.stopLoadout
  case startSelection => exact h.startSelection
  case takeStep n sc => exact h.takeStep n sc
  case finishStep n i ending => exact h.finishStep n i ending
  case tryDischarge => exact h.tryDischarge
  case roomCheck => exact h.roomCheck
  case roomCheckAt b => exact h.roomCheckAt b
  case finishRelease n => exact h.finishRelease n
  case finishGrind n => exact h.finishGrind n
  case finishNoFlow n => exact h.finishNoFlow n
  case serving => exact h.serving
  case servingOrIdle => exact h.servingOrIdle
  case millRun => exact h.enterRunning
  case millWatch => exact h.millWatch
  case pressChange p => exact h.pressChange p
  case pressEnter p n => exact h.pressEnter p n
  case delayExpired p => exact h.delayExpiry p
  case pressWatch p => exact h.pressWatch p
  case starvedJudge p => exact h.starvedJudge p
  case finishChoke p i => exact h.finishChoke p i
  case finishStarved p run => exact h.finishStarved p run
  case finishPressStop p => exact h.finishPressStop p
  case carryForward p b removed consumed boundaries => exact h.carryForward p b removed consumed boundaries
  case slotTrigger p => exact h.triggerIf p _
  case enterWaitBag => exact h.enterWaitBag
  case tryBegin => exact h.tryBegin
  case becomeHead => exact h.becomeHead
  case finishBagRun run cause => exact h.finishBagRun run cause
  case bagStart => exact h.commandStart
  case finishLoad rep consumed => exact h.finishLoad rep consumed
  case chooseLine => exact h.chooseLine
  case judgeLoaded => exact h.judgeLoaded
  case postBag o l => exact h.postBag o l
  case releaseBatch => exact h.releaseOldest
  case listenSource p e => exact h.triggerIf p _
  case listenSurgeLow p e => split; exacts [h.triggerIf p _, h]
  case listenBagStop n e => split; exacts [h.takeStop _, h]
  case listenBagStart n e => split; exacts [h.takeStart _, h]
  case listenGrind e => split; exacts [h.autoGrind _, h]
  case listenBatch e =>
    split
    · split; exacts [h.startSelection, h]
    · exact h
  case listenShort e => split; exacts [h.shortResume _, h]
  case slotOrNotice e => exact h.slotOrNotice e
  case slotCount k => exact h.slotCount k

/-- Running tasks keeps what `Keeps` lists, however many run. -/
theorem Keeps.runTasks : ∀ (fuel : Nat) {l : List Task} {s t u : State}, Keeps s t →
    Sys2Proof.Machine.runTasks fuel l t = some u → Keeps s u := by
  intro fuel
  induction fuel with
  | zero =>
    intro l s t u h hu
    cases l with
    | nil => simp only [Sys2Proof.Machine.runTasks, Option.some.injEq] at hu; exact hu ▸ h
    | cons x l => simp [Sys2Proof.Machine.runTasks] at hu
  | succ fuel ih =>
    intro l s t u h hu
    cases l with
    | nil => simp only [Sys2Proof.Machine.runTasks, Option.some.injEq] at hu; exact hu ▸ h
    | cons x l => exact ih (h.handle x) hu

/-- Everything that follows from an operation keeps what `Keeps` lists. -/
theorem Keeps.settle {r : Result} {u : State} (h : Keeps s r.1) (hu : Sys2Proof.Machine.settle r = some u) : Keeps s u :=
  Keeps.runTasks _ h hu


end Sys2Proof.Machine
end

