-- ==== Sys2Proof/Laws/Serve.lean ====
section
/-! SUPPORT. How a command ends: running its tasks, taking a request, judging it and answering it. -/

namespace Sys2Proof.Machine

/-! ### Running tasks -/

@[simp] theorem runTasks_nil (fuel : Nat) (s : State) : runTasks fuel [] s = some s := by cases fuel <;> rfl

theorem runTasks_cons (fuel : Nat) (t : Task) (ts : List Task) (s : State) :
    runTasks (fuel + 1) (t :: ts) s = runTasks fuel ((handle t s).2 ++ ts) (handle t s).1 := rfl

/-- A task that changes nothing and leaves nothing to do. -/
def Inert (t : Task) (s : State) : Prop := handle t s = (s, [])

theorem runTasks_inert {l : List Task} {s : State} : ∀ {fuel : Nat}, l.length ≤ fuel → (∀ t ∈ l, Inert t s) →
    runTasks fuel l s = some s := by
  induction l with
  | nil => intro fuel _ _; exact runTasks_nil fuel s
  | cons t l ih =>
    intro fuel hf hi
    obtain ⟨fuel, rfl⟩ : ∃ n, fuel = n + 1 := ⟨fuel - 1, by simp at hf; omega⟩
    rw [runTasks_cons, show handle t s = (s, []) from hi t List.mem_cons_self]
    exact ih (by simp at hf; omega) fun x hx => hi x (List.mem_cons_of_mem _ hx)

@[simp] theorem settle_done (s : State) : settle (s, []) = some s := rfl

theorem settle_inert {s : State} {l : List Task} (hl : l.length ≤ Config.cascadeBound) (hi : ∀ t ∈ l, Inert t s) :
    settle (s, l) = some s := runTasks_inert hl hi

@[simp] theorem outcome_done (s : State) : outcome (s, []) = .next s := rfl

theorem outcome_of_settle {r : Result} {u : State} (h : settle r = some u) : outcome r = .next u := by
  simp [outcome, h]

theorem outcome_next {r : Result} {t : State} (h : outcome r = .next t) : settle r = some t := by
  unfold outcome at h
  split at h
  · next u hu => rw [hu]; simpa using h
  · cases h

/-! ### Taking and answering a request -/

@[simp] theorem dropFrame_replies (s : State) : (dropFrame s).link.replies = s.link.replies := rfl

theorem takes_eq {s : State} {c : Instr} (h : s.replyRoom = true) : s.takes c = s.turnOf c := by simp [State.takes, h]

@[simp] theorem turnOf_idle {s : State} {c : Instr} (h : s.link.rxQueue = []) : s.turnOf c = true := by
  simp [State.turnOf, h]

theorem serve_full {c : Instr} {judge : State → Verdict} {s : State} (h : s.takes c = false) :
    serve c judge s = .next s := by simp [serve, h]

theorem serve_refuse {c : Instr} {judge : State → Verdict} {s : State} (h : s.takes c = true) {code : ReplyCode}
    {index : Nat} (hj : judge (dropFrame s) = .refuse code index) :
    serve c judge s = .next (answer (dropFrame s) (replyTo c code index [])) := by
  simp [serve, h, hj]

theorem serve_accept {c : Instr} {judge : State → Verdict} {s : State} (h : s.takes c = true) {r : Result}
    {items : State → List Item} (hj : judge (dropFrame s) = .accept r items) {u : State} (hu : settle r = some u) :
    serve c judge s = .next (answer u (replyTo c .ok 0 (items u))) := by
  simp [serve, h, hj, hu]

theorem serve_plain {c : Instr} {judge : State → Verdict} {s : State} (h : s.takes c = true) {u : State}
    {items : List Item} (hj : judge (dropFrame s) = plain u items) :
    serve c judge s = .next (answer u (replyTo c .ok 0 items)) :=
  serve_accept (u := u) h hj rfl

/-- Everything a request can do: nothing while it is not taken; a refusal; or an execution that is answered. -/
theorem serve_next {c : Instr} {judge : State → Verdict} {s t : State} (h : serve c judge s = .next t) :
    (s.takes c = false ∧ t = s) ∨
    (s.takes c = true ∧ ∃ code index, judge (dropFrame s) = .refuse code index ∧
      t = answer (dropFrame s) (replyTo c code index [])) ∨
    (s.takes c = true ∧ ∃ r items u, judge (dropFrame s) = .accept r items ∧ settle r = some u ∧
      t = answer u (replyTo c .ok 0 (items u))) := by
  unfold serve at h
  split at h
  · next hr =>
    split at h
    · next code index hj => simp only [Host.Outcome.next.injEq] at h; exact .inr (.inl ⟨hr, _, _, hj, h.symm⟩)
    · next r items hj =>
      split at h
      · next u hu => simp only [Host.Outcome.next.injEq] at h; exact .inr (.inr ⟨hr, r, items, u, hj, hu, h.symm⟩)
      · cases h
  · next hr => simp only [Host.Outcome.next.injEq] at h; exact .inl ⟨by simpa using hr, h.symm⟩

/-! ### Checks -/

@[simp] theorem checked_nil (v : Verdict) : checked [] v = v := rfl
@[simp] theorem checked_pass (code : ReplyCode) (l : List (Bool × ReplyCode)) (v : Verdict) :
    checked ((true, code) :: l) v = checked l v := rfl
@[simp] theorem checked_fail (code : ReplyCode) (l : List (Bool × ReplyCode)) (v : Verdict) :
    checked ((false, code) :: l) v = .refuse code 0 := rfl

/-! ### The two shapes of a request that is taken -/

/-- A request with room for its reply does in its turn what it does when taken, and nothing before. -/
theorem serve_inTurn {c : Instr} {judge : State → Verdict} {s t : State} (h : s.replyRoom = true)
    (ht : s.takes c = true → serve c judge s = .next t) : serve c judge s = inTurn s c t := by
  by_cases hc : s.turnOf c = true
  · simp [inTurn, hc, ht (by rw [takes_eq h, hc])]
  · simp only [Bool.not_eq_true] at hc
    simp [inTurn, hc, serve_full (show s.takes c = false by rw [takes_eq h, hc])]

/-- A request that every state with another Link Port accepts, with an execution that ends in `f` of that state. -/
theorem serve_accepted {c : Instr} {judge : State → Verdict} {s : State} {f : State → State} {items : State → List Item}
    (h : s.replyRoom = true)
    (hj : ∀ l : Link, ∃ r more, judge (s.setLink l) = .accept r more ∧ settle r = some (f (s.setLink l)) ∧
      more (f (s.setLink l)) = items (f (s.setLink l))) : serve c judge s = accepted s c f items := by
  obtain ⟨r, more, h1, h2, h3⟩ := hj { s.link with rxQueue := s.link.rxQueue.tail }
  refine serve_inTurn h fun ht => ?_
  rw [serve_accept ht h1 h2, h3]
  rfl

/-- The same for an execution after which nothing further follows. -/
theorem serve_plainly {c : Instr} {judge : State → Verdict} {s : State} {f : State → State} {items : State → List Item}
    (h : s.replyRoom = true) (hj : ∀ l : Link, judge (s.setLink l) = plain (f (s.setLink l)) (items (f (s.setLink l)))) :
    serve c judge s = accepted s c f items :=
  serve_accepted h fun l => ⟨_, _, hj l, rfl, rfl⟩

/-- A request that every state with another Link Port refuses. -/
theorem serve_refused {c : Instr} {judge : State → Verdict} {s : State} {code : ReplyCode} {index : Nat}
    (h : s.replyRoom = true) (hj : ∀ l : Link, judge (s.setLink l) = .refuse code index) :
    serve c judge s = refusedWith s c code index :=
  serve_inTurn h fun ht => serve_refuse ht (hj _)

end Sys2Proof.Machine
end

