-- ==== Sys2Proof/Laws/Commands.lean ====
section
/-! SUPPORT. What the commands keep. A request that is taken keeps what `Keeps` lists, but for its frame and its reply; an event keeps all of
it. The commands of the link, the store, the reset, the levels and the Line Stop are left to their own statements. -/

set_option linter.unusedTactic false
set_option linter.unreachableTactic false

namespace Sys2Proof.Machine

-- The proofs are checked one after another: checked side by side, their threads would take too much memory in one file.
set_option Elab.async false

variable {s t : State}

/-- What a verdict keeps of the state it is given in. -/
def Verdict.Keeps (s : State) : Verdict → Prop
  | .refuse _ _ => True
  | .accept r _ => Sys2Proof.Machine.Keeps s r.1

theorem accept_keeps {r : Result} {items : State → List Item} (h : Sys2Proof.Machine.Keeps s r.1) :
    (Verdict.accept r items).Keeps s := h

theorem refuse_keeps {code : ReplyCode} {i : Nat} : (Verdict.refuse code i).Keeps s := trivial

theorem plain_keeps {u : State} {items : List Item} (h : Keeps s u) : (plain u items).Keeps s := h

theorem checked_keeps {v : Verdict} (h : v.Keeps s) : ∀ l : List (Bool × ReplyCode), (checked l v).Keeps s
  | [] => h
  | (true, _) :: l => checked_keeps h l
  | (false, _) :: _ => trivial

/-- The same, where the verdict needs what was checked. -/
theorem checked_keeps_of {v : Verdict} : ∀ l : List (Bool × ReplyCode), ((∀ e ∈ l, e.1 = true) → v.Keeps s) →
    (checked l v).Keeps s
  | [], h => h (by simp)
  | (true, _) :: l, h => checked_keeps_of l fun hl => h (by simpa using hl)
  | (false, _) :: _, _ => trivial

/-- A request's end: nothing, or a state that keeps what `Keeps` lists of the one in which it was judged, with one reply more. -/
def RequestKeeps (c : Instr) (s t : State) : Prop :=
  t = s ∨ (s.takes c = true ∧ ∃ u r, Keeps (dropFrame s) u ∧ t = answer u r)

theorem serve_keeps {c : Instr} {judge : State → Verdict} (hj : ∀ u, (judge u).Keeps u) (h : serve c judge s = .next t) :
    RequestKeeps c s t := by
  rcases serve_next h with ⟨_, rfl⟩ | ⟨hr, code, index, _, rfl⟩ | ⟨hr, r, items, u, hv, hu, rfl⟩
  · exact .inl rfl
  · exact .inr ⟨hr, _, _, Keeps.refl _, rfl⟩
  · have := hj (dropFrame s)
    rw [hv] at this
    exact .inr ⟨hr, u, _, this.settle hu, rfl⟩

theorem outcome_keeps {r : Result} (hr : Keeps s r.1) (h : outcome r = .next t) : Keeps s t := hr.settle (outcome_next h)

theorem atPress_keeps {n : Nat} {f : PressId → Result} (hf : ∀ p, Keeps s (f p).1) (h : atPress n s f = .next t) :
    Keeps s t := by
  unfold atPress at h
  split at h
  · exact outcome_keeps (hf _) h
  · simp only [Host.Outcome.next.injEq] at h; exact h ▸ Keeps.refl s

/-! ### WeighCommands.lean -/

theorem Keeps.lowerInflights (h : Keeps s t) (sc : Scale) (fmax : Nat) :
    Keeps s (Sys2Proof.Machine.lowerInflights t sc fmax) := by
  have hg : ∀ b v, Table.get (Sys2Proof.Machine.lowerInflights t sc fmax).inv.bins b = some v →
      ∃ w, Table.get t.inv.bins b = some w ∧ v.onHand = w.onHand ∧ v.cfg = w.cfg := by
    intro b v hv
    have he : (Sys2Proof.Machine.lowerInflights t sc fmax).inv.bins = t.inv.bins.map (fun e => (e.1,
        if outletScale e.2.cfg.outlet = some sc ∧ fmax < e.2.inflight then { e.2 with inflight := fmax } else e.2)) := by
      unfold Sys2Proof.Machine.lowerInflights
      simp only [State.setInv_inv]
      refine List.map_congr_left fun e _ => ?_
      split_ifs <;> rfl
    rw [he, Table.get_map t.inv.bins (fun w : Bin => if outletScale w.cfg.outlet = some sc ∧ fmax < w.inflight then { w with inflight := fmax } else w)] at hv
    cases hw : Table.get t.inv.bins b with
    | none => simp [hw] at hv
    | some w =>
      refine ⟨w, rfl, ?_⟩
      rw [hw] at hv
      simp only [Option.map_some, Option.some.injEq] at hv
      subst hv
      split_ifs <;> exact ⟨rfl, rfl⟩
  have hs : ∀ b, (Table.get t.inv.bins b).isSome = true →
      (Table.get (Sys2Proof.Machine.lowerInflights t sc fmax).inv.bins b).isSome = true := by
    intro b hb
    have he : (Sys2Proof.Machine.lowerInflights t sc fmax).inv.bins = t.inv.bins.map (fun e => (e.1,
        if outletScale e.2.cfg.outlet = some sc ∧ fmax < e.2.inflight then { e.2 with inflight := fmax } else e.2)) := by
      unfold Sys2Proof.Machine.lowerInflights
      simp only [State.setInv_inv]
      refine List.map_congr_left fun e _ => ?_
      split_ifs <;> rfl
    rw [he, Table.get_map t.inv.bins (fun w : Bin => if outletScale w.cfg.outlet = some sc ∧ fmax < w.inflight then { w with inflight := fmax } else w)]
    simpa using hb
  refine h.setInv _ (fun hl => ⟨fun r hr => ⟨hs _ (hl.1 r hr).1, (hl.1 r hr).2⟩, hl.2.1, hl.2.2.1, fun b v hv => ?_⟩)
    (fun ho b v hv => ?_)
  · obtain ⟨w, hw, h1, _⟩ := hg b v hv
    rw [h1]; exact hl.2.2.2 b w hw
  · obtain ⟨w, hw, h1, h2⟩ := hg b v hv
    rw [h1, h2]; exact ho b w hw

theorem execChannelSet_keeps (tag : Byte) (channel : Nat) (cfg : ChannelConfig) (h : execChannelSet tag channel cfg s = .next t) : RequestKeeps (.channelSet tag channel cfg) s t := by
  refine serve_keeps (fun u => ?_) h
  try dsimp only
  repeat' first
    | exact refuse_keeps
    | exact Keeps.refl _
    | (refine (Keeps.refl _).touch (by assumption) ?_ ?_ ?_ <;> rfl)
    | exact (Keeps.refl _).setArb _ rfl (fun _ => id) id
    | with_reducible apply plain_keeps
    | with_reducible apply accept_keeps
    | with_reducible apply checked_keeps
    | with_reducible apply withBin_keeps
    | with_reducible apply withBatch_keeps
    | with_reducible apply withGrind_keeps
    | with_reducible apply withPress_keeps
    | with_reducible apply withHead_keeps
    | with_reducible apply withLine_keeps
    | intro _
    | dsimp only [State.done, Result.andThen]
    | split
    | with_reducible apply Keeps.lowerInflights | with_reducible apply Keeps.setChan

theorem execChannelRead_keeps (tag : Byte) (channel : Nat) (h : execChannelRead tag channel s = .next t) : RequestKeeps (.channelRead tag channel) s t := by
  refine serve_keeps (fun u => ?_) h
  try dsimp only
  repeat' first
    | exact refuse_keeps
    | exact Keeps.refl _
    | (refine (Keeps.refl _).touch (by assumption) ?_ ?_ ?_ <;> rfl)
    | exact (Keeps.refl _).setArb _ rfl (fun _ => id) id
    | with_reducible apply plain_keeps
    | with_reducible apply accept_keeps
    | with_reducible apply checked_keeps
    | with_reducible apply withBin_keeps
    | with_reducible apply withBatch_keeps
    | with_reducible apply withGrind_keeps
    | with_reducible apply withPress_keeps
    | with_reducible apply withHead_keeps
    | with_reducible apply withLine_keeps
    | intro _
    | dsimp only [State.done, Result.andThen]
    | split

theorem execZero_keeps (tag : Byte) (channel : Nat) (h : execZero tag channel s = .next t) : RequestKeeps (.zero tag channel) s t := by
  refine serve_keeps (fun u => ?_) h
  try dsimp only
  repeat' first
    | exact refuse_keeps
    | exact Keeps.refl _
    | (refine (Keeps.refl _).touch (by assumption) ?_ ?_ ?_ <;> rfl)
    | exact (Keeps.refl _).setArb _ rfl (fun _ => id) id
    | with_reducible apply plain_keeps
    | with_reducible apply accept_keeps
    | with_reducible apply checked_keeps
    | with_reducible apply withBin_keeps
    | with_reducible apply withBatch_keeps
    | with_reducible apply withGrind_keeps
    | with_reducible apply withPress_keeps
    | with_reducible apply withHead_keeps
    | with_reducible apply withLine_keeps
    | intro _
    | dsimp only [State.done, Result.andThen]
    | split
    | with_reducible apply Keeps.setChan

theorem execCalSpan_keeps (tag : Byte) (channel : Nat) (mass : Nat) (h : execCalSpan tag channel mass s = .next t) : RequestKeeps (.calSpan tag channel mass) s t := by
  refine serve_keeps (fun u => ?_) h
  try dsimp only
  repeat' first
    | exact refuse_keeps
    | exact Keeps.refl _
    | (refine (Keeps.refl _).touch (by assumption) ?_ ?_ ?_ <;> rfl)
    | exact (Keeps.refl _).setArb _ rfl (fun _ => id) id
    | with_reducible apply plain_keeps
    | with_reducible apply accept_keeps
    | with_reducible apply checked_keeps
    | with_reducible apply withBin_keeps
    | with_reducible apply withBatch_keeps
    | with_reducible apply withGrind_keeps
    | with_reducible apply withPress_keeps
    | with_reducible apply withHead_keeps
    | with_reducible apply withLine_keeps
    | intro _
    | dsimp only [State.done, Result.andThen]
    | split
    | with_reducible apply Keeps.setChan

theorem execInflightSet_keeps (tag : Byte) (bin : Nat) (value : Nat) (h : execInflightSet tag bin value s = .next t) : RequestKeeps (.inflightSet tag bin value) s t := by
  refine serve_keeps (fun u => ?_) h
  try dsimp only
  repeat' first
    | exact refuse_keeps
    | exact Keeps.refl _
    | (refine (Keeps.refl _).touch (by assumption) ?_ ?_ ?_ <;> rfl)
    | exact (Keeps.refl _).setArb _ rfl (fun _ => id) id
    | with_reducible apply plain_keeps
    | with_reducible apply accept_keeps
    | with_reducible apply checked_keeps
    | with_reducible apply withBin_keeps
    | with_reducible apply withBatch_keeps
    | with_reducible apply withGrind_keeps
    | with_reducible apply withPress_keeps
    | with_reducible apply withHead_keeps
    | with_reducible apply withLine_keeps
    | intro _
    | dsimp only [State.done, Result.andThen]
    | split

theorem execChannelSample_keeps (channel : Nat) (count : Int) (valid : Bool) (h : execChannelSample channel count valid s = .next t) : Keeps s t := by
  unfold execChannelSample at h
  try dsimp only at h
  first
    | refine outcome_keeps ?_ h
    | (split at h <;> [refine outcome_keeps ?_ h; (simp only [Host.Outcome.next.injEq] at h; exact h ▸ Keeps.refl s)])
  try dsimp only [State.done, Result.andThen]
  repeat' first
    | exact Keeps.refl _
    | split
    | with_reducible apply Keeps.takeSample

theorem execTareTimeout_keeps (channel : Nat) (h : execTareTimeout channel s = .next t) : Keeps s t := by
  unfold execTareTimeout at h
  try dsimp only at h
  first
    | refine outcome_keeps ?_ h
    | (split at h <;> [refine outcome_keeps ?_ h; (simp only [Host.Outcome.next.injEq] at h; exact h ▸ Keeps.refl s)])
  try dsimp only [State.done, Result.andThen]
  repeat' first
    | exact Keeps.refl _
    | split
    | with_reducible apply Keeps.tareExpiry

theorem execSettleTimeout_keeps (channel : Nat) (h : execSettleTimeout channel s = .next t) : Keeps s t := by
  unfold execSettleTimeout at h
  try dsimp only at h
  first
    | refine outcome_keeps ?_ h
    | (split at h <;> [refine outcome_keeps ?_ h; (simp only [Host.Outcome.next.injEq] at h; exact h ▸ Keeps.refl s)])
  try dsimp only [State.done, Result.andThen]
  repeat' first
    | exact Keeps.refl _
    | split
    | with_reducible apply Keeps.settleExpiry

theorem execJogTimeout_keeps (channel : Nat) (h : execJogTimeout channel s = .next t) : Keeps s t := by
  unfold execJogTimeout at h
  try dsimp only at h
  first
    | refine outcome_keeps ?_ h
    | (split at h <;> [refine outcome_keeps ?_ h; (simp only [Host.Outcome.next.injEq] at h; exact h ▸ Keeps.refl s)])
  try dsimp only [State.done, Result.andThen]
  repeat' first
    | exact Keeps.refl _
    | split
    | with_reducible apply Keeps.jogExpiry

theorem execHandAddButtonPress_keeps  (h : execHandAddButtonPress s = .next t) : Keeps s t := by
  unfold execHandAddButtonPress at h
  try dsimp only at h
  first
    | refine outcome_keeps ?_ h
    | (split at h <;> [refine outcome_keeps ?_ h; (simp only [Host.Outcome.next.injEq] at h; exact h ▸ Keeps.refl s)])
  try dsimp only [State.done, Result.andThen]
  repeat' first
    | exact Keeps.refl _
    | split
    | with_reducible apply Keeps.handReady | with_reducible apply Keeps.takeOffered

/-! ### BinCommands.lean -/

theorem Keeps.takeFeeder (h : Keeps s t) (f : Feeder) : Keeps s (Sys2Proof.Machine.takeFeeder t f) := by
  unfold Sys2Proof.Machine.takeFeeder
  try dsimp only [State.done, Result.andThen]
  repeat' split
  all_goals try dsimp only [State.done, Result.andThen]
  all_goals repeat' first
    | exact h
    | with_reducible apply Keeps.setIO

theorem heldTotal_undefined {i : Inventory} (hl : i.LedgerOk) {b : Nat} (hb : Table.get i.bins b = none) :
    heldTotal i.reservations b = 0 := by
  have : reservationsOf i.reservations b = [] := by
    refine List.filter_eq_nil_iff.2 fun r hr => ?_
    have := (hl.1 r hr).1
    simp only [decide_eq_true_eq]
    rintro rfl
    simp [hb] at this
  simp [heldTotal, this]

theorem takeFeeder_inv (u : State) (f : Feeder) : (takeFeeder u f).inv = u.inv := by
  unfold takeFeeder; split <;> rfl

theorem Keeps.defineBin (h : Keeps s t) (b : Nat) (d : BinDef) (hm : d.highMark ≤ d.capacity)
    (hr : ∀ v, t.bin b = some v → v.onHand ≤ d.capacity) : Keeps s (Sys2Proof.Machine.defineBin t b d) := by
  have hone : ∀ {w : State}, w.inv = t.inv → Keeps s w → Keeps s (w.setBin b (redefined (t.bin b) d)) := by
    intro w hw hk
    have hon : (redefined (t.bin b) d).onHand = ((t.bin b).map (·.onHand)).getD 0 ∧
        (redefined (t.bin b) d).cfg = d := by
      unfold redefined; split <;> simp_all [bootBin]
    refine hk.setInv _ (fun hl => ?_) (fun ho => stockOk_setBin _ _ ?_ ho)
    · cases hb : t.bin b with
      | none =>
        rw [hw] at hl ⊢
        have hb' : Table.get t.inv.bins b = none := hb
        refine ⟨fun r hr => ⟨?_, (hl.1 r hr).2⟩, hl.2.1, hl.2.2.1, fun c v hv => ?_⟩
        · have := (hl.1 r hr).1
          simp only [Table.get_set]
          split_ifs <;> simp_all
        · simp only [Table.get_set] at hv
          split_ifs at hv with hc
          · subst hc
            rw [heldTotal_undefined hl hb']; omega
          · exact hl.2.2.2 c v hv
      | some v =>
        have hb' : Table.get w.inv.bins b = some v := by rw [hw]; exact hb
        refine ledgerOk_setBin hb' ?_ hl
        rw [hb] at hon
        simp [hon.1]
    · rw [hon.1, hon.2]
      refine ⟨?_, hm⟩
      cases hb : t.bin b with
      | none => simp
      | some v => simpa using hr v hb
  unfold Sys2Proof.Machine.defineBin
  simp only
  have hf : ∀ {w : State} (f : Feeder), w.inv = t.inv → Keeps s w →
      (Sys2Proof.Machine.takeFeeder w f).inv = t.inv ∧ Keeps s (Sys2Proof.Machine.takeFeeder w f) :=
    fun f hw hk => ⟨(takeFeeder_inv _ f).trans hw, hk.takeFeeder f⟩
  split
  · split_ifs
    · exact hone rfl h
    · have h1 := hf ‹Feeder› rfl h
      have h2 := hf d.feeder h1.1 h1.2
      exact hone h2.1 h2.2
  · have h1 := hf d.feeder rfl h
    exact hone h1.1 h1.2

theorem Keeps.undefineBin (h : Keeps s t) (b : Nat) (hb : t.inv.LedgerOk → binReserved t b = false) :
    Keeps s (Sys2Proof.Machine.undefineBin t b) := by
  have hone : ∀ {w : State}, w.inv = t.inv → Keeps s w → Keeps s (w.setInv { w.inv with bins := Table.del w.inv.bins b }) := by
    intro w hw hk
    refine hk.setInv _ (fun hl => ⟨fun r hr => ⟨?_, (hl.1 r hr).2⟩, hl.2.1, hl.2.2.1, fun c v hv => ?_⟩) (fun ho c v hv => ?_)
    · have h1 := (hl.1 r hr).1
      have h2 : r.bin ≠ b := by
        rw [hw] at hr hl
        have hb := hb hl
        simp only [binReserved, List.any_eq_false, decide_eq_true_eq] at hb
        exact hb r hr
      simp only [Table.get_del]
      split_ifs with hc
      · exact absurd hc.symm (by simpa using h2)
      · exact h1
    · simp only [Table.get_del] at hv
      split_ifs at hv
      exact hl.2.2.2 c v hv
    · simp only [Table.get_del] at hv
      split_ifs at hv
      exact ho c v hv
  unfold Sys2Proof.Machine.undefineBin
  simp only
  split
  · exact hone (takeFeeder_inv _ _) (h.takeFeeder _)
  · exact hone rfl h

theorem firstFailing_zero {l : List Bool} (h : firstFailing l = 0) : ∀ x ∈ l, x = true := by
  unfold firstFailing at h
  split at h
  · omega
  · next hn =>
    intro x hx
    simpa using List.findIdx?_eq_none_iff.1 hn x hx

theorem judgeDefine_keeps (b : Nat) (f : BinFields) (u : State) : (judgeDefine b f u).Keeps u := by
  unfold judgeDefine
  simp only
  split_ifs with h1 h2 h3
  · exact refuse_keeps
  · refine checked_keeps_of _ fun hc => ?_
    refine (Keeps.refl u).undefineBin b fun hl => ?_
    have := hc _ (List.mem_cons_of_mem _ List.mem_cons_self)
    cases hb : u.bin b with
    | none =>
      simp only [binReserved, List.any_eq_false, decide_eq_true_eq]
      rintro r hr rfl
      have h1 := (hl.1 r hr).1
      have h2 : Table.get u.inv.bins r.bin = none := hb
      simp [h2] at h1
    | some v => simp [hb] at this; exact this.1.2
  · exact refuse_keeps
  · split
    · refine checked_keeps_of _ fun hc => ?_
      next kind o feeder hk ho hf =>
      have hbad := firstFailing_zero (not_not.1 h3)
      have hm : f.highMark ≤ f.capacity := by
        have := hbad (decide (f.highMark ≤ f.capacity)) (by simp [binChecks])
        simpa using this
      refine (Keeps.refl u).defineBin b _ hm fun v hv => ?_
      have := hc _ (List.mem_cons_of_mem _ (List.mem_cons_of_mem _ List.mem_cons_self))
      simp only [hv, Bool.and_eq_true, decide_eq_true_eq] at this
      exact this.2
    · exact refuse_keeps

theorem execBinDefine_keeps (tag : Byte) (bin : Nat) (fields : BinFields) (h : execBinDefine tag bin fields s = .next t) :
    RequestKeeps (.binDefine tag bin fields) s t := serve_keeps (judgeDefine_keeps bin fields) h

theorem withBin_keeps {b : Nat} {f : Bin → Verdict} (h : ∀ v, s.bin b = some v → (f v).Keeps s) : (withBin s b f).Keeps s := by
  unfold withBin
  split
  · trivial
  · split
    · trivial
    · next v hv => exact h _ hv

theorem execBinRead_keeps (tag : Byte) (bin : Nat) (h : execBinRead tag bin s = .next t) : RequestKeeps (.binRead tag bin) s t := by
  refine serve_keeps (fun u => ?_) h
  try dsimp only
  repeat' first
    | exact refuse_keeps
    | exact Keeps.refl _
    | (refine (Keeps.refl _).touch (by assumption) ?_ ?_ ?_ <;> rfl)
    | exact (Keeps.refl _).setArb _ rfl (fun _ => id) id
    | with_reducible apply plain_keeps
    | with_reducible apply accept_keeps
    | with_reducible apply checked_keeps
    | with_reducible apply withBin_keeps
    | with_reducible apply withBatch_keeps
    | with_reducible apply withGrind_keeps
    | with_reducible apply withPress_keeps
    | with_reducible apply withHead_keeps
    | with_reducible apply withLine_keeps
    | intro _
    | dsimp only [State.done, Result.andThen]
    | split

theorem execBinCount_keeps (tag : Byte) (bin mass : Nat) (lotTag : Option Nat) (h : execBinCount tag bin mass lotTag s = .next t) :
    RequestKeeps (.binCount tag bin mass lotTag) s t := by
  refine serve_keeps (fun u => ?_) h
  split
  · exact refuse_keeps
  · split
    · exact refuse_keeps
    · next v hv =>
      split
      · exact refuse_keeps
      · next hm =>
        refine (Keeps.refl u).countBin _ _ _ fun w hw => ?_
        rw [hv] at hw; cases hw; omega

theorem execBinReceive_keeps (tag : Byte) (bin : Nat) (mass : Nat) (h : execBinReceive tag bin mass s = .next t) : RequestKeeps (.binReceive tag bin mass) s t := by
  refine serve_keeps (fun u => ?_) h
  try dsimp only
  repeat' first
    | exact refuse_keeps
    | exact Keeps.refl _
    | (refine (Keeps.refl _).touch (by assumption) ?_ ?_ ?_ <;> rfl)
    | exact (Keeps.refl _).setArb _ rfl (fun _ => id) id
    | with_reducible apply plain_keeps
    | with_reducible apply accept_keeps
    | with_reducible apply checked_keeps
    | with_reducible apply withBin_keeps
    | with_reducible apply withBatch_keeps
    | with_reducible apply withGrind_keeps
    | with_reducible apply withPress_keeps
    | with_reducible apply withHead_keeps
    | with_reducible apply withLine_keeps
    | intro _
    | dsimp only [State.done, Result.andThen]
    | split
    | with_reducible apply Keeps.fill

theorem execBinLock_keeps (tag : Byte) (bin : Nat) (h : execBinLock tag bin s = .next t) : RequestKeeps (.binLock tag bin) s t := by
  refine serve_keeps (fun u => ?_) h
  try dsimp only
  repeat' first
    | exact refuse_keeps
    | exact Keeps.refl _
    | (refine (Keeps.refl _).touch (by assumption) ?_ ?_ ?_ <;> rfl)
    | exact (Keeps.refl _).setArb _ rfl (fun _ => id) id
    | with_reducible apply plain_keeps
    | with_reducible apply accept_keeps
    | with_reducible apply checked_keeps
    | with_reducible apply withBin_keeps
    | with_reducible apply withBatch_keeps
    | with_reducible apply withGrind_keeps
    | with_reducible apply withPress_keeps
    | with_reducible apply withHead_keeps
    | with_reducible apply withLine_keeps
    | intro _
    | dsimp only [State.done, Result.andThen]
    | split
    | with_reducible apply Keeps.roomCheckAt

theorem execBinUnlock_keeps (tag : Byte) (bin : Nat) (h : execBinUnlock tag bin s = .next t) : RequestKeeps (.binUnlock tag bin) s t := by
  refine serve_keeps (fun u => ?_) h
  try dsimp only
  repeat' first
    | exact refuse_keeps
    | exact Keeps.refl _
    | (refine (Keeps.refl _).touch (by assumption) ?_ ?_ ?_ <;> rfl)
    | exact (Keeps.refl _).setArb _ rfl (fun _ => id) id
    | with_reducible apply plain_keeps
    | with_reducible apply accept_keeps
    | with_reducible apply checked_keeps
    | with_reducible apply withBin_keeps
    | with_reducible apply withBatch_keeps
    | with_reducible apply withGrind_keeps
    | with_reducible apply withPress_keeps
    | with_reducible apply withHead_keeps
    | with_reducible apply withLine_keeps
    | intro _
    | dsimp only [State.done, Result.andThen]
    | split
    | with_reducible apply Keeps.roomCheckAt

theorem execReservationRead_keeps (tag : Byte) (form : Nat) (key : Nat) (age : Nat) (h : execReservationRead tag form key age s = .next t) : RequestKeeps (.reservationRead tag form key age) s t := by
  refine serve_keeps (fun u => ?_) h
  try dsimp only
  repeat' first
    | exact refuse_keeps
    | exact Keeps.refl _
    | (refine (Keeps.refl _).touch (by assumption) ?_ ?_ ?_ <;> rfl)
    | exact (Keeps.refl _).setArb _ rfl (fun _ => id) id
    | with_reducible apply plain_keeps
    | with_reducible apply accept_keeps
    | with_reducible apply checked_keeps
    | with_reducible apply withBin_keeps
    | with_reducible apply withBatch_keeps
    | with_reducible apply withGrind_keeps
    | with_reducible apply withPress_keeps
    | with_reducible apply withHead_keeps
    | with_reducible apply withLine_keeps
    | intro _
    | dsimp only [State.done, Result.andThen]
    | split

theorem execHighProbeCovered_keeps (bin : Nat) (h : execHighProbeCovered bin s = .next t) : Keeps s t := by
  unfold execHighProbeCovered at h
  try dsimp only at h
  first
    | refine outcome_keeps ?_ h
    | (split at h <;> [refine outcome_keeps ?_ h; (simp only [Host.Outcome.next.injEq] at h; exact h ▸ Keeps.refl s)])
  try dsimp only [State.done, Result.andThen]
  repeat' first
    | exact Keeps.refl _
    | split
    | with_reducible apply Keeps.highCover | with_reducible apply Keeps.takeOffered

theorem execLowProbeUncovered_keeps (bin : Nat) (h : execLowProbeUncovered bin s = .next t) : Keeps s t := by
  unfold execLowProbeUncovered at h
  try dsimp only at h
  first
    | refine outcome_keeps ?_ h
    | (split at h <;> [refine outcome_keeps ?_ h; (simp only [Host.Outcome.next.injEq] at h; exact h ▸ Keeps.refl s)])
  try dsimp only [State.done, Result.andThen]
  repeat' first
    | exact Keeps.refl _
    | split
    | with_reducible apply Keeps.lowUncover | with_reducible apply Keeps.takeOffered

/-! ### PlantCommands.lean -/

theorem execInputDefine_keeps (tag : Byte) (input : Nat) (polarity : Nat) (debounce : Nat) (type : Nat) (use : Nat) (h : execInputDefine tag input polarity debounce type use s = .next t) : RequestKeeps (.inputDefine tag input polarity debounce type use) s t := by
  refine serve_keeps (fun u => ?_) h
  try dsimp only
  repeat' first
    | exact refuse_keeps
    | exact Keeps.refl _
    | (refine (Keeps.refl _).touch (by assumption) ?_ ?_ ?_ <;> rfl)
    | exact (Keeps.refl _).setArb _ rfl (fun _ => id) id
    | with_reducible apply plain_keeps
    | with_reducible apply accept_keeps
    | with_reducible apply checked_keeps
    | with_reducible apply withBin_keeps
    | with_reducible apply withBatch_keeps
    | with_reducible apply withGrind_keeps
    | with_reducible apply withPress_keeps
    | with_reducible apply withHead_keeps
    | with_reducible apply withLine_keeps
    | intro _
    | dsimp only [State.done, Result.andThen]
    | split
    | with_reducible apply Keeps.setPin

theorem Keeps.giveRole (h : Keeps s t) (n : Nat) (r : Option Role) : Keeps s (Sys2Proof.Machine.giveRole t n r) := by
  unfold Sys2Proof.Machine.giveRole
  try dsimp only [State.done, Result.andThen]
  repeat' split
  all_goals try dsimp only [State.done, Result.andThen]
  all_goals repeat' first
    | exact h
    | with_reducible apply Keeps.setIO

theorem execOutputDefine_keeps (tag : Byte) (output : Nat) (role : Nat) (h : execOutputDefine tag output role s = .next t) : RequestKeeps (.outputDefine tag output role) s t := by
  refine serve_keeps (fun u => ?_) h
  try dsimp only
  repeat' first
    | exact refuse_keeps
    | exact Keeps.refl _
    | (refine (Keeps.refl _).touch (by assumption) ?_ ?_ ?_ <;> rfl)
    | exact (Keeps.refl _).setArb _ rfl (fun _ => id) id
    | with_reducible apply plain_keeps
    | with_reducible apply accept_keeps
    | with_reducible apply checked_keeps
    | with_reducible apply withBin_keeps
    | with_reducible apply withBatch_keeps
    | with_reducible apply withGrind_keeps
    | with_reducible apply withPress_keeps
    | with_reducible apply withHead_keeps
    | with_reducible apply withLine_keeps
    | intro _
    | dsimp only [State.done, Result.andThen]
    | split
    | with_reducible apply Keeps.giveRole

theorem Keeps.switchFree (h : Keeps s t) (mask : Nat) (on : Bool) : Keeps s (Sys2Proof.Machine.switchFree t mask on) := by
  unfold Sys2Proof.Machine.switchFree
  try dsimp only [State.done, Result.andThen]
  repeat' split
  all_goals try dsimp only [State.done, Result.andThen]
  all_goals repeat' first
    | exact h
    | with_reducible apply Keeps.setIO

theorem execOutputSet_keeps (tag : Byte) (mask : Nat) (h : execOutputSet tag mask s = .next t) : RequestKeeps (.outputSet tag mask) s t := by
  refine serve_keeps (fun u => ?_) h
  try dsimp only
  repeat' first
    | exact refuse_keeps
    | exact Keeps.refl _
    | (refine (Keeps.refl _).touch (by assumption) ?_ ?_ ?_ <;> rfl)
    | exact (Keeps.refl _).setArb _ rfl (fun _ => id) id
    | with_reducible apply plain_keeps
    | with_reducible apply accept_keeps
    | with_reducible apply checked_keeps
    | with_reducible apply withBin_keeps
    | with_reducible apply withBatch_keeps
    | with_reducible apply withGrind_keeps
    | with_reducible apply withPress_keeps
    | with_reducible apply withHead_keeps
    | with_reducible apply withLine_keeps
    | intro _
    | dsimp only [State.done, Result.andThen]
    | split
    | with_reducible apply Keeps.switchFree

theorem execOutputClear_keeps (tag : Byte) (mask : Nat) (h : execOutputClear tag mask s = .next t) : RequestKeeps (.outputClear tag mask) s t := by
  refine serve_keeps (fun u => ?_) h
  try dsimp only
  repeat' first
    | exact refuse_keeps
    | exact Keeps.refl _
    | (refine (Keeps.refl _).touch (by assumption) ?_ ?_ ?_ <;> rfl)
    | exact (Keeps.refl _).setArb _ rfl (fun _ => id) id
    | with_reducible apply plain_keeps
    | with_reducible apply accept_keeps
    | with_reducible apply checked_keeps
    | with_reducible apply withBin_keeps
    | with_reducible apply withBatch_keeps
    | with_reducible apply withGrind_keeps
    | with_reducible apply withPress_keeps
    | with_reducible apply withHead_keeps
    | with_reducible apply withLine_keeps
    | intro _
    | dsimp only [State.done, Result.andThen]
    | split
    | with_reducible apply Keeps.switchFree

theorem execAnalogDefine_keeps (tag : Byte) (input : Nat) (bottom : Int) (top : Int) (h : execAnalogDefine tag input bottom top s = .next t) : RequestKeeps (.analogDefine tag input bottom top) s t := by
  refine serve_keeps (fun u => ?_) h
  try dsimp only
  repeat' first
    | exact refuse_keeps
    | exact Keeps.refl _
    | (refine (Keeps.refl _).touch (by assumption) ?_ ?_ ?_ <;> rfl)
    | exact (Keeps.refl _).setArb _ rfl (fun _ => id) id
    | with_reducible apply plain_keeps
    | with_reducible apply accept_keeps
    | with_reducible apply checked_keeps
    | with_reducible apply withBin_keeps
    | with_reducible apply withBatch_keeps
    | with_reducible apply withGrind_keeps
    | with_reducible apply withPress_keeps
    | with_reducible apply withHead_keeps
    | with_reducible apply withLine_keeps
    | intro _
    | dsimp only [State.done, Result.andThen]
    | split
    | with_reducible apply Keeps.setIO

theorem execAnalogSet_keeps (tag : Byte) (output : Nat) (value : Nat) (h : execAnalogSet tag output value s = .next t) : RequestKeeps (.analogSet tag output value) s t := by
  refine serve_keeps (fun u => ?_) h
  try dsimp only
  repeat' first
    | exact refuse_keeps
    | exact Keeps.refl _
    | (refine (Keeps.refl _).touch (by assumption) ?_ ?_ ?_ <;> rfl)
    | exact (Keeps.refl _).setArb _ rfl (fun _ => id) id
    | with_reducible apply plain_keeps
    | with_reducible apply accept_keeps
    | with_reducible apply checked_keeps
    | with_reducible apply withBin_keeps
    | with_reducible apply withBatch_keeps
    | with_reducible apply withGrind_keeps
    | with_reducible apply withPress_keeps
    | with_reducible apply withHead_keeps
    | with_reducible apply withLine_keeps
    | intro _
    | dsimp only [State.done, Result.andThen]
    | split
    | with_reducible apply Keeps.setAnalogOut

theorem execIoRead_keeps (tag : Byte) (h : execIoRead tag s = .next t) : RequestKeeps (.ioRead tag) s t := by
  refine serve_keeps (fun u => ?_) h
  try dsimp only
  repeat' first
    | exact refuse_keeps
    | exact Keeps.refl _
    | (refine (Keeps.refl _).touch (by assumption) ?_ ?_ ?_ <;> rfl)
    | exact (Keeps.refl _).setArb _ rfl (fun _ => id) id
    | with_reducible apply plain_keeps
    | with_reducible apply accept_keeps
    | with_reducible apply checked_keeps
    | with_reducible apply withBin_keeps
    | with_reducible apply withBatch_keeps
    | with_reducible apply withGrind_keeps
    | with_reducible apply withPress_keeps
    | with_reducible apply withHead_keeps
    | with_reducible apply withLine_keeps
    | intro _
    | dsimp only [State.done, Result.andThen]
    | split

theorem execRouteDefine_keeps (tag : Byte) (route : Nat) (permissives : List PermissiveField) (resources : List Nat) (h : execRouteDefine tag route permissives resources s = .next t) : RequestKeeps (.routeDefine tag route permissives resources) s t := by
  refine serve_keeps (fun u => ?_) h
  try dsimp only
  repeat' first
    | exact refuse_keeps
    | exact Keeps.refl _
    | (refine (Keeps.refl _).touch (by assumption) ?_ ?_ ?_ <;> rfl)
    | exact (Keeps.refl _).setArb _ rfl (fun _ => id) id
    | with_reducible apply plain_keeps
    | with_reducible apply accept_keeps
    | with_reducible apply checked_keeps
    | with_reducible apply withBin_keeps
    | with_reducible apply withBatch_keeps
    | with_reducible apply withGrind_keeps
    | with_reducible apply withPress_keeps
    | with_reducible apply withHead_keeps
    | with_reducible apply withLine_keeps
    | intro _
    | dsimp only [State.done, Result.andThen]
    | split

theorem execArbiterSet_keeps (tag : Byte) (permitTime : Tenths) (h : execArbiterSet tag permitTime s = .next t) : RequestKeeps (.arbiterSet tag permitTime) s t := by
  refine serve_keeps (fun u => ?_) h
  try dsimp only
  repeat' first
    | exact refuse_keeps
    | exact Keeps.refl _
    | (refine (Keeps.refl _).touch (by assumption) ?_ ?_ ?_ <;> rfl)
    | exact (Keeps.refl _).setArb _ rfl (fun _ => id) id
    | with_reducible apply plain_keeps
    | with_reducible apply accept_keeps
    | with_reducible apply checked_keeps
    | with_reducible apply withBin_keeps
    | with_reducible apply withBatch_keeps
    | with_reducible apply withGrind_keeps
    | with_reducible apply withPress_keeps
    | with_reducible apply withHead_keeps
    | with_reducible apply withLine_keeps
    | intro _
    | dsimp only [State.done, Result.andThen]
    | split

theorem execResourceRead_keeps (tag : Byte) (h : execResourceRead tag s = .next t) : RequestKeeps (.resourceRead tag) s t := by
  refine serve_keeps (fun u => ?_) h
  try dsimp only
  repeat' first
    | exact refuse_keeps
    | exact Keeps.refl _
    | (refine (Keeps.refl _).touch (by assumption) ?_ ?_ ?_ <;> rfl)
    | exact (Keeps.refl _).setArb _ rfl (fun _ => id) id
    | with_reducible apply plain_keeps
    | with_reducible apply accept_keeps
    | with_reducible apply checked_keeps
    | with_reducible apply withBin_keeps
    | with_reducible apply withBatch_keeps
    | with_reducible apply withGrind_keeps
    | with_reducible apply withPress_keeps
    | with_reducible apply withHead_keeps
    | with_reducible apply withLine_keeps
    | intro _
    | dsimp only [State.done, Result.andThen]
    | split

theorem execPermitTimeout_keeps (slot : Nat) (h : execPermitTimeout slot s = .next t) : Keeps s t := by
  unfold execPermitTimeout at h
  try dsimp only at h
  first
    | refine outcome_keeps ?_ h
    | (split at h <;> [refine outcome_keeps ?_ h; (simp only [Host.Outcome.next.injEq] at h; exact h ▸ Keeps.refl s)])
  try dsimp only [State.done, Result.andThen]
  repeat' first
    | exact Keeps.refl _
    | split
    | with_reducible apply Keeps.permitExpiry

/-! ### BatchCommands.lean -/

theorem Keeps.putFormula (h : Keeps s t) (n : Nat) (f : Option Formula) : Keeps s (Sys2Proof.Machine.putFormula t n f) := by
  unfold Sys2Proof.Machine.putFormula
  try dsimp only [State.done, Result.andThen]
  repeat' split
  all_goals try dsimp only [State.done, Result.andThen]
  all_goals repeat' first
    | exact h
    | with_reducible apply Keeps.setLine

theorem execFormulaOpen_keeps (tag : Byte) (formula : Nat) (product : Nat) (mixTime : Nat) (h : execFormulaOpen tag formula product mixTime s = .next t) : RequestKeeps (.formulaOpen tag formula product mixTime) s t := by
  refine serve_keeps (fun u => ?_) h
  try dsimp only
  repeat' first
    | exact refuse_keeps
    | exact Keeps.refl _
    | (refine (Keeps.refl _).touch (by assumption) ?_ ?_ ?_ <;> rfl)
    | exact (Keeps.refl _).setArb _ rfl (fun _ => id) id
    | with_reducible apply plain_keeps
    | with_reducible apply accept_keeps
    | with_reducible apply checked_keeps
    | with_reducible apply withBin_keeps
    | with_reducible apply withBatch_keeps
    | with_reducible apply withGrind_keeps
    | with_reducible apply withPress_keeps
    | with_reducible apply withHead_keeps
    | with_reducible apply withLine_keeps
    | intro _
    | dsimp only [State.done, Result.andThen]
    | split
    | with_reducible apply Keeps.putFormula

theorem execFormulaStep_keeps (tag : Byte) (formula : Nat) (fields : StepFields) (h : execFormulaStep tag formula fields s = .next t) : RequestKeeps (.formulaStep tag formula fields) s t := by
  refine serve_keeps (fun u => ?_) h
  try dsimp only
  repeat' first
    | exact refuse_keeps
    | exact Keeps.refl _
    | (refine (Keeps.refl _).touch (by assumption) ?_ ?_ ?_ <;> rfl)
    | exact (Keeps.refl _).setArb _ rfl (fun _ => id) id
    | with_reducible apply plain_keeps
    | with_reducible apply accept_keeps
    | with_reducible apply checked_keeps
    | with_reducible apply withBin_keeps
    | with_reducible apply withBatch_keeps
    | with_reducible apply withGrind_keeps
    | with_reducible apply withPress_keeps
    | with_reducible apply withHead_keeps
    | with_reducible apply withLine_keeps
    | intro _
    | dsimp only [State.done, Result.andThen]
    | split
    | with_reducible apply Keeps.putFormula

theorem execFormulaClose_keeps (tag : Byte) (formula : Nat) (h : execFormulaClose tag formula s = .next t) : RequestKeeps (.formulaClose tag formula) s t := by
  refine serve_keeps (fun u => ?_) h
  try dsimp only
  repeat' first
    | exact refuse_keeps
    | exact Keeps.refl _
    | (refine (Keeps.refl _).touch (by assumption) ?_ ?_ ?_ <;> rfl)
    | exact (Keeps.refl _).setArb _ rfl (fun _ => id) id
    | with_reducible apply plain_keeps
    | with_reducible apply accept_keeps
    | with_reducible apply checked_keeps
    | with_reducible apply withBin_keeps
    | with_reducible apply withBatch_keeps
    | with_reducible apply withGrind_keeps
    | with_reducible apply withPress_keeps
    | with_reducible apply withHead_keeps
    | with_reducible apply withLine_keeps
    | intro _
    | dsimp only [State.done, Result.andThen]
    | split
    | with_reducible apply Keeps.putFormula

theorem execFormulaRead_keeps (tag : Byte) (formula : Nat) (h : execFormulaRead tag formula s = .next t) : RequestKeeps (.formulaRead tag formula) s t := by
  refine serve_keeps (fun u => ?_) h
  try dsimp only
  repeat' first
    | exact refuse_keeps
    | exact Keeps.refl _
    | (refine (Keeps.refl _).touch (by assumption) ?_ ?_ ?_ <;> rfl)
    | exact (Keeps.refl _).setArb _ rfl (fun _ => id) id
    | with_reducible apply plain_keeps
    | with_reducible apply accept_keeps
    | with_reducible apply checked_keeps
    | with_reducible apply withBin_keeps
    | with_reducible apply withBatch_keeps
    | with_reducible apply withGrind_keeps
    | with_reducible apply withPress_keeps
    | with_reducible apply withHead_keeps
    | with_reducible apply withLine_keeps
    | intro _
    | dsimp only [State.done, Result.andThen]
    | split

theorem execBatchlineSet_keeps (tag : Byte) (discharge : Tenths) (release : Tenths) (releaseTimeout : Tenths) (h : execBatchlineSet tag discharge release releaseTimeout s = .next t) : RequestKeeps (.batchlineSet tag discharge release releaseTimeout) s t := by
  refine serve_keeps (fun u => ?_) h
  try dsimp only
  repeat' first
    | exact refuse_keeps
    | exact Keeps.refl _
    | (refine (Keeps.refl _).touch (by assumption) ?_ ?_ ?_ <;> rfl)
    | exact (Keeps.refl _).setArb _ rfl (fun _ => id) id
    | with_reducible apply plain_keeps
    | with_reducible apply accept_keeps
    | with_reducible apply checked_keeps
    | with_reducible apply withBin_keeps
    | with_reducible apply withBatch_keeps
    | with_reducible apply withGrind_keeps
    | with_reducible apply withPress_keeps
    | with_reducible apply withHead_keeps
    | with_reducible apply withLine_keeps
    | intro _
    | dsimp only [State.done, Result.andThen]
    | split
    | with_reducible apply Keeps.setLine

theorem acceptBatch_keeps {u : State} {number formula size lotTag destination : Nat} {wait : Bool} {f : Formula}
    (hc : claimRefusal u (batchClaims number size 1 f.steps) = none) :
    (acceptBatch u number formula size lotTag destination wait f).Keeps u := by
  have hk := (Keeps.refl u).createAll (claimRefusal_none hc).1 (claimRefusal_none hc).2
  exact hk.setLine _

theorem execBatchQueue_keeps (tag : Byte) (number : Nat) (formula : Nat) (size : Nat) (lotTag : Nat) (destination : Nat) (waitFlag : Nat) (h : execBatchQueue tag number formula size lotTag destination waitFlag s = .next t) : RequestKeeps (.batchQueue tag number formula size lotTag destination waitFlag) s t := by
  refine serve_keeps (fun u => ?_) h
  try dsimp only
  repeat' first
    | exact refuse_keeps
    | exact Keeps.refl _
    | (refine (Keeps.refl _).touch (by assumption) ?_ ?_ ?_ <;> rfl)
    | exact (Keeps.refl _).setArb _ rfl (fun _ => id) id
    | with_reducible apply plain_keeps
    | with_reducible apply accept_keeps
    | exact acceptBatch_keeps (by assumption)
    | with_reducible apply checked_keeps
    | with_reducible apply withBin_keeps
    | with_reducible apply withBatch_keeps
    | with_reducible apply withGrind_keeps
    | with_reducible apply withPress_keeps
    | with_reducible apply withHead_keeps
    | with_reducible apply withLine_keeps
    | intro _
    | dsimp only [State.done, Result.andThen]
    | split

theorem withBatch_keeps {n : Nat} {f : Batch → Verdict} (h : ∀ v, (f v).Keeps s) : (withBatch s n f).Keeps s := by
  unfold withBatch
  split
  · trivial
  · exact h _

theorem execBatchRelease_keeps (tag : Byte) (number : Nat) (h : execBatchRelease tag number s = .next t) : RequestKeeps (.batchRelease tag number) s t := by
  refine serve_keeps (fun u => ?_) h
  try dsimp only
  repeat' first
    | exact refuse_keeps
    | exact Keeps.refl _
    | (refine (Keeps.refl _).touch (by assumption) ?_ ?_ ?_ <;> rfl)
    | exact (Keeps.refl _).setArb _ rfl (fun _ => id) id
    | with_reducible apply plain_keeps
    | with_reducible apply accept_keeps
    | with_reducible apply checked_keeps
    | with_reducible apply withBin_keeps
    | with_reducible apply withBatch_keeps
    | with_reducible apply withGrind_keeps
    | with_reducible apply withPress_keeps
    | with_reducible apply withHead_keeps
    | with_reducible apply withLine_keeps
    | intro _
    | dsimp only [State.done, Result.andThen]
    | split
    | with_reducible apply Keeps.startSelection | with_reducible apply Keeps.putBatch

theorem execHandDone_keeps (tag : Byte) (number : Nat) (h : execHandDone tag number s = .next t) : RequestKeeps (.handDone tag number) s t := by
  refine serve_keeps (fun u => ?_) h
  try dsimp only
  repeat' first
    | exact refuse_keeps
    | exact Keeps.refl _
    | (refine (Keeps.refl _).touch (by assumption) ?_ ?_ ?_ <;> rfl)
    | exact (Keeps.refl _).setArb _ rfl (fun _ => id) id
    | with_reducible apply plain_keeps
    | with_reducible apply accept_keeps
    | with_reducible apply checked_keeps
    | with_reducible apply withBin_keeps
    | with_reducible apply withBatch_keeps
    | with_reducible apply withGrind_keeps
    | with_reducible apply withPress_keeps
    | with_reducible apply withHead_keeps
    | with_reducible apply withLine_keeps
    | intro _
    | dsimp only [State.done, Result.andThen]
    | split
    | with_reducible apply Keeps.handReady

theorem Keeps.resumeStep (h : Keeps s t) (b : Batch) (i : Nat) (e : StepEntry) (action : StepAction) : Keeps s (Sys2Proof.Machine.resumeStep t b i e action).1 := by
  unfold Sys2Proof.Machine.resumeStep
  try dsimp only [State.done, Result.andThen]
  repeat' split
  all_goals try dsimp only [State.done, Result.andThen]
  all_goals repeat' first
    | exact h
    | with_reducible apply Keeps.leaveStepHold | with_reducible apply Keeps.putBatch | with_reducible apply
      Keeps.closeHeld

theorem execStepResume_keeps (tag : Byte) (number : Nat) (step : Nat) (action : Nat) (h : execStepResume tag number step action s = .next t) : RequestKeeps (.stepResume tag number step action) s t := by
  refine serve_keeps (fun u => ?_) h
  try dsimp only
  repeat' first
    | exact refuse_keeps
    | exact Keeps.refl _
    | (refine (Keeps.refl _).touch (by assumption) ?_ ?_ ?_ <;> rfl)
    | exact (Keeps.refl _).setArb _ rfl (fun _ => id) id
    | with_reducible apply plain_keeps
    | with_reducible apply accept_keeps
    | with_reducible apply checked_keeps
    | with_reducible apply withBin_keeps
    | with_reducible apply withBatch_keeps
    | with_reducible apply withGrind_keeps
    | with_reducible apply withPress_keeps
    | with_reducible apply withHead_keeps
    | with_reducible apply withLine_keeps
    | intro _
    | dsimp only [State.done, Result.andThen]
    | split
    | with_reducible apply Keeps.resumeStep

theorem Keeps.resumeMixer (h : Keeps s t) (b : Batch) (phase : BatchPhase) : Keeps s (Sys2Proof.Machine.resumeMixer t b phase).1 := by
  unfold Sys2Proof.Machine.resumeMixer
  try dsimp only [State.done, Result.andThen]
  repeat' split
  all_goals try dsimp only [State.done, Result.andThen]
  all_goals repeat' first
    | exact h
    | with_reducible apply Keeps.askGates | with_reducible apply Keeps.enterMixing | with_reducible apply
      Keeps.enterMixed | with_reducible apply Keeps.putBatch | with_reducible apply Keeps.ask

theorem execBatchResume_keeps (tag : Byte) (number : Nat) (h : execBatchResume tag number s = .next t) : RequestKeeps (.batchResume tag number) s t := by
  refine serve_keeps (fun u => ?_) h
  try dsimp only
  repeat' first
    | exact refuse_keeps
    | exact Keeps.refl _
    | (refine (Keeps.refl _).touch (by assumption) ?_ ?_ ?_ <;> rfl)
    | exact (Keeps.refl _).setArb _ rfl (fun _ => id) id
    | with_reducible apply plain_keeps
    | with_reducible apply accept_keeps
    | with_reducible apply checked_keeps
    | with_reducible apply withBin_keeps
    | with_reducible apply withBatch_keeps
    | with_reducible apply withGrind_keeps
    | with_reducible apply withPress_keeps
    | with_reducible apply withHead_keeps
    | with_reducible apply withLine_keeps
    | intro _
    | dsimp only [State.done, Result.andThen]
    | split
    | with_reducible apply Keeps.resumeMixer

theorem execBatchCancel_keeps (tag : Byte) (number : Nat) (h : execBatchCancel tag number s = .next t) : RequestKeeps (.batchCancel tag number) s t := by
  refine serve_keeps (fun u => ?_) h
  try dsimp only
  repeat' first
    | exact refuse_keeps
    | exact Keeps.refl _
    | (refine (Keeps.refl _).touch (by assumption) ?_ ?_ ?_ <;> rfl)
    | exact (Keeps.refl _).setArb _ rfl (fun _ => id) id
    | with_reducible apply plain_keeps
    | with_reducible apply accept_keeps
    | with_reducible apply checked_keeps
    | with_reducible apply withBin_keeps
    | with_reducible apply withBatch_keeps
    | with_reducible apply withGrind_keeps
    | with_reducible apply withPress_keeps
    | with_reducible apply withHead_keeps
    | with_reducible apply withLine_keeps
    | intro _
    | dsimp only [State.done, Result.andThen]
    | split
    | with_reducible apply Keeps.dropBatch | with_reducible apply Keeps.closeAll

theorem Keeps.endStepTransfers (h : Keeps s t) (b : Batch) : Keeps s (Sys2Proof.Machine.endStepTransfers t b).1 := by
  have hone : ∀ (l : List Scale) (r : Result), Keeps s r.1 → Keeps s (l.foldl (fun r sc =>
      match b.dosingStep sc with
      | some (_, e) => (r.andThen (fun t => Sys2Proof.Machine.endTransfer t (stepOwner sc))).andThen
          (fun t => (t.askAll (stepGates e.source) false).done)
      | none => r) r).1 := by
    intro l
    induction l with
    | nil => exact fun r hr => hr
    | cons sc l ih =>
      intro r hr
      refine ih _ ?_
      dsimp only
      split
      · exact (hr.endTransfer _).askAll _ _
      · exact hr
  exact hone _ _ h

theorem Keeps.goOnAbandoned (h : Keeps s t) (b : Batch) : Keeps s (Sys2Proof.Machine.goOnAbandoned t b).1 := by
  unfold Sys2Proof.Machine.goOnAbandoned
  try dsimp only [State.done, Result.andThen]
  repeat' split
  all_goals try dsimp only [State.done, Result.andThen]
  all_goals repeat' first
    | exact h
    | with_reducible apply Keeps.resumeMixer | with_reducible apply Keeps.tryDischarge | with_reducible apply
      Keeps.putBatch | with_reducible apply Keeps.endTransfer

theorem Keeps.abandonBatch (h : Keeps s t) (b : Batch) (rework : Nat) : Keeps s (Sys2Proof.Machine.abandonBatch t b rework).1 := by
  unfold Sys2Proof.Machine.abandonBatch
  try dsimp only [State.done, Result.andThen]
  repeat' split
  all_goals try dsimp only [State.done, Result.andThen]
  all_goals repeat' first
    | exact h
    | with_reducible apply Keeps.goOnAbandoned | with_reducible apply Keeps.endStepTransfers | with_reducible
      apply Keeps.putBatch | with_reducible apply Keeps.closeAll

theorem execBatchAbandon_keeps (tag : Byte) (number : Nat) (h : execBatchAbandon tag number s = .next t) : RequestKeeps (.batchAbandon tag number) s t := by
  refine serve_keeps (fun u => ?_) h
  try dsimp only
  repeat' first
    | exact refuse_keeps
    | exact Keeps.refl _
    | (refine (Keeps.refl _).touch (by assumption) ?_ ?_ ?_ <;> rfl)
    | exact (Keeps.refl _).setArb _ rfl (fun _ => id) id
    | with_reducible apply plain_keeps
    | with_reducible apply accept_keeps
    | with_reducible apply checked_keeps
    | with_reducible apply withBin_keeps
    | with_reducible apply withBatch_keeps
    | with_reducible apply withGrind_keeps
    | with_reducible apply withPress_keeps
    | with_reducible apply withHead_keeps
    | with_reducible apply withLine_keeps
    | intro _
    | dsimp only [State.done, Result.andThen]
    | split
    | with_reducible apply Keeps.abandonBatch

theorem execBatchRead_keeps (tag : Byte) (number : Nat) (h : execBatchRead tag number s = .next t) : RequestKeeps (.batchRead tag number) s t := by
  refine serve_keeps (fun u => ?_) h
  try dsimp only
  repeat' first
    | exact refuse_keeps
    | exact Keeps.refl _
    | (refine (Keeps.refl _).touch (by assumption) ?_ ?_ ?_ <;> rfl)
    | exact (Keeps.refl _).setArb _ rfl (fun _ => id) id
    | with_reducible apply plain_keeps
    | with_reducible apply accept_keeps
    | with_reducible apply checked_keeps
    | with_reducible apply withBin_keeps
    | with_reducible apply withBatch_keeps
    | with_reducible apply withGrind_keeps
    | with_reducible apply withPress_keeps
    | with_reducible apply withHead_keeps
    | with_reducible apply withLine_keeps
    | intro _
    | dsimp only [State.done, Result.andThen]
    | split

theorem Keeps.dischargeExpiry (h : Keeps s t) : Keeps s (Sys2Proof.Machine.dischargeExpiry t).1 := by
  unfold Sys2Proof.Machine.dischargeExpiry
  try dsimp only [State.done, Result.andThen]
  repeat' split
  all_goals try dsimp only [State.done, Result.andThen]
  all_goals repeat' first
    | exact h
    | with_reducible apply Keeps.holdMixer | with_reducible apply Keeps.askGates

theorem execDischargeTimeout_keeps  (h : execDischargeTimeout s = .next t) : Keeps s t := by
  unfold execDischargeTimeout at h
  try dsimp only at h
  first
    | refine outcome_keeps ?_ h
    | (split at h <;> [refine outcome_keeps ?_ h; (simp only [Host.Outcome.next.injEq] at h; exact h ▸ Keeps.refl s)])
  try dsimp only [State.done, Result.andThen]
  repeat' first
    | exact Keeps.refl _
    | split
    | with_reducible apply Keeps.dischargeExpiry

theorem Keeps.mixExpiry (h : Keeps s t) : Keeps s (Sys2Proof.Machine.mixExpiry t).1 := by
  unfold Sys2Proof.Machine.mixExpiry
  try dsimp only [State.done, Result.andThen]
  repeat' split
  all_goals try dsimp only [State.done, Result.andThen]
  all_goals repeat' first
    | exact h
    | with_reducible apply Keeps.enterMixed

theorem execMixTimeout_keeps  (h : execMixTimeout s = .next t) : Keeps s t := by
  unfold execMixTimeout at h
  try dsimp only at h
  first
    | refine outcome_keeps ?_ h
    | (split at h <;> [refine outcome_keeps ?_ h; (simp only [Host.Outcome.next.injEq] at h; exact h ▸ Keeps.refl s)])
  try dsimp only [State.done, Result.andThen]
  repeat' first
    | exact Keeps.refl _
    | split
    | with_reducible apply Keeps.mixExpiry

theorem Keeps.releaseExpiry (h : Keeps s t) : Keeps s (Sys2Proof.Machine.releaseExpiry t).1 := by
  unfold Sys2Proof.Machine.releaseExpiry
  try dsimp only [State.done, Result.andThen]
  repeat' split
  all_goals try dsimp only [State.done, Result.andThen]
  all_goals repeat' first
    | exact h
    | with_reducible apply Keeps.holdMixer | with_reducible apply Keeps.completeRelease

theorem execReleaseTimeout_keeps  (h : execReleaseTimeout s = .next t) : Keeps s t := by
  unfold execReleaseTimeout at h
  try dsimp only at h
  first
    | refine outcome_keeps ?_ h
    | (split at h <;> [refine outcome_keeps ?_ h; (simp only [Host.Outcome.next.injEq] at h; exact h ▸ Keeps.refl s)])
  try dsimp only [State.done, Result.andThen]
  repeat' first
    | exact Keeps.refl _
    | split
    | with_reducible apply Keeps.releaseExpiry

theorem Keeps.mixerEmptied (h : Keeps s t) : Keeps s (Sys2Proof.Machine.mixerEmptied t).1 := by
  unfold Sys2Proof.Machine.mixerEmptied
  try dsimp only [State.done, Result.andThen]
  repeat' split
  all_goals try dsimp only [State.done, Result.andThen]
  all_goals repeat' first
    | exact h
    | with_reducible apply Keeps.completeRelease

theorem execMixerEmptyActive_keeps  (h : execMixerEmptyActive s = .next t) : Keeps s t := by
  unfold execMixerEmptyActive at h
  try dsimp only at h
  first
    | refine outcome_keeps ?_ h
    | (split at h <;> [refine outcome_keeps ?_ h; (simp only [Host.Outcome.next.injEq] at h; exact h ▸ Keeps.refl s)])
  try dsimp only [State.done, Result.andThen]
  repeat' first
    | exact Keeps.refl _
    | split
    | with_reducible apply Keeps.mixerEmptied | with_reducible apply Keeps.takeOffered

/-! ### MillCommands.lean -/

theorem execGrindQueue_keeps (tag : Byte) (number : Nat) (source : Nat) (destination : Nat) (screen : Nat) (level : Nat) (h : execGrindQueue tag number source destination screen level s = .next t) : RequestKeeps (.grindQueue tag number source destination screen level) s t := by
  refine serve_keeps (fun u => ?_) h
  try dsimp only
  repeat' first
    | exact refuse_keeps
    | exact Keeps.refl _
    | (refine (Keeps.refl _).touch (by assumption) ?_ ?_ ?_ <;> rfl)
    | exact (Keeps.refl _).setArb _ rfl (fun _ => id) id
    | with_reducible apply plain_keeps
    | with_reducible apply accept_keeps
    | with_reducible apply checked_keeps
    | with_reducible apply withBin_keeps
    | with_reducible apply withBatch_keeps
    | with_reducible apply withGrind_keeps
    | with_reducible apply withPress_keeps
    | with_reducible apply withHead_keeps
    | with_reducible apply withLine_keeps
    | intro _
    | dsimp only [State.done, Result.andThen]
    | split
    | with_reducible apply Keeps.serving | with_reducible apply Keeps.setMill

theorem withGrind_keeps {n : Nat} {f : GrindRequest → Verdict} (h : ∀ v, (f v).Keeps s) : (withGrind s n f).Keeps s := by
  unfold withGrind
  split
  · trivial
  · exact h _

theorem Keeps.millCease (h : Keeps s t) : Keeps s (Sys2Proof.Machine.millCease t).1 := by
  unfold Sys2Proof.Machine.millCease
  try dsimp only [State.done, Result.andThen]
  repeat' split
  all_goals try dsimp only [State.done, Result.andThen]
  all_goals repeat' first
    | exact h
    | with_reducible apply Keeps.millFeedOff | with_reducible apply Keeps.endTransfer

theorem Keeps.cancelGrind (h : Keeps s t) (n : Nat) : Keeps s (Sys2Proof.Machine.cancelGrind t n).1 := by
  unfold Sys2Proof.Machine.cancelGrind
  try dsimp only [State.done, Result.andThen]
  repeat' split
  all_goals try dsimp only [State.done, Result.andThen]
  all_goals repeat' first
    | exact h
    | with_reducible apply Keeps.millCease | with_reducible apply Keeps.enterDraining | with_reducible apply
      Keeps.dropGrind | with_reducible apply Keeps.setMill

theorem execGrindCancel_keeps (tag : Byte) (number : Nat) (h : execGrindCancel tag number s = .next t) : RequestKeeps (.grindCancel tag number) s t := by
  refine serve_keeps (fun u => ?_) h
  try dsimp only
  repeat' first
    | exact refuse_keeps
    | exact Keeps.refl _
    | (refine (Keeps.refl _).touch (by assumption) ?_ ?_ ?_ <;> rfl)
    | exact (Keeps.refl _).setArb _ rfl (fun _ => id) id
    | with_reducible apply plain_keeps
    | with_reducible apply accept_keeps
    | with_reducible apply checked_keeps
    | with_reducible apply withBin_keeps
    | with_reducible apply withBatch_keeps
    | with_reducible apply withGrind_keeps
    | with_reducible apply withPress_keeps
    | with_reducible apply withHead_keeps
    | with_reducible apply withLine_keeps
    | intro _
    | dsimp only [State.done, Result.andThen]
    | split
    | with_reducible apply Keeps.cancelGrind

theorem execGrindResume_keeps (tag : Byte) (number : Nat) (h : execGrindResume tag number s = .next t) : RequestKeeps (.grindResume tag number) s t := by
  refine serve_keeps (fun u => ?_) h
  try dsimp only
  repeat' first
    | exact refuse_keeps
    | exact Keeps.refl _
    | (refine (Keeps.refl _).touch (by assumption) ?_ ?_ ?_ <;> rfl)
    | exact (Keeps.refl _).setArb _ rfl (fun _ => id) id
    | with_reducible apply plain_keeps
    | with_reducible apply accept_keeps
    | with_reducible apply checked_keeps
    | with_reducible apply withBin_keeps
    | with_reducible apply withBatch_keeps
    | with_reducible apply withGrind_keeps
    | with_reducible apply withPress_keeps
    | with_reducible apply withHead_keeps
    | with_reducible apply withLine_keeps
    | intro _
    | dsimp only [State.done, Result.andThen]
    | split
    | with_reducible apply Keeps.serving | with_reducible apply Keeps.putGrind

theorem execGrindArm_keeps (tag : Byte) (bin : Nat) (arming : Nat) (h : execGrindArm tag bin arming s = .next t) : RequestKeeps (.grindArm tag bin arming) s t := by
  refine serve_keeps (fun u => ?_) h
  try dsimp only
  repeat' first
    | exact refuse_keeps
    | exact Keeps.refl _
    | (refine (Keeps.refl _).touch (by assumption) ?_ ?_ ?_ <;> rfl)
    | exact (Keeps.refl _).setArb _ rfl (fun _ => id) id
    | with_reducible apply plain_keeps
    | with_reducible apply accept_keeps
    | with_reducible apply checked_keeps
    | with_reducible apply withBin_keeps
    | with_reducible apply withBatch_keeps
    | with_reducible apply withGrind_keeps
    | with_reducible apply withPress_keeps
    | with_reducible apply withHead_keeps
    | with_reducible apply withLine_keeps
    | intro _
    | dsimp only [State.done, Result.andThen]
    | split

theorem execScreenFitted_keeps (tag : Byte) (screen : Nat) (h : execScreenFitted tag screen s = .next t) : RequestKeeps (.screenFitted tag screen) s t := by
  refine serve_keeps (fun u => ?_) h
  try dsimp only
  repeat' first
    | exact refuse_keeps
    | exact Keeps.refl _
    | (refine (Keeps.refl _).touch (by assumption) ?_ ?_ ?_ <;> rfl)
    | exact (Keeps.refl _).setArb _ rfl (fun _ => id) id
    | with_reducible apply plain_keeps
    | with_reducible apply accept_keeps
    | with_reducible apply checked_keeps
    | with_reducible apply withBin_keeps
    | with_reducible apply withBatch_keeps
    | with_reducible apply withGrind_keeps
    | with_reducible apply withPress_keeps
    | with_reducible apply withHead_keeps
    | with_reducible apply withLine_keeps
    | intro _
    | dsimp only [State.done, Result.andThen]
    | split
    | with_reducible apply Keeps.serving | with_reducible apply Keeps.setMill

theorem execMillSet_keeps (tag : Byte) (settings : MillSettings) (h : execMillSet tag settings s = .next t) : RequestKeeps (.millSet tag settings) s t := by
  refine serve_keeps (fun u => ?_) h
  try dsimp only
  repeat' first
    | exact refuse_keeps
    | exact Keeps.refl _
    | (refine (Keeps.refl _).touch (by assumption) ?_ ?_ ?_ <;> rfl)
    | exact (Keeps.refl _).setArb _ rfl (fun _ => id) id
    | with_reducible apply plain_keeps
    | with_reducible apply accept_keeps
    | with_reducible apply checked_keeps
    | with_reducible apply withBin_keeps
    | with_reducible apply withBatch_keeps
    | with_reducible apply withGrind_keeps
    | with_reducible apply withPress_keeps
    | with_reducible apply withHead_keeps
    | with_reducible apply withLine_keeps
    | intro _
    | dsimp only [State.done, Result.andThen]
    | split
    | with_reducible apply Keeps.setMill

theorem Keeps.enterStopped (h : Keeps s t) : Keeps s (Sys2Proof.Machine.enterStopped t).1 := by
  unfold Sys2Proof.Machine.enterStopped
  try dsimp only [State.done, Result.andThen]
  repeat' split
  all_goals try dsimp only [State.done, Result.andThen]
  all_goals repeat' first
    | exact h
    | with_reducible apply Keeps.serving | with_reducible apply Keeps.setMill

theorem Keeps.resumeMill (h : Keeps s t) : Keeps s (Sys2Proof.Machine.resumeMill t).1 := by
  unfold Sys2Proof.Machine.resumeMill
  try dsimp only [State.done, Result.andThen]
  repeat' split
  all_goals try dsimp only [State.done, Result.andThen]
  all_goals repeat' first
    | exact h
    | with_reducible apply Keeps.enterStopped | with_reducible apply Keeps.serving | with_reducible apply
      Keeps.enterRunning | with_reducible apply Keeps.enterStarting | with_reducible apply Keeps.enterDraining |
      with_reducible apply Keeps.millMotor | with_reducible apply Keeps.setMill

theorem execMillResume_keeps (tag : Byte) (h : execMillResume tag s = .next t) : RequestKeeps (.millResume tag) s t := by
  refine serve_keeps (fun u => ?_) h
  try dsimp only
  repeat' first
    | exact refuse_keeps
    | exact Keeps.refl _
    | (refine (Keeps.refl _).touch (by assumption) ?_ ?_ ?_ <;> rfl)
    | exact (Keeps.refl _).setArb _ rfl (fun _ => id) id
    | with_reducible apply plain_keeps
    | with_reducible apply accept_keeps
    | with_reducible apply checked_keeps
    | with_reducible apply withBin_keeps
    | with_reducible apply withBatch_keeps
    | with_reducible apply withGrind_keeps
    | with_reducible apply withPress_keeps
    | with_reducible apply withHead_keeps
    | with_reducible apply withLine_keeps
    | intro _
    | dsimp only [State.done, Result.andThen]
    | split
    | with_reducible apply Keeps.resumeMill

theorem Keeps.haltMill (h : Keeps s t) : Keeps s (Sys2Proof.Machine.haltMill t).1 := by
  unfold Sys2Proof.Machine.haltMill
  try dsimp only [State.done, Result.andThen]
  repeat' split
  all_goals try dsimp only [State.done, Result.andThen]
  all_goals repeat' first
    | exact h
    | with_reducible apply Keeps.enterStopped | with_reducible apply Keeps.millCease | with_reducible apply
      Keeps.serving | with_reducible apply Keeps.enterDraining | with_reducible apply Keeps.enterStopping |
      with_reducible apply Keeps.millReturn | with_reducible apply Keeps.millMotor | with_reducible apply
      Keeps.setMill

theorem execMillStop_keeps (tag : Byte) (h : execMillStop tag s = .next t) : RequestKeeps (.millStop tag) s t := by
  refine serve_keeps (fun u => ?_) h
  try dsimp only
  repeat' first
    | exact refuse_keeps
    | exact Keeps.refl _
    | (refine (Keeps.refl _).touch (by assumption) ?_ ?_ ?_ <;> rfl)
    | exact (Keeps.refl _).setArb _ rfl (fun _ => id) id
    | with_reducible apply plain_keeps
    | with_reducible apply accept_keeps
    | with_reducible apply checked_keeps
    | with_reducible apply withBin_keeps
    | with_reducible apply withBatch_keeps
    | with_reducible apply withGrind_keeps
    | with_reducible apply withPress_keeps
    | with_reducible apply withHead_keeps
    | with_reducible apply withLine_keeps
    | intro _
    | dsimp only [State.done, Result.andThen]
    | split
    | with_reducible apply Keeps.haltMill

theorem execMillRead_keeps (tag : Byte) (h : execMillRead tag s = .next t) : RequestKeeps (.millRead tag) s t := by
  refine serve_keeps (fun u => ?_) h
  try dsimp only
  repeat' first
    | exact refuse_keeps
    | exact Keeps.refl _
    | (refine (Keeps.refl _).touch (by assumption) ?_ ?_ ?_ <;> rfl)
    | exact (Keeps.refl _).setArb _ rfl (fun _ => id) id
    | with_reducible apply plain_keeps
    | with_reducible apply accept_keeps
    | with_reducible apply checked_keeps
    | with_reducible apply withBin_keeps
    | with_reducible apply withBatch_keeps
    | with_reducible apply withGrind_keeps
    | with_reducible apply withPress_keeps
    | with_reducible apply withHead_keeps
    | with_reducible apply withLine_keeps
    | intro _
    | dsimp only [State.done, Result.andThen]
    | split

theorem execMillLoopInterval_keeps (position : Int) (h : execMillLoopInterval position s = .next t) : Keeps s t := by
  unfold execMillLoopInterval at h
  try dsimp only at h
  first
    | refine outcome_keeps ?_ h
    | (split at h <;> [refine outcome_keeps ?_ h; (simp only [Host.Outcome.next.injEq] at h; exact h ▸ Keeps.refl s)])
  try dsimp only [State.done, Result.andThen]
  repeat' first
    | exact Keeps.refl _
    | split
    | with_reducible apply Keeps.loopInterval | with_reducible apply Keeps.setAnalogPin

theorem Keeps.overloadReached (h : Keeps s t) : Keeps s (Sys2Proof.Machine.overloadReached t).1 := by
  unfold Sys2Proof.Machine.overloadReached
  try dsimp only [State.done, Result.andThen]
  repeat' split
  all_goals try dsimp only [State.done, Result.andThen]
  all_goals repeat' first
    | exact h
    | with_reducible apply Keeps.overload | with_reducible apply Keeps.setMill

theorem execMillOverload_keeps  (h : execMillOverload s = .next t) : Keeps s t := by
  unfold execMillOverload at h
  try dsimp only at h
  first
    | refine outcome_keeps ?_ h
    | (split at h <;> [refine outcome_keeps ?_ h; (simp only [Host.Outcome.next.injEq] at h; exact h ▸ Keeps.refl s)])
  try dsimp only [State.done, Result.andThen]
  repeat' first
    | exact Keeps.refl _
    | split
    | with_reducible apply Keeps.overloadReached

theorem Keeps.noFlowReached (h : Keeps s t) : Keeps s (Sys2Proof.Machine.noFlowReached t).1 := by
  unfold Sys2Proof.Machine.noFlowReached
  try dsimp only [State.done, Result.andThen]
  repeat' split
  all_goals try dsimp only [State.done, Result.andThen]
  all_goals repeat' first
    | exact h
    | with_reducible apply Keeps.noFlow | with_reducible apply Keeps.setMill

theorem execMillNoFlow_keeps  (h : execMillNoFlow s = .next t) : Keeps s t := by
  unfold execMillNoFlow at h
  try dsimp only at h
  first
    | refine outcome_keeps ?_ h
    | (split at h <;> [refine outcome_keeps ?_ h; (simp only [Host.Outcome.next.injEq] at h; exact h ▸ Keeps.refl s)])
  try dsimp only [State.done, Result.andThen]
  repeat' first
    | exact Keeps.refl _
    | split
    | with_reducible apply Keeps.noFlowReached

theorem Keeps.millStartExpiry (h : Keeps s t) : Keeps s (Sys2Proof.Machine.millStartExpiry t).1 := by
  unfold Sys2Proof.Machine.millStartExpiry
  try dsimp only [State.done, Result.andThen]
  repeat' split
  all_goals try dsimp only [State.done, Result.andThen]
  all_goals repeat' first
    | exact h
    | with_reducible apply Keeps.holdMill

theorem execMillStartTimeout_keeps  (h : execMillStartTimeout s = .next t) : Keeps s t := by
  unfold execMillStartTimeout at h
  try dsimp only at h
  first
    | refine outcome_keeps ?_ h
    | (split at h <;> [refine outcome_keeps ?_ h; (simp only [Host.Outcome.next.injEq] at h; exact h ▸ Keeps.refl s)])
  try dsimp only [State.done, Result.andThen]
  repeat' first
    | exact Keeps.refl _
    | split
    | with_reducible apply Keeps.millStartExpiry

theorem Keeps.millWarmExpiry (h : Keeps s t) : Keeps s (Sys2Proof.Machine.millWarmExpiry t).1 := by
  unfold Sys2Proof.Machine.millWarmExpiry
  try dsimp only [State.done, Result.andThen]
  repeat' split
  all_goals try dsimp only [State.done, Result.andThen]
  all_goals repeat' first
    | exact h
    | with_reducible apply Keeps.warmEnd

theorem execMillWarmTimeout_keeps  (h : execMillWarmTimeout s = .next t) : Keeps s t := by
  unfold execMillWarmTimeout at h
  try dsimp only at h
  first
    | refine outcome_keeps ?_ h
    | (split at h <;> [refine outcome_keeps ?_ h; (simp only [Host.Outcome.next.injEq] at h; exact h ▸ Keeps.refl s)])
  try dsimp only [State.done, Result.andThen]
  repeat' first
    | exact Keeps.refl _
    | split
    | with_reducible apply Keeps.millWarmExpiry

theorem Keeps.millDrainExpiry (h : Keeps s t) : Keeps s (Sys2Proof.Machine.millDrainExpiry t).1 := by
  unfold Sys2Proof.Machine.millDrainExpiry
  try dsimp only [State.done, Result.andThen]
  repeat' split
  all_goals try dsimp only [State.done, Result.andThen]
  all_goals repeat' first
    | exact h
    | with_reducible apply Keeps.drainEnd

theorem execMillDrainTimeout_keeps  (h : execMillDrainTimeout s = .next t) : Keeps s t := by
  unfold execMillDrainTimeout at h
  try dsimp only at h
  first
    | refine outcome_keeps ?_ h
    | (split at h <;> [refine outcome_keeps ?_ h; (simp only [Host.Outcome.next.injEq] at h; exact h ▸ Keeps.refl s)])
  try dsimp only [State.done, Result.andThen]
  repeat' first
    | exact Keeps.refl _
    | split
    | with_reducible apply Keeps.millDrainExpiry

theorem Keeps.millIdleExpiry (h : Keeps s t) : Keeps s (Sys2Proof.Machine.millIdleExpiry t).1 := by
  unfold Sys2Proof.Machine.millIdleExpiry
  try dsimp only [State.done, Result.andThen]
  repeat' split
  all_goals try dsimp only [State.done, Result.andThen]
  all_goals repeat' first
    | exact h
    | with_reducible apply Keeps.enterStopping

theorem execMillIdleTimeout_keeps  (h : execMillIdleTimeout s = .next t) : Keeps s t := by
  unfold execMillIdleTimeout at h
  try dsimp only at h
  first
    | refine outcome_keeps ?_ h
    | (split at h <;> [refine outcome_keeps ?_ h; (simp only [Host.Outcome.next.injEq] at h; exact h ▸ Keeps.refl s)])
  try dsimp only [State.done, Result.andThen]
  repeat' first
    | exact Keeps.refl _
    | split
    | with_reducible apply Keeps.millIdleExpiry

theorem Keeps.millRundownExpiry (h : Keeps s t) : Keeps s (Sys2Proof.Machine.millRundownExpiry t).1 := by
  unfold Sys2Proof.Machine.millRundownExpiry
  try dsimp only [State.done, Result.andThen]
  repeat' split
  all_goals try dsimp only [State.done, Result.andThen]
  all_goals repeat' first
    | exact h
    | with_reducible apply Keeps.enterStopped

theorem execMillRundownTimeout_keeps  (h : execMillRundownTimeout s = .next t) : Keeps s t := by
  unfold execMillRundownTimeout at h
  try dsimp only at h
  first
    | refine outcome_keeps ?_ h
    | (split at h <;> [refine outcome_keeps ?_ h; (simp only [Host.Outcome.next.injEq] at h; exact h ▸ Keeps.refl s)])
  try dsimp only [State.done, Result.andThen]
  repeat' first
    | exact Keeps.refl _
    | split
    | with_reducible apply Keeps.millRundownExpiry

theorem Keeps.millFoundEvent (h : Keeps s t) : Keeps s (Sys2Proof.Machine.millFoundEvent t).1 := by
  unfold Sys2Proof.Machine.millFoundEvent
  try dsimp only [State.done, Result.andThen]
  repeat' split
  all_goals try dsimp only [State.done, Result.andThen]
  all_goals repeat' first
    | exact h
    | with_reducible apply Keeps.millFound

theorem execMillFeedbackFound_keeps  (h : execMillFeedbackFound s = .next t) : Keeps s t := by
  unfold execMillFeedbackFound at h
  try dsimp only at h
  first
    | refine outcome_keeps ?_ h
    | (split at h <;> [refine outcome_keeps ?_ h; (simp only [Host.Outcome.next.injEq] at h; exact h ▸ Keeps.refl s)])
  try dsimp only [State.done, Result.andThen]
  repeat' first
    | exact Keeps.refl _
    | split
    | with_reducible apply Keeps.millFoundEvent | with_reducible apply Keeps.takeOffered

theorem execMillFeedbackLost_keeps  (h : execMillFeedbackLost s = .next t) : Keeps s t := by
  unfold execMillFeedbackLost at h
  try dsimp only at h
  first
    | refine outcome_keeps ?_ h
    | (split at h <;> [refine outcome_keeps ?_ h; (simp only [Host.Outcome.next.injEq] at h; exact h ▸ Keeps.refl s)])
  try dsimp only [State.done, Result.andThen]
  repeat' first
    | exact Keeps.refl _
    | split
    | with_reducible apply Keeps.millFeedbackLoss | with_reducible apply Keeps.takeOffered

/-! ### PressCommands.lean -/

theorem withPress_keeps {n : Nat} {f : PressId → Verdict} (h : ∀ v, (f v).Keeps s) : (withPress n f).Keeps s := by
  unfold withPress
  split
  · trivial
  · exact h _

theorem execProfileSet_keeps (tag : Byte) (profile : Nat) (fields : ProfileFields) (h : execProfileSet tag profile fields s = .next t) : RequestKeeps (.profileSet tag profile fields) s t := by
  refine serve_keeps (fun u => ?_) h
  try dsimp only
  repeat' first
    | exact refuse_keeps
    | exact Keeps.refl _
    | (refine (Keeps.refl _).touch (by assumption) ?_ ?_ ?_ <;> rfl)
    | exact (Keeps.refl _).setArb _ rfl (fun _ => id) id
    | with_reducible apply plain_keeps
    | with_reducible apply accept_keeps
    | with_reducible apply checked_keeps
    | with_reducible apply withBin_keeps
    | with_reducible apply withBatch_keeps
    | with_reducible apply withGrind_keeps
    | with_reducible apply withPress_keeps
    | with_reducible apply withHead_keeps
    | with_reducible apply withLine_keeps
    | intro _
    | dsimp only [State.done, Result.andThen]
    | split
    | with_reducible apply Keeps.setPresses

theorem execProfileRead_keeps (tag : Byte) (profile : Nat) (h : execProfileRead tag profile s = .next t) : RequestKeeps (.profileRead tag profile) s t := by
  refine serve_keeps (fun u => ?_) h
  try dsimp only
  repeat' first
    | exact refuse_keeps
    | exact Keeps.refl _
    | (refine (Keeps.refl _).touch (by assumption) ?_ ?_ ?_ <;> rfl)
    | exact (Keeps.refl _).setArb _ rfl (fun _ => id) id
    | with_reducible apply plain_keeps
    | with_reducible apply accept_keeps
    | with_reducible apply checked_keeps
    | with_reducible apply withBin_keeps
    | with_reducible apply withBatch_keeps
    | with_reducible apply withGrind_keeps
    | with_reducible apply withPress_keeps
    | with_reducible apply withHead_keeps
    | with_reducible apply withLine_keeps
    | intro _
    | dsimp only [State.done, Result.andThen]
    | split

theorem execPressSet_keeps (tag : Byte) (press : Nat) (fields : PressFields) (h : execPressSet tag press fields s = .next t) : RequestKeeps (.pressSet tag press fields) s t := by
  refine serve_keeps (fun u => ?_) h
  try dsimp only
  repeat' first
    | exact refuse_keeps
    | exact Keeps.refl _
    | (refine (Keeps.refl _).touch (by assumption) ?_ ?_ ?_ <;> rfl)
    | exact (Keeps.refl _).setArb _ rfl (fun _ => id) id
    | with_reducible apply plain_keeps
    | with_reducible apply accept_keeps
    | with_reducible apply checked_keeps
    | with_reducible apply withBin_keeps
    | with_reducible apply withBatch_keeps
    | with_reducible apply withGrind_keeps
    | with_reducible apply withPress_keeps
    | with_reducible apply withHead_keeps
    | with_reducible apply withLine_keeps
    | intro _
    | dsimp only [State.done, Result.andThen]
    | split
    | with_reducible apply Keeps.modPress

theorem execRunQueue_keeps (tag : Byte) (press : Nat) (run : RunFields) (h : execRunQueue tag press run s = .next t) : RequestKeeps (.runQueue tag press run) s t := by
  refine serve_keeps (fun u => ?_) h
  try dsimp only
  repeat' first
    | exact refuse_keeps
    | exact Keeps.refl _
    | (refine (Keeps.refl _).touch (by assumption) ?_ ?_ ?_ <;> rfl)
    | exact (Keeps.refl _).setArb _ rfl (fun _ => id) id
    | with_reducible apply plain_keeps
    | with_reducible apply accept_keeps
    | with_reducible apply checked_keeps
    | with_reducible apply withBin_keeps
    | with_reducible apply withBatch_keeps
    | with_reducible apply withGrind_keeps
    | with_reducible apply withPress_keeps
    | with_reducible apply withHead_keeps
    | with_reducible apply withLine_keeps
    | intro _
    | dsimp only [State.done, Result.andThen]
    | split
    | with_reducible apply Keeps.modPress

theorem execRunCancel_keeps (tag : Byte) (press : Nat) (number : Nat) (h : execRunCancel tag press number s = .next t) : RequestKeeps (.runCancel tag press number) s t := by
  refine serve_keeps (fun u => ?_) h
  try dsimp only
  repeat' first
    | exact refuse_keeps
    | exact Keeps.refl _
    | (refine (Keeps.refl _).touch (by assumption) ?_ ?_ ?_ <;> rfl)
    | exact (Keeps.refl _).setArb _ rfl (fun _ => id) id
    | with_reducible apply plain_keeps
    | with_reducible apply accept_keeps
    | with_reducible apply checked_keeps
    | with_reducible apply withBin_keeps
    | with_reducible apply withBatch_keeps
    | with_reducible apply withGrind_keeps
    | with_reducible apply withPress_keeps
    | with_reducible apply withHead_keeps
    | with_reducible apply withLine_keeps
    | intro _
    | dsimp only [State.done, Result.andThen]
    | split
    | with_reducible apply Keeps.modPress

theorem Keeps.startPress (h : Keeps s t) (p : PressId) (r : Run) : Keeps s (Sys2Proof.Machine.startPress t p r).1 := by
  unfold Sys2Proof.Machine.startPress
  try dsimp only [State.done, Result.andThen]
  repeat' split
  all_goals try dsimp only [State.done, Result.andThen]
  all_goals repeat' first
    | exact h
    | with_reducible apply Keeps.pressStarting | with_reducible apply Keeps.activateHead | with_reducible apply
      Keeps.raise

theorem execPressStart_keeps (tag : Byte) (press : Nat) (h : execPressStart tag press s = .next t) : RequestKeeps (.pressStart tag press) s t := by
  refine serve_keeps (fun u => ?_) h
  try dsimp only
  repeat' first
    | exact refuse_keeps
    | exact Keeps.refl _
    | (refine (Keeps.refl _).touch (by assumption) ?_ ?_ ?_ <;> rfl)
    | exact (Keeps.refl _).setArb _ rfl (fun _ => id) id
    | with_reducible apply plain_keeps
    | with_reducible apply accept_keeps
    | with_reducible apply checked_keeps
    | with_reducible apply withBin_keeps
    | with_reducible apply withBatch_keeps
    | with_reducible apply withGrind_keeps
    | with_reducible apply withPress_keeps
    | with_reducible apply withHead_keeps
    | with_reducible apply withLine_keeps
    | intro _
    | dsimp only [State.done, Result.andThen]
    | split
    | with_reducible apply Keeps.startPress

theorem Keeps.resumePress (h : Keeps s t) (p : PressId) : Keeps s (Sys2Proof.Machine.resumePress t p).1 := by
  unfold Sys2Proof.Machine.resumePress
  try dsimp only [State.done, Result.andThen]
  repeat' split
  all_goals try dsimp only [State.done, Result.andThen]
  all_goals repeat' first
    | exact h
    | with_reducible apply Keeps.pressStarting | with_reducible apply Keeps.actSignal | with_reducible apply
      Keeps.enterPhase | with_reducible apply Keeps.modPress

theorem execPressResume_keeps (tag : Byte) (press : Nat) (h : execPressResume tag press s = .next t) : RequestKeeps (.pressResume tag press) s t := by
  refine serve_keeps (fun u => ?_) h
  try dsimp only
  repeat' first
    | exact refuse_keeps
    | exact Keeps.refl _
    | (refine (Keeps.refl _).touch (by assumption) ?_ ?_ ?_ <;> rfl)
    | exact (Keeps.refl _).setArb _ rfl (fun _ => id) id
    | with_reducible apply plain_keeps
    | with_reducible apply accept_keeps
    | with_reducible apply checked_keeps
    | with_reducible apply withBin_keeps
    | with_reducible apply withBatch_keeps
    | with_reducible apply withGrind_keeps
    | with_reducible apply withPress_keeps
    | with_reducible apply withHead_keeps
    | with_reducible apply withLine_keeps
    | intro _
    | dsimp only [State.done, Result.andThen]
    | split
    | with_reducible apply Keeps.resumePress

theorem execPressStop_keeps (tag : Byte) (press : Nat) (h : execPressStop tag press s = .next t) : RequestKeeps (.pressStop tag press) s t := by
  refine serve_keeps (fun u => ?_) h
  try dsimp only
  repeat' first
    | exact refuse_keeps
    | exact Keeps.refl _
    | (refine (Keeps.refl _).touch (by assumption) ?_ ?_ ?_ <;> rfl)
    | exact (Keeps.refl _).setArb _ rfl (fun _ => id) id
    | with_reducible apply plain_keeps
    | with_reducible apply accept_keeps
    | with_reducible apply checked_keeps
    | with_reducible apply withBin_keeps
    | with_reducible apply withBatch_keeps
    | with_reducible apply withGrind_keeps
    | with_reducible apply withPress_keeps
    | with_reducible apply withHead_keeps
    | with_reducible apply withLine_keeps
    | intro _
    | dsimp only [State.done, Result.andThen]
    | split
    | with_reducible apply Keeps.pressStopNow

theorem execPressTrim_keeps (tag : Byte) (press : Nat) (rateTrim : Int) (tempTrim : Int) (h : execPressTrim tag press rateTrim tempTrim s = .next t) : RequestKeeps (.pressTrim tag press rateTrim tempTrim) s t := by
  refine serve_keeps (fun u => ?_) h
  try dsimp only
  repeat' first
    | exact refuse_keeps
    | exact Keeps.refl _
    | (refine (Keeps.refl _).touch (by assumption) ?_ ?_ ?_ <;> rfl)
    | exact (Keeps.refl _).setArb _ rfl (fun _ => id) id
    | with_reducible apply plain_keeps
    | with_reducible apply accept_keeps
    | with_reducible apply checked_keeps
    | with_reducible apply withBin_keeps
    | with_reducible apply withBatch_keeps
    | with_reducible apply withGrind_keeps
    | with_reducible apply withPress_keeps
    | with_reducible apply withHead_keeps
    | with_reducible apply withLine_keeps
    | intro _
    | dsimp only [State.done, Result.andThen]
    | split
    | with_reducible apply Keeps.writeSteam | with_reducible apply Keeps.modPress

theorem execChangeoverNow_keeps (tag : Byte) (press : Nat) (h : execChangeoverNow tag press s = .next t) : RequestKeeps (.changeoverNow tag press) s t := by
  refine serve_keeps (fun u => ?_) h
  try dsimp only
  repeat' first
    | exact refuse_keeps
    | exact Keeps.refl _
    | (refine (Keeps.refl _).touch (by assumption) ?_ ?_ ?_ <;> rfl)
    | exact (Keeps.refl _).setArb _ rfl (fun _ => id) id
    | with_reducible apply plain_keeps
    | with_reducible apply accept_keeps
    | with_reducible apply checked_keeps
    | with_reducible apply withBin_keeps
    | with_reducible apply withBatch_keeps
    | with_reducible apply withGrind_keeps
    | with_reducible apply withPress_keeps
    | with_reducible apply withHead_keeps
    | with_reducible apply withLine_keeps
    | intro _
    | dsimp only [State.done, Result.andThen]
    | split
    | with_reducible apply Keeps.immediateSignal

theorem execPressRead_keeps (tag : Byte) (press : Nat) (h : execPressRead tag press s = .next t) : RequestKeeps (.pressRead tag press) s t := by
  refine serve_keeps (fun u => ?_) h
  try dsimp only
  repeat' first
    | exact refuse_keeps
    | exact Keeps.refl _
    | (refine (Keeps.refl _).touch (by assumption) ?_ ?_ ?_ <;> rfl)
    | exact (Keeps.refl _).setArb _ rfl (fun _ => id) id
    | with_reducible apply plain_keeps
    | with_reducible apply accept_keeps
    | with_reducible apply checked_keeps
    | with_reducible apply withBin_keeps
    | with_reducible apply withBatch_keeps
    | with_reducible apply withGrind_keeps
    | with_reducible apply withPress_keeps
    | with_reducible apply withHead_keeps
    | with_reducible apply withLine_keeps
    | intro _
    | dsimp only [State.done, Result.andThen]
    | split

theorem execPressButtonPress_keeps (press : Nat) (h : execPressButtonPress press s = .next t) : Keeps s t := by
  refine atPress_keeps (fun p => ?_) h
  try dsimp only [State.done, Result.andThen]
  repeat' first
    | exact Keeps.refl _
    | split
    | with_reducible apply Keeps.pressButton | with_reducible apply Keeps.takeOffered

theorem execPressControlInterval_keeps (press : Nat) (currentPos : Int) (tempPos : Int) (h : execPressControlInterval press currentPos tempPos s = .next t) : Keeps s t := by
  refine atPress_keeps (fun p => ?_) h
  try dsimp only [State.done, Result.andThen]
  repeat' first
    | exact Keeps.refl _
    | split
    | with_reducible apply Keeps.controlInterval | with_reducible apply Keeps.setAnalogPin

theorem Keeps.chokeReached (h : Keeps s t) (p : PressId) : Keeps s (Sys2Proof.Machine.chokeReached t p).1 := by
  unfold Sys2Proof.Machine.chokeReached
  try dsimp only [State.done, Result.andThen]
  repeat' split
  all_goals try dsimp only [State.done, Result.andThen]
  all_goals repeat' first
    | exact h
    | with_reducible apply Keeps.choke | with_reducible apply Keeps.modPress

theorem execPressChoke_keeps (press : Nat) (h : execPressChoke press s = .next t) : Keeps s t := by
  refine atPress_keeps (fun p => ?_) h
  try dsimp only [State.done, Result.andThen]
  repeat' first
    | exact Keeps.refl _
    | split
    | with_reducible apply Keeps.chokeReached

theorem Keeps.coldReached (h : Keeps s t) (p : PressId) : Keeps s (Sys2Proof.Machine.coldReached t p).1 := by
  unfold Sys2Proof.Machine.coldReached
  try dsimp only [State.done, Result.andThen]
  repeat' split
  all_goals try dsimp only [State.done, Result.andThen]
  all_goals repeat' first
    | exact h
    | with_reducible apply Keeps.holdPress | with_reducible apply Keeps.modPress

theorem execPressColdHold_keeps (press : Nat) (h : execPressColdHold press s = .next t) : Keeps s t := by
  refine atPress_keeps (fun p => ?_) h
  try dsimp only [State.done, Result.andThen]
  repeat' first
    | exact Keeps.refl _
    | split
    | with_reducible apply Keeps.coldReached

theorem Keeps.pressStartExpiry (h : Keeps s t) (p : PressId) : Keeps s (Sys2Proof.Machine.pressStartExpiry t p).1 := by
  unfold Sys2Proof.Machine.pressStartExpiry
  try dsimp only [State.done, Result.andThen]
  repeat' split
  all_goals try dsimp only [State.done, Result.andThen]
  all_goals repeat' first
    | exact h
    | with_reducible apply Keeps.holdPress

theorem execPressStartTimeout_keeps (press : Nat) (h : execPressStartTimeout press s = .next t) : Keeps s t := by
  refine atPress_keeps (fun p => ?_) h
  try dsimp only [State.done, Result.andThen]
  repeat' first
    | exact Keeps.refl _
    | split
    | with_reducible apply Keeps.pressStartExpiry

theorem Keeps.pressColdExpiry (h : Keeps s t) (p : PressId) : Keeps s (Sys2Proof.Machine.pressColdExpiry t p).1 := by
  unfold Sys2Proof.Machine.pressColdExpiry
  try dsimp only [State.done, Result.andThen]
  repeat' split
  all_goals try dsimp only [State.done, Result.andThen]
  all_goals repeat' first
    | exact h
    | with_reducible apply Keeps.holdPress

theorem execPressColdTimeout_keeps (press : Nat) (h : execPressColdTimeout press s = .next t) : Keeps s t := by
  refine atPress_keeps (fun p => ?_) h
  try dsimp only [State.done, Result.andThen]
  repeat' first
    | exact Keeps.refl _
    | split
    | with_reducible apply Keeps.pressColdExpiry

theorem execStarveTimeout_keeps (press : Nat) (h : execStarveTimeout press s = .next t) : Keeps s t := by
  refine atPress_keeps (fun p => ?_) h
  try dsimp only [State.done, Result.andThen]
  repeat' first
    | exact Keeps.refl _
    | split
    | with_reducible apply Keeps.starveExpiry

theorem execChangeoverDelayTimeout_keeps (press : Nat) (h : execChangeoverDelayTimeout press s = .next t) : Keeps s t := by
  refine atPress_keeps (fun p => ?_) h
  try dsimp only [State.done, Result.andThen]
  repeat' first
    | exact Keeps.refl _
    | split
    | with_reducible apply Keeps.delayExpiry

theorem Keeps.pressRundownExpiry (h : Keeps s t) (p : PressId) : Keeps s (Sys2Proof.Machine.pressRundownExpiry t p).1 := by
  unfold Sys2Proof.Machine.pressRundownExpiry
  try dsimp only [State.done, Result.andThen]
  repeat' split
  all_goals try dsimp only [State.done, Result.andThen]
  all_goals repeat' first
    | exact h
    | with_reducible apply Keeps.modPress

theorem execPressRundownTimeout_keeps (press : Nat) (h : execPressRundownTimeout press s = .next t) : Keeps s t := by
  refine atPress_keeps (fun p => ?_) h
  try dsimp only [State.done, Result.andThen]
  repeat' first
    | exact Keeps.refl _
    | split
    | with_reducible apply Keeps.pressRundownExpiry

theorem Keeps.pressFoundEvent (h : Keeps s t) (p : PressId) : Keeps s (Sys2Proof.Machine.pressFoundEvent t p).1 := by
  unfold Sys2Proof.Machine.pressFoundEvent
  try dsimp only [State.done, Result.andThen]
  repeat' split
  all_goals try dsimp only [State.done, Result.andThen]
  all_goals repeat' first
    | exact h
    | with_reducible apply Keeps.pressFound

theorem execPressFeedbackFound_keeps (press : Nat) (h : execPressFeedbackFound press s = .next t) : Keeps s t := by
  refine atPress_keeps (fun p => ?_) h
  try dsimp only [State.done, Result.andThen]
  repeat' first
    | exact Keeps.refl _
    | split
    | with_reducible apply Keeps.pressFoundEvent | with_reducible apply Keeps.takeOffered

theorem execPressFeedbackLost_keeps (press : Nat) (h : execPressFeedbackLost press s = .next t) : Keeps s t := by
  refine atPress_keeps (fun p => ?_) h
  try dsimp only [State.done, Result.andThen]
  repeat' first
    | exact Keeps.refl _
    | split
    | with_reducible apply Keeps.pressFeedbackLoss | with_reducible apply Keeps.takeOffered

/-! ### BaggerCommands.lean -/

theorem execBaggerSet_keeps (tag : Byte) (checkTime : Tenths) (releaseTime : Tenths) (h : execBaggerSet tag checkTime releaseTime s = .next t) : RequestKeeps (.baggerSet tag checkTime releaseTime) s t := by
  refine serve_keeps (fun u => ?_) h
  try dsimp only
  repeat' first
    | exact refuse_keeps
    | exact Keeps.refl _
    | (refine (Keeps.refl _).touch (by assumption) ?_ ?_ ?_ <;> rfl)
    | exact (Keeps.refl _).setArb _ rfl (fun _ => id) id
    | with_reducible apply plain_keeps
    | with_reducible apply accept_keeps
    | with_reducible apply checked_keeps
    | with_reducible apply withBin_keeps
    | with_reducible apply withBatch_keeps
    | with_reducible apply withGrind_keeps
    | with_reducible apply withPress_keeps
    | with_reducible apply withHead_keeps
    | with_reducible apply withLine_keeps
    | intro _
    | dsimp only [State.done, Result.andThen]
    | split
    | with_reducible apply Keeps.setBag

theorem acceptBagRun_keeps {u : State} {f : BagFields} {start : StartTrigger} {arming : BagArming} {stop : StopTrigger}
    (hc : claimRefusal u [bagClaim f] = none) : (acceptBagRun u f start arming stop).Keeps u := by
  have hr := claimRefusal_none hc
  have hk := (Keeps.refl u).createOne f.bin (.bagRun f.number) (f.target * f.count) (hr.1 _ List.mem_cons_self)
    (by have := hr.2; simp only [List.length_singleton] at this; omega)
  exact hk.setBag _

theorem execBagQueue_keeps (tag : Byte) (run : BagFields) (h : execBagQueue tag run s = .next t) : RequestKeeps (.bagQueue tag run) s t := by
  refine serve_keeps (fun u => ?_) h
  try dsimp only
  repeat' first
    | exact refuse_keeps
    | exact Keeps.refl _
    | (refine (Keeps.refl _).touch (by assumption) ?_ ?_ ?_ <;> rfl)
    | exact (Keeps.refl _).setArb _ rfl (fun _ => id) id
    | with_reducible apply plain_keeps
    | with_reducible apply accept_keeps
    | exact acceptBagRun_keeps (by assumption)
    | with_reducible apply checked_keeps
    | with_reducible apply withBin_keeps
    | with_reducible apply withBatch_keeps
    | with_reducible apply withGrind_keeps
    | with_reducible apply withPress_keeps
    | with_reducible apply withHead_keeps
    | with_reducible apply withLine_keeps
    | intro _
    | dsimp only [State.done, Result.andThen]
    | split

theorem execBagRunStart_keeps (tag : Byte) (h : execBagRunStart tag s = .next t) : RequestKeeps (.bagRunStart tag) s t := by
  refine serve_keeps (fun u => ?_) h
  try dsimp only
  repeat' first
    | exact refuse_keeps
    | exact Keeps.refl _
    | (refine (Keeps.refl _).touch (by assumption) ?_ ?_ ?_ <;> rfl)
    | exact (Keeps.refl _).setArb _ rfl (fun _ => id) id
    | with_reducible apply plain_keeps
    | with_reducible apply accept_keeps
    | with_reducible apply checked_keeps
    | with_reducible apply withBin_keeps
    | with_reducible apply withBatch_keeps
    | with_reducible apply withGrind_keeps
    | with_reducible apply withPress_keeps
    | with_reducible apply withHead_keeps
    | with_reducible apply withLine_keeps
    | intro _
    | dsimp only [State.done, Result.andThen]
    | split
    | with_reducible apply Keeps.commandStart

theorem withHead_keeps {f : BagRun → Verdict} (h : ∀ v, (f v).Keeps s) : (withHead s f).Keeps s := by
  unfold withHead
  split
  · trivial
  · exact h _

theorem execBagRunStop_keeps (tag : Byte) (h : execBagRunStop tag s = .next t) : RequestKeeps (.bagRunStop tag) s t := by
  refine serve_keeps (fun u => ?_) h
  try dsimp only
  repeat' first
    | exact refuse_keeps
    | exact Keeps.refl _
    | (refine (Keeps.refl _).touch (by assumption) ?_ ?_ ?_ <;> rfl)
    | exact (Keeps.refl _).setArb _ rfl (fun _ => id) id
    | with_reducible apply plain_keeps
    | with_reducible apply accept_keeps
    | with_reducible apply checked_keeps
    | with_reducible apply withBin_keeps
    | with_reducible apply withBatch_keeps
    | with_reducible apply withGrind_keeps
    | with_reducible apply withPress_keeps
    | with_reducible apply withHead_keeps
    | with_reducible apply withLine_keeps
    | intro _
    | dsimp only [State.done, Result.andThen]
    | split
    | with_reducible apply Keeps.stopRun

theorem Keeps.resumeBag (h : Keeps s t) (r : BagRun) : Keeps s (Sys2Proof.Machine.resumeBag t r).1 := by
  unfold Sys2Proof.Machine.resumeBag
  try dsimp only [State.done, Result.andThen]
  repeat' split
  all_goals try dsimp only [State.done, Result.andThen]
  all_goals repeat' first
    | exact h
    | with_reducible apply Keeps.continueRun | with_reducible apply Keeps.enterReleasing | with_reducible apply Keeps.ask

theorem execBaggerResume_keeps (tag : Byte) (h : execBaggerResume tag s = .next t) : RequestKeeps (.baggerResume tag) s t := by
  refine serve_keeps (fun u => ?_) h
  try dsimp only
  repeat' first
    | exact refuse_keeps
    | exact Keeps.refl _
    | (refine (Keeps.refl _).touch (by assumption) ?_ ?_ ?_ <;> rfl)
    | exact (Keeps.refl _).setArb _ rfl (fun _ => id) id
    | with_reducible apply plain_keeps
    | with_reducible apply accept_keeps
    | with_reducible apply checked_keeps
    | with_reducible apply withBin_keeps
    | with_reducible apply withBatch_keeps
    | with_reducible apply withGrind_keeps
    | with_reducible apply withPress_keeps
    | with_reducible apply withHead_keeps
    | with_reducible apply withLine_keeps
    | intro _
    | dsimp only [State.done, Result.andThen]
    | split
    | with_reducible apply Keeps.resumeBag

theorem Keeps.dropBagRun (h : Keeps s t) (r : BagRun) (head : Bool) : Keeps s (Sys2Proof.Machine.dropBagRun t r head).1 := by
  unfold Sys2Proof.Machine.dropBagRun
  try dsimp only [State.done, Result.andThen]
  repeat' split
  all_goals try dsimp only [State.done, Result.andThen]
  all_goals repeat' first
    | exact h
    | with_reducible apply Keeps.becomeHead | with_reducible apply Keeps.closeClaim | with_reducible apply
      Keeps.setBag

theorem cancelHead_keeps (u : State) (r : BagRun) : (cancelHead u r).Keeps u := by
  unfold cancelHead
  dsimp only
  repeat' first
    | exact refuse_keeps
    | with_reducible apply accept_keeps
    | exact (Keeps.refl u).endBagRun _ _
    | exact (Keeps.refl u).dropBagRun _ _
    | split

theorem execBagCancel_keeps (tag : Byte) (number : Nat) (h : execBagCancel tag number s = .next t) : RequestKeeps (.bagCancel tag number) s t := by
  refine serve_keeps (fun u => ?_) h
  try dsimp only
  repeat' first
    | exact refuse_keeps
    | exact Keeps.refl _
    | (refine (Keeps.refl _).touch (by assumption) ?_ ?_ ?_ <;> rfl)
    | exact (Keeps.refl _).setArb _ rfl (fun _ => id) id
    | with_reducible apply plain_keeps
    | with_reducible apply accept_keeps
    | exact cancelHead_keeps _ _
    | with_reducible apply checked_keeps
    | with_reducible apply withBin_keeps
    | with_reducible apply withBatch_keeps
    | with_reducible apply withGrind_keeps
    | with_reducible apply withPress_keeps
    | with_reducible apply withHead_keeps
    | with_reducible apply withLine_keeps
    | intro _
    | dsimp only [State.done, Result.andThen]
    | split
    | with_reducible apply Keeps.dropBagRun

theorem execBaggerRead_keeps (tag : Byte) (h : execBaggerRead tag s = .next t) : RequestKeeps (.baggerRead tag) s t := by
  refine serve_keeps (fun u => ?_) h
  try dsimp only
  repeat' first
    | exact refuse_keeps
    | exact Keeps.refl _
    | (refine (Keeps.refl _).touch (by assumption) ?_ ?_ ?_ <;> rfl)
    | exact (Keeps.refl _).setArb _ rfl (fun _ => id) id
    | with_reducible apply plain_keeps
    | with_reducible apply accept_keeps
    | with_reducible apply checked_keeps
    | with_reducible apply withBin_keeps
    | with_reducible apply withBatch_keeps
    | with_reducible apply withGrind_keeps
    | with_reducible apply withPress_keeps
    | with_reducible apply withHead_keeps
    | with_reducible apply withLine_keeps
    | intro _
    | dsimp only [State.done, Result.andThen]
    | split

theorem execBaggerStartPress_keeps  (h : execBaggerStartPress s = .next t) : Keeps s t := by
  unfold execBaggerStartPress at h
  try dsimp only at h
  first
    | refine outcome_keeps ?_ h
    | (split at h <;> [refine outcome_keeps ?_ h; (simp only [Host.Outcome.next.injEq] at h; exact h ▸ Keeps.refl s)])
  try dsimp only [State.done, Result.andThen]
  repeat' first
    | exact Keeps.refl _
    | split
    | with_reducible apply Keeps.takeStart | with_reducible apply Keeps.takeOffered

theorem execBaggerStopPress_keeps  (h : execBaggerStopPress s = .next t) : Keeps s t := by
  unfold execBaggerStopPress at h
  try dsimp only at h
  first
    | refine outcome_keeps ?_ h
    | (split at h <;> [refine outcome_keeps ?_ h; (simp only [Host.Outcome.next.injEq] at h; exact h ▸ Keeps.refl s)])
  try dsimp only [State.done, Result.andThen]
  repeat' first
    | exact Keeps.refl _
    | split
    | with_reducible apply Keeps.takeStop | with_reducible apply Keeps.takeOffered

theorem execBagPresentPress_keeps  (h : execBagPresentPress s = .next t) : Keeps s t := by
  unfold execBagPresentPress at h
  try dsimp only at h
  first
    | refine outcome_keeps ?_ h
    | (split at h <;> [refine outcome_keeps ?_ h; (simp only [Host.Outcome.next.injEq] at h; exact h ▸ Keeps.refl s)])
  try dsimp only [State.done, Result.andThen]
  repeat' first
    | exact Keeps.refl _
    | split
    | with_reducible apply Keeps.bagArrives | with_reducible apply Keeps.takeOffered

theorem execBagGonePress_keeps  (h : execBagGonePress s = .next t) : Keeps s t := by
  unfold execBagGonePress at h
  try dsimp only at h
  first
    | refine outcome_keeps ?_ h
    | (split at h <;> [refine outcome_keeps ?_ h; (simp only [Host.Outcome.next.injEq] at h; exact h ▸ Keeps.refl s)])
  try dsimp only [State.done, Result.andThen]
  repeat' first
    | exact Keeps.refl _
    | split
    | with_reducible apply Keeps.bagGone | with_reducible apply Keeps.takeOffered

theorem execCheckTimeout_keeps  (h : execCheckTimeout s = .next t) : Keeps s t := by
  unfold execCheckTimeout at h
  try dsimp only at h
  first
    | refine outcome_keeps ?_ h
    | (split at h <;> [refine outcome_keeps ?_ h; (simp only [Host.Outcome.next.injEq] at h; exact h ▸ Keeps.refl s)])
  try dsimp only [State.done, Result.andThen]
  repeat' first
    | exact Keeps.refl _
    | split
    | with_reducible apply Keeps.checkExpiry

theorem Keeps.bagReleaseExpiry (h : Keeps s t) : Keeps s (Sys2Proof.Machine.bagReleaseExpiry t).1 := by
  unfold Sys2Proof.Machine.bagReleaseExpiry
  try dsimp only [State.done, Result.andThen]
  repeat' split
  all_goals try dsimp only [State.done, Result.andThen]
  all_goals repeat' first
    | exact h
    | with_reducible apply Keeps.bagGone

theorem execBagReleaseTimeout_keeps  (h : execBagReleaseTimeout s = .next t) : Keeps s t := by
  unfold execBagReleaseTimeout at h
  try dsimp only at h
  first
    | refine outcome_keeps ?_ h
    | (split at h <;> [refine outcome_keeps ?_ h; (simp only [Host.Outcome.next.injEq] at h; exact h ▸ Keeps.refl s)])
  try dsimp only [State.done, Result.andThen]
  repeat' first
    | exact Keeps.refl _
    | split
    | with_reducible apply Keeps.bagReleaseExpiry

/-! ### BookCommands.lean -/

theorem execOrderEnter_keeps (tag : Byte) (number : Nat) (customer : Nat) (lines : List LineFields) (h : execOrderEnter tag number customer lines s = .next t) : RequestKeeps (.orderEnter tag number customer lines) s t := by
  refine serve_keeps (fun u => ?_) h
  try dsimp only
  repeat' first
    | exact refuse_keeps
    | exact Keeps.refl _
    | (refine (Keeps.refl _).touch (by assumption) ?_ ?_ ?_ <;> rfl)
    | exact (Keeps.refl _).setArb _ rfl (fun _ => id) id
    | with_reducible apply plain_keeps
    | with_reducible apply accept_keeps
    | with_reducible apply checked_keeps
    | with_reducible apply withBin_keeps
    | with_reducible apply withBatch_keeps
    | with_reducible apply withGrind_keeps
    | with_reducible apply withPress_keeps
    | with_reducible apply withHead_keeps
    | with_reducible apply withLine_keeps
    | intro _
    | dsimp only [State.done, Result.andThen]
    | split
    | exact (Keeps.refl _).setBook _

theorem withLine_keeps {o l : Nat} {f : Order → OrderLine → Verdict} (h : ∀ v w, (f v w).Keeps s) :
    (withLine s o l f).Keeps s := by
  unfold withLine
  split
  · trivial
  · split
    · trivial
    · split
      · trivial
      · exact h _ _

theorem assignLine_keeps {u : State} {o : Order} {line : Nat} {l : OrderLine} {bin order : Nat}
    (hc : claimRefusal u [(bin, Holder.orderLine order line, l.remaining)] = none) : (assignLine u o line l bin).Keeps u := by
  have hr := claimRefusal_none hc
  have hk := (Keeps.refl u).createOne bin (.orderLine o.number line) l.remaining (hr.1 _ List.mem_cons_self)
    (by have := hr.2; simp only [List.length_singleton] at this; omega)
  exact (hk.setBook _).closeHeld _ _

theorem execLineAssign_keeps (tag : Byte) (order : Nat) (line : Nat) (bin : Nat) (h : execLineAssign tag order line bin s = .next t) : RequestKeeps (.lineAssign tag order line bin) s t := by
  refine serve_keeps (fun u => ?_) h
  try dsimp only
  repeat' first
    | exact refuse_keeps
    | exact Keeps.refl _
    | (refine (Keeps.refl _).touch (by assumption) ?_ ?_ ?_ <;> rfl)
    | exact (Keeps.refl _).setArb _ rfl (fun _ => id) id
    | with_reducible apply plain_keeps
    | with_reducible apply accept_keeps
    | exact assignLine_keeps (by assumption)
    | with_reducible apply checked_keeps
    | with_reducible apply withBin_keeps
    | with_reducible apply withBatch_keeps
    | with_reducible apply withGrind_keeps
    | with_reducible apply withPress_keeps
    | with_reducible apply withHead_keeps
    | with_reducible apply withLine_keeps
    | intro _
    | dsimp only [State.done, Result.andThen]
    | split

theorem Keeps.closeLine (h : Keeps s t) (o : Order) (line : Nat) (l : OrderLine) : Keeps s (Sys2Proof.Machine.closeLine t o line l).1 := by
  unfold Sys2Proof.Machine.closeLine
  try dsimp only [State.done, Result.andThen]
  repeat' split
  all_goals try dsimp only [State.done, Result.andThen]
  all_goals repeat' first
    | exact h
    | with_reducible apply Keeps.judgeCompartment | with_reducible apply Keeps.chooseLine | with_reducible apply
      Keeps.judgeLoaded | with_reducible apply Keeps.putOrder | with_reducible apply Keeps.closeHeld

theorem execLineClose_keeps (tag : Byte) (order : Nat) (line : Nat) (h : execLineClose tag order line s = .next t) : RequestKeeps (.lineClose tag order line) s t := by
  refine serve_keeps (fun u => ?_) h
  try dsimp only
  repeat' first
    | exact refuse_keeps
    | exact Keeps.refl _
    | (refine (Keeps.refl _).touch (by assumption) ?_ ?_ ?_ <;> rfl)
    | exact (Keeps.refl _).setArb _ rfl (fun _ => id) id
    | with_reducible apply plain_keeps
    | with_reducible apply accept_keeps
    | with_reducible apply checked_keeps
    | with_reducible apply withBin_keeps
    | with_reducible apply withBatch_keeps
    | with_reducible apply withGrind_keeps
    | with_reducible apply withPress_keeps
    | with_reducible apply withHead_keeps
    | with_reducible apply withLine_keeps
    | intro _
    | dsimp only [State.done, Result.andThen]
    | split
    | with_reducible apply Keeps.closeLine

theorem execOrderCancel_keeps (tag : Byte) (order : Nat) (h : execOrderCancel tag order s = .next t) : RequestKeeps (.orderCancel tag order) s t := by
  refine serve_keeps (fun u => ?_) h
  try dsimp only
  repeat' first
    | exact refuse_keeps
    | exact Keeps.refl _
    | (refine (Keeps.refl _).touch (by assumption) ?_ ?_ ?_ <;> rfl)
    | exact (Keeps.refl _).setArb _ rfl (fun _ => id) id
    | with_reducible apply plain_keeps
    | with_reducible apply accept_keeps
    | with_reducible apply checked_keeps
    | with_reducible apply withBin_keeps
    | with_reducible apply withBatch_keeps
    | with_reducible apply withGrind_keeps
    | with_reducible apply withPress_keeps
    | with_reducible apply withHead_keeps
    | with_reducible apply withLine_keeps
    | intro _
    | dsimp only [State.done, Result.andThen]
    | split
    | with_reducible apply Keeps.dropOrder | with_reducible apply Keeps.closeAll

theorem Keeps.bringTruck (h : Keeps s t) (o : Order) (capacities : List Nat) : Keeps s (Sys2Proof.Machine.bringTruck t o capacities) := by
  unfold Sys2Proof.Machine.bringTruck
  try dsimp only [State.done, Result.andThen]
  repeat' split
  all_goals try dsimp only [State.done, Result.andThen]
  all_goals repeat' first
    | exact h
    | with_reducible apply Keeps.setLoadout | with_reducible apply Keeps.putOrder

theorem execTruckIn_keeps (tag : Byte) (order : Nat) (capacities : List Nat) (h : execTruckIn tag order capacities s = .next t) : RequestKeeps (.truckIn tag order capacities) s t := by
  refine serve_keeps (fun u => ?_) h
  try dsimp only
  repeat' first
    | exact refuse_keeps
    | exact Keeps.refl _
    | (refine (Keeps.refl _).touch (by assumption) ?_ ?_ ?_ <;> rfl)
    | exact (Keeps.refl _).setArb _ rfl (fun _ => id) id
    | with_reducible apply plain_keeps
    | with_reducible apply accept_keeps
    | with_reducible apply checked_keeps
    | with_reducible apply withBin_keeps
    | with_reducible apply withBatch_keeps
    | with_reducible apply withGrind_keeps
    | with_reducible apply withPress_keeps
    | with_reducible apply withHead_keeps
    | with_reducible apply withLine_keeps
    | intro _
    | dsimp only [State.done, Result.andThen]
    | split
    | with_reducible apply Keeps.bringTruck

theorem execSpoutReady_keeps (tag : Byte) (h : execSpoutReady tag s = .next t) : RequestKeeps (.spoutReady tag) s t := by
  refine serve_keeps (fun u => ?_) h
  try dsimp only
  repeat' first
    | exact refuse_keeps
    | exact Keeps.refl _
    | (refine (Keeps.refl _).touch (by assumption) ?_ ?_ ?_ <;> rfl)
    | exact (Keeps.refl _).setArb _ rfl (fun _ => id) id
    | with_reducible apply plain_keeps
    | with_reducible apply accept_keeps
    | with_reducible apply checked_keeps
    | with_reducible apply withBin_keeps
    | with_reducible apply withBatch_keeps
    | with_reducible apply withGrind_keeps
    | with_reducible apply withPress_keeps
    | with_reducible apply withHead_keeps
    | with_reducible apply withLine_keeps
    | intro _
    | dsimp only [State.done, Result.andThen]
    | split
    | with_reducible apply Keeps.startLoading

theorem Keeps.acceptLoad (h : Keeps s t) (o : Order) (i : Nat) (l : OrderLine) : Keeps s (Sys2Proof.Machine.acceptLoad t o i l).1 := by
  unfold Sys2Proof.Machine.acceptLoad
  try dsimp only [State.done, Result.andThen]
  repeat' split
  all_goals try dsimp only [State.done, Result.andThen]
  all_goals repeat' first
    | exact h
    | with_reducible apply Keeps.finishLine | with_reducible apply Keeps.chooseLine

theorem execLoadoutResume_keeps (tag : Byte) (action : Nat) (h : execLoadoutResume tag action s = .next t) : RequestKeeps (.loadoutResume tag action) s t := by
  refine serve_keeps (fun u => ?_) h
  try dsimp only
  repeat' first
    | exact refuse_keeps
    | exact Keeps.refl _
    | (refine (Keeps.refl _).touch (by assumption) ?_ ?_ ?_ <;> rfl)
    | exact (Keeps.refl _).setArb _ rfl (fun _ => id) id
    | with_reducible apply plain_keeps
    | with_reducible apply accept_keeps
    | with_reducible apply checked_keeps
    | with_reducible apply withBin_keeps
    | with_reducible apply withBatch_keeps
    | with_reducible apply withGrind_keeps
    | with_reducible apply withPress_keeps
    | with_reducible apply withHead_keeps
    | with_reducible apply withLine_keeps
    | intro _
    | dsimp only [State.done, Result.andThen]
    | split
    | with_reducible apply Keeps.acceptLoad | with_reducible apply Keeps.startLoading

theorem foldl_raise_book {α : Type} (f : α → Event) (l : List α) :
    ∀ s : State, (l.foldl (fun u x => u.raise (f x)) s).book = s.book := by
  induction l with
  | nil => exact fun _ => rfl
  | cons x l ih => exact fun s => ih (s.raise (f x))

theorem closeReservation_book (s : State) (id : Nat) : (closeReservation s id).1.book = s.book := by
  unfold closeReservation
  split
  · rfl
  · exact foldl_raise_book (fun id => Event.reservationFilled id _) _ _

theorem closeClaim_book (s : State) (h : Holder) (id : Nat) : (closeClaim s h id).1.book = s.book := by
  unfold closeClaim
  split
  exacts [closeReservation_book s id, rfl]

theorem closeAll_book (l : List (Holder × Nat)) (s : State) : (closeAll s l).1.book = s.book := by
  suffices h : ∀ r : Result, (l.foldl (fun r c => r.andThen (fun t => closeClaim t c.1 c.2)) r).1.book = r.1.book from
    h s.done
  induction l with
  | nil => exact fun _ => rfl
  | cons c l ih => exact fun r => (ih _).trans (closeClaim_book r.1 c.1 c.2)

theorem Keeps.sendTruck (h : Keeps s t) (o : Order) (x : Truck) (hd : t.book.dispatch.length < Config.dispatchCap) :
    Keeps s (Sys2Proof.Machine.sendTruck t o x).1 := by
  unfold Sys2Proof.Machine.sendTruck
  refine ((h.closeAll _).dropOrder _).setBook _ fun _ => ?_
  have : ((Sys2Proof.Machine.closeAll t o.claims).1.dropOrder o.number).book.dispatch = t.book.dispatch :=
    (show (Sys2Proof.Machine.closeAll t o.claims).1.book.dispatch = _ by rw [closeAll_book])
  simp only [this, List.length_append, List.length_singleton]
  omega

theorem execTruckOut_keeps (tag : Byte) (force : Nat) (h : execTruckOut tag force s = .next t) : RequestKeeps (.truckOut tag force) s t := by
  refine serve_keeps (fun u => ?_) h
  dsimp only
  split
  · exact refuse_keeps
  · split
    · refine checked_keeps_of _ fun hc => accept_keeps ((Keeps.refl _).sendTruck _ _ ?_)
      simp only [List.mem_cons, List.not_mem_nil, or_false, forall_eq_or_imp, forall_eq, decide_eq_true_eq] at hc
      exact hc.2.2
    · exact refuse_keeps

theorem execDispatchTake_keeps (tag : Byte) (h : execDispatchTake tag s = .next t) : RequestKeeps (.dispatchTake tag) s t := by
  refine serve_keeps (fun u => ?_) h
  dsimp only
  split
  · exact refuse_keeps
  · next d rest hd =>
    refine plain_keeps ((Keeps.refl _).setBook _ fun hl => ?_)
    rw [hd] at hl
    exact Nat.le_of_succ_le hl

theorem execOrderRead_keeps (tag : Byte) (order : Nat) (h : execOrderRead tag order s = .next t) : RequestKeeps (.orderRead tag order) s t := by
  refine serve_keeps (fun u => ?_) h
  try dsimp only
  repeat' first
    | exact refuse_keeps
    | exact Keeps.refl _
    | (refine (Keeps.refl _).touch (by assumption) ?_ ?_ ?_ <;> rfl)
    | exact (Keeps.refl _).setArb _ rfl (fun _ => id) id
    | with_reducible apply plain_keeps
    | with_reducible apply accept_keeps
    | with_reducible apply checked_keeps
    | with_reducible apply withBin_keeps
    | with_reducible apply withBatch_keeps
    | with_reducible apply withGrind_keeps
    | with_reducible apply withPress_keeps
    | with_reducible apply withHead_keeps
    | with_reducible apply withLine_keeps
    | intro _
    | dsimp only [State.done, Result.andThen]
    | split

theorem Keeps.spoutButton (h : Keeps s t) : Keeps s (Sys2Proof.Machine.spoutButton t).1 := by
  unfold Sys2Proof.Machine.spoutButton
  try dsimp only [State.done, Result.andThen]
  repeat' split
  all_goals try dsimp only [State.done, Result.andThen]
  all_goals repeat' first
    | exact h
    | with_reducible apply Keeps.startLoading

theorem execSpoutReadyButtonPress_keeps  (h : execSpoutReadyButtonPress s = .next t) : Keeps s t := by
  unfold execSpoutReadyButtonPress at h
  try dsimp only at h
  first
    | refine outcome_keeps ?_ h
    | (split at h <;> [refine outcome_keeps ?_ h; (simp only [Host.Outcome.next.injEq] at h; exact h ▸ Keeps.refl s)])
  try dsimp only [State.done, Result.andThen]
  repeat' first
    | exact Keeps.refl _
    | split
    | with_reducible apply Keeps.spoutButton | with_reducible apply Keeps.takeOffered

/-! ### RouterCommands.lean -/

theorem execSlotArm_keeps (tag : Byte) (fields : SlotFields) (h : execSlotArm tag fields s = .next t) :
    RequestKeeps (.slotArm tag fields) s t := by
  refine serve_keeps (fun u => ?_) h
  split
  · exact refuse_keeps
  · next v hv =>
    refine checked_keeps (plain_keeps ((Keeps.refl u).setSlot _ _ fun _ _ => ?_)) _
    unfold slotOf at hv
    split at hv
    · cases hv
    · dsimp only at hv
      split at hv
      · simp only [Option.some.injEq] at hv
        subst hv
        dsimp only
        omega
      · cases hv

theorem execSlotDisarm_keeps (tag : Byte) (slot : Nat) (h : execSlotDisarm tag slot s = .next t) :
    RequestKeeps (.slotDisarm tag slot) s t :=
  serve_keeps (fun u => checked_keeps (plain_keeps ((Keeps.refl u).setSlot _ _ fun _ hf => by simp at hf)) _) h

theorem execSlotRead_keeps (tag : Byte) (h : execSlotRead tag s = .next t) : RequestKeeps (.slotRead tag) s t := by
  refine serve_keeps (fun u => ?_) h
  try dsimp only
  repeat' first
    | exact refuse_keeps
    | exact Keeps.refl _
    | (refine (Keeps.refl _).touch (by assumption) ?_ ?_ ?_ <;> rfl)
    | exact (Keeps.refl _).setArb _ rfl (fun _ => id) id
    | with_reducible apply plain_keeps
    | with_reducible apply accept_keeps
    | with_reducible apply checked_keeps
    | with_reducible apply withBin_keeps
    | with_reducible apply withBatch_keeps
    | with_reducible apply withGrind_keeps
    | with_reducible apply withPress_keeps
    | with_reducible apply withHead_keeps
    | with_reducible apply withLine_keeps
    | intro _
    | dsimp only [State.done, Result.andThen]
    | split

end Sys2Proof.Machine
end

