-- ==== Sys2Proof/Laws/Ended.lean ====
section
/-! SUPPORT. What the end of a transfer changes: the feeder requests, the output requests and the arbiter's tables, and nothing
else; and that no grant follows it while no request waits. -/

namespace Sys2Proof.Machine

/-- The Inventory Unit with the feeders of the bins that legs empty asked off (R78, R79). -/
def Inventory.feedersOff (i : Inventory) (legs : List Leg) : Inventory :=
  { i with bins := (legs.filter (fun leg => !leg.fills)).foldl (fun t leg =>
      match Table.get t leg.bin with
      | some v => Table.set t leg.bin { v with feederAsk := 0 }
      | none => t) i.bins }

/-- Plant I/O with several roles asked off. -/
def PlantIO.asksOff (i : PlantIO) (gates : List Role) : PlantIO :=
  { i with asks := gates.foldl (fun t r => Table.put false t (roleCode r) false) i.asks }

theorem askFeeder_eq (s : State) (b v : Nat) : s.askFeeder b v = s.setInv { s.inv with
    bins := match Table.get s.inv.bins b with
      | some w => Table.set s.inv.bins b { w with feederAsk := v }
      | none => s.inv.bins } := by
  unfold State.askFeeder State.modBin State.bin
  cases Table.get s.inv.bins b <;> rfl

theorem askAll_eq (s : State) (l : List Role) : s.askAll l false = s.setIO (s.io.asksOff l) := by
  induction l generalizing s with
  | nil => rfl
  | cons r l ih => exact (ih _).trans rfl

theorem dropOutputs_eq (s : State) (x : Transfer) :
    dropOutputs s x = (s.setInv (s.inv.feedersOff x.legs)).setIO (s.io.asksOff x.gates) := by
  have key : ∀ (l : List Leg) (u : State), l.foldl (fun w leg => w.askFeeder leg.bin 0) u = u.setInv { u.inv with
      bins := l.foldl (fun t leg => match Table.get t leg.bin with
        | some v => Table.set t leg.bin { v with feederAsk := 0 }
        | none => t) u.inv.bins } := by
    intro l
    induction l with
    | nil => exact fun _ => rfl
    | cons leg l ih =>
      intro u
      rw [List.foldl_cons, ih, askFeeder_eq]
      rfl
  unfold dropOutputs
  rw [askAll_eq, key]
  rfl

/-- The blocks that the end of a transfer changes. -/
def Arbiter.owned (a : Arbiter) (o : Owner) : Option (Nat × Transfer) := a.transfers.find? (fun e => decide (e.2.owner = o))

/-- The Inventory Unit after the end of an owner's transfer. -/
def Inventory.ended (i : Inventory) (a : Arbiter) (o : Owner) : Inventory :=
  match a.owned o with
  | some e => i.feedersOff e.2.legs
  | none => i

/-- Plant I/O after the end of an owner's transfer. -/
def PlantIO.ended (i : PlantIO) (a : Arbiter) (o : Owner) : PlantIO :=
  match a.owned o with
  | some e => i.asksOff e.2.gates
  | none => i

/-- The arbiter after the end of an owner's transfer. -/
def Arbiter.ended (a : Arbiter) (o : Owner) : Arbiter :=
  match a.owned o with
  | some e => { a with transfers := Table.del a.transfers e.1, waiting := a.waiting.erase e.1 }
  | none => a

/-- The end of a transfer changes three blocks, each by itself and by the arbiter. -/
theorem transferEnded_eq (s : State) (o : Owner) : transferEnded s o =
    ((s.setInv (s.inv.ended s.arb o)).setIO (s.io.ended s.arb o)).setArb (s.arb.ended o) := by
  unfold transferEnded Inventory.ended PlantIO.ended Arbiter.ended
  rw [show s.transferOf o = s.arb.owned o from rfl]
  cases s.arb.owned o with
  | none => rfl
  | some e =>
    simp only [dropOutputs_eq, removeTransfer]
    rfl

theorem endTransfer_fst (s : State) (o : Owner) : (endTransfer s o).1 = transferEnded s o := by
  unfold endTransfer transferEnded
  cases s.transferOf o <;> rfl

/-- No task but the grant scan follows the end of a transfer. -/
theorem endTransfer_snd (s : State) (o : Owner) : (endTransfer s o).2 = [] ∨ (endTransfer s o).2 = [.grantScan] := by
  unfold endTransfer
  cases s.transferOf o with
  | none => exact .inl rfl
  | some e =>
    obtain ⟨slot, x⟩ := e
    by_cases h : x.held.isEmpty <;> simp [h]

@[simp] theorem Arbiter.ended_waiting {a : Arbiter} (o : Owner) (h : a.waiting = []) : (a.ended o).waiting = [] := by
  unfold Arbiter.ended
  cases a.owned o with
  | none => exact h
  | some e => simp [h]

@[simp] theorem Inventory.ended_reservations (i : Inventory) (a : Arbiter) (o : Owner) :
    (i.ended a o).reservations = i.reservations := by
  unfold Inventory.ended
  cases a.owned o <;> rfl

/-- The grant scan does nothing while no request waits. -/
theorem grantScan_idle {s : State} (h : s.arb.waiting = []) : grantScan s = (s, []) := by
  unfold grantScan
  rw [h]
  split_ifs <;> rfl

/-! ### Running the tasks after the end of a transfer -/

theorem runTasks_more {l : List Task} {s t : State} : ∀ {fuel : Nat}, runTasks fuel l s = some t →
    runTasks (fuel + 1) l s = some t := by
  intro fuel
  induction fuel generalizing l s with
  | zero => cases l <;> simp [runTasks]
  | succ n ih =>
    cases l with
    | nil => simp
    | cons x l => intro h; rw [runTasks_cons] at h ⊢; exact ih h

/-- The tasks that the end of a transfer leaves run to nothing while no request waits. -/
theorem runTasks_ended {s u t : State} {o : Owner} {l : List Task} {fuel : Nat} (h : u.arb.waiting = [])
    (ht : runTasks fuel l u = some t) : runTasks (fuel + 1) ((endTransfer s o).2 ++ l) u = some t := by
  rcases endTransfer_snd s o with hs | hs <;> rw [hs]
  · exact runTasks_more ht
  · rw [List.singleton_append, runTasks_cons, show handle .grantScan u = (u, []) from grantScan_idle h]
    exact ht

theorem settle_ended {s u : State} {o : Owner} (h : u.arb.waiting = []) : settle (u, (endTransfer s o).2) = some u := by
  unfold settle
  have := runTasks_ended (s := s) (o := o) (l := []) (fuel := Config.cascadeBound - 1) h (runTasks_nil _ _)
  rwa [List.append_nil] at this

end Sys2Proof.Machine
end

