-- ==== Sys2Proof/Tests/Slice0.lean ====
section
/-! SUPPORT. The model's own tests: ill-formed commands refused, worked examples of the manual, and for every statement with
hypotheses a state and operands that meet them, with the outcome there. -/

namespace Sys2Proof.Tests

-- The proofs are checked one after another: checked side by side, their threads would take too much memory in one file.
set_option Elab.async false

open Sys2Proof Sys2Proof.Machine

/-- The next state that a command gives, if it gives one. -/
def after (c : Instr) (s : State) : Option State :=
  match exec c s with
  | .next t => some t
  | _ => none

/-! ### Ill-formed commands -/

theorem test_wf_field_size : (Instr.binRead 1 256).wf = false := by decide
theorem test_wf_tag : (Instr.binRead 256 1).wf = false := by decide
theorem test_wf_permissives : (Instr.routeDefine 1 1 (List.replicate 7 ⟨0, 0⟩) []).wf = false := by decide
theorem test_wf_resources : (Instr.routeDefine 1 1 [] [1, 2, 3, 4, 5]).wf = false := by decide
theorem test_wf_lines : (Instr.orderEnter 1 1 1 (List.replicate 7 ⟨1, 0, 1, 0, 0, some 1⟩)).wf = false := by decide
theorem test_wf_compartments : (Instr.truckIn 1 1 (List.replicate 7 1)).wf = false := by decide
theorem test_wf_age : (Instr.reservationRead 1 0 1 1).wf = false := by decide
theorem test_wf_kind : (Instr.unknownKind 1 256 []).wf = false := by decide
theorem test_wf_chars : (Instr.frameReceive [256]).wf = false := by decide
theorem test_wf_count : (Instr.channelSample 0 8388608 true).wf = false := by decide
theorem test_wf_channel : (Instr.tareTimeout 4).wf = false := by decide
theorem test_wf_levels : (Instr.inputSample 0 (List.replicate 9 0)).wf = false := by decide
theorem test_wf_press : (Instr.starveTimeout 3).wf = false := by decide
theorem test_wf_bin : (Instr.lowProbeUncovered 49).wf = false := by decide
theorem test_wf_slot : (Instr.permitTimeout 0).wf = false := by decide

/-! ### The small plant that the tests share -/

/-- A bin of a kind with a speed feeder. -/
def aBin (kind : BinKind) (outlet : Outlet) (output onHand : Nat) : Bin where
  cfg := ⟨kind, 7, 5000000, 100, 4000000, outlet, .speed output, 800, 200, 5000, 2000, 500, 5, 2, 30, 100, 0, 0, none, none,
    0, 0, .off⟩
  onHand := onHand
  counted := true
  locked := false
  lots := []
  writeOff := 0
  inflight := 500
  highCovered := none
  lowCovered := none
  renamed := false
  feederAsk := 0

/-- A channel that is calibrated, OK and stable at 0 g. -/
def okChannel (c : Channel) : Channel :=
  { c with cfg := { c.cfg with span := 65536 }, status := .ok, stable := true }

/-- Bins 1 RAW on MAIN, 2 RAW on the mill, 3 GROUND, 4 MICRO, 5 SURGE of press 1, 6 FINISHED on the bagger, 7 FINISHED on the
truck, 8 REWORK; all channels OK. -/
def plant : State :=
  let s := State.reset
  (s.setWeigh ⟨okChannel s.weigh.main, okChannel s.weigh.micro, okChannel s.weigh.bagger, okChannel s.weigh.truck⟩).setInv
    ⟨[(1, aBin .raw .main 0 9000), (2, aBin .raw .mill 1 9000), (3, aBin .ground .main 2 0), (4, aBin .micro .micro 3 9000),
      (5, aBin .surge .press1 4 9000), (6, aBin .finished .bagger 5 90000), (7, aBin .finished .truck 6 90000),
      (8, aBin .rework .main 7 0)], [], 1⟩

/-- The plant in a Line Stop that a request brought. -/
def stoppedPlant : State := plant.setArb { plant.arb with stop := ⟨true, false, true⟩ }

/-- The plant while its settings are being saved. -/
def savingPlant : State := plant.setStore ⟨.saving, none, some defaultStored, false⟩

/-- A dose for bin 1 or 4 in a state. -/
def aDose (req : Requester) (state : DoseState) (bin : Option Nat) (target : Nat) (timer : Option Tenths) : OpenDose where
  order := ⟨req, target, 100, 100, bin, none, bin.map (fun _ => .speed 0), 800, 200, 2000, 500, 5, 2, 30, 100, false⟩
  state := state
  underTol := 100
  overTol := 100
  tare := some 0
  jogs := 0
  timer := timer
  nets := []

/-- The plant with an open dose on a channel. -/
def dosing (sc : Scale) (d : OpenDose) : State := plant.setChan sc { plant.chan sc with dose := some d }

/-- A state with the transfer of an owner, FLOWING in slot 1. -/
def flowing (s : State) (o : Owner) (legs : List Leg) : State :=
  s.setArb { s.arb with transfers := [(1, ⟨o, legs, [], .flowing, [], none, false, none⟩)] }

/-! ### The machine and the link -/

theorem witness_step : step (plant.setPending [.floorSet 1 2]) = exec (.floorSet 1 2) plant := rfl

/-- A tick of the clock reaches a dose's timer and, beside it, every other kind of timer. -/
theorem witness_tick : step (dosing .main (aDose (.batchMain 1 1) .taring (some 1) 9000 (some 30))) =
    .next (dosing .main (aDose (.batchMain 1 1) .taring (some 1) 9000 (some 29))) := rfl

theorem witness_tick_of_the_jobs :
    let at_ (n : Nat) : State :=
      ((((plant.setArb { plant.arb with transfers := [(2, ⟨.loadout, [⟨7, false, 1⟩], [], .permitWait, [], some n, false, none⟩)] }).setLine
        { plant.line with batches := [{ newBatch 1 1 100000 9 8 true ⟨true, 8, 100, []⟩ [] with
          state := .releasing, timer := some (.release n false) }, newBatch 2 1 100000 9 8 true ⟨true, 8, 100, []⟩ []] }).setMill
        { plant.mill with state := .draining, timer := some (.drain n) }).setPress .two { plant.press.two with
          state := .starved, timer := some (.starve n), delay := some n }).setBag { plant.bag with timer := some (.check n) }
    (at_ 5).pending = [] ∧ step (at_ 5) = .next (at_ 4) ∧ step (at_ 0) = .next (at_ 0) := ⟨rfl, rfl, rfl⟩

/-- A reply that waits. -/
def aReply : Reply := ⟨0x84, 1, .ok, 0, []⟩

theorem witness_full_queue :
    let s := plant.setLink { plant.link with replies := [aReply, aReply, aReply, aReply] }
    requestItems (.binLock 1 1) = some (0x14, 1, [.u8 1]) ∧ 4 ≤ s.link.replies.length ∧
      exec (.binLock 1 1) s = .next s := ⟨by decide, by decide, rfl⟩

theorem witness_refusal_is_inert :
    requestItems (.binLock 9 20) = some (0x14, 9, [.u8 20]) ∧ plant.link.replies.length < 4 ∧
      exec (.binLock 9 20) plant = .next (answer plant ⟨0x94, 9, .noSuch, 0, []⟩) := ⟨by decide, by decide, rfl⟩

/-- A request behind another frame waits, a request whose frame is at the head takes it out (R214). -/
theorem witness_turn :
    let s (f : Frame) := plant.setLink { plant.link with rxQueue := [f, ⟨0x14, 8, [2]⟩] }
    (requestOf ⟨0x14, 9, [1]⟩ = some (.binLock 9 1) ∧ requestOf ⟨0x15, 9, [1]⟩ ≠ some (.binLock 9 1)) ∧
      exec (.binLock 9 1) (s ⟨0x15, 9, [1]⟩) = .next (s ⟨0x15, 9, [1]⟩) ∧
      (after (.binLock 9 1) (s ⟨0x14, 9, [1]⟩)).map (fun t => (t.link.rxQueue, t.link.replies.map (·.code))) =
        some ([⟨0x14, 8, [2]⟩], [.ok]) := by
  refine ⟨⟨rfl, by decide⟩, rfl, by decide⟩

theorem witness_store_and_stop :
    (∃ t, exec (.settingsSaveEnd true) savingPlant = .next t ∧ t.store ≠ savingPlant.store) ∧
      stoppedPlant.stopped = true ∧ ∃ t, exec (.lineResume 1) stoppedPlant = .next t ∧ t.stopped = false :=
  ⟨⟨_, rfl, by decide⟩, rfl, ⟨_, rfl, rfl⟩⟩

theorem witness_outputs_off :
    let s := (stoppedPlant.setIO { plant.io with freeOn := [(3, true)] }).askFeeder 1 800
    s.stopped = true ∧ s.outputOn 3 = false ∧ s.speedOut 0 = 0 := ⟨rfl, by decide, by decide⟩

/-- The plant with a live reservation and, in a Line Stop, an aborted transfer, and a command that waits. -/
def busyPlant : State :=
  ((stoppedPlant.setInv { plant.inv with reservations := [⟨1, 6, .bagRun 1, 50000, 50000⟩], nextId := 2 }).setArb
    { stoppedPlant.arb with transfers := [(1, ⟨.mill, [⟨2, false, 0⟩], [], .aborted, [], none, false, some .lineStop⟩)] }).setPending
      [.floorSet 1 9]

theorem witness_invariants : busyPlant.Safe ∧ ∃ t, step busyPlant = .next t ∧ t.router.floor = 6 := by
  have bins : ∀ b v, Table.get busyPlant.inv.bins b = some v → b ∈ [1, 2, 3, 4, 5, 6, 7, 8] ∧
      v.onHand ≤ v.cfg.capacity ∧ v.cfg.highMark ≤ v.cfg.capacity ∧
      heldTotal busyPlant.inv.reservations b ≤ v.onHand := by
    intro b v h
    have key : ∀ e ∈ busyPlant.inv.bins, e.1 ∈ [1, 2, 3, 4, 5, 6, 7, 8] ∧ e.2.onHand ≤ e.2.cfg.capacity ∧
      e.2.cfg.highMark ≤ e.2.cfg.capacity ∧ heldTotal busyPlant.inv.reservations e.1 ≤ e.2.onHand := by decide
    exact key _ (Table.mem_of_get h)
  refine ⟨⟨?_, ⟨?_, ?_⟩, ⟨by decide, by decide, by decide, fun b v h => (bins b v h).2.2.2⟩,
    ⟨fun b v h => ⟨(bins b v h).2.1, (bins b v h).2.2.1⟩, ?_⟩, ?_, ?_⟩, _, rfl, rfl⟩
  · exact ⟨by decide, by decide, by decide, by decide, by decide, by decide, rfl⟩
  · refine ⟨?_, by decide, by decide, by decide⟩
    intro e h
    cases h
  · rintro c (h | h) <;> cases h
  · rintro c (h | h) <;> cases h
  · exact fun _ => ⟨rfl, by decide⟩
  · unfold State.ResourcesOk Arbiter.ResourcesOk; decide

theorem witness_frames :
    let f : Frame := ⟨0x14, 9, [1]⟩
    (Instr.binLock 9 1).wf = true ∧ requestFrame (.binLock 9 1) = some f ∧ requestOf f = some (.binLock 9 1) ∧
      f.body.length ≤ 250 ∧ plant.link.rxPosition = .hunt ∧ plant.link.rxQueue.length < 4 ∧
      after (.frameReceive f.chars) plant = some (plant.setLink { plant.link with rxQueue := [f] }) := by
  refine ⟨by decide, by decide, by decide, by decide, rfl, by decide, by decide +kernel⟩

/-- R206's check of the nine characters "1" to "9". -/
theorem test_crc : crcOf [0x31, 0x32, 0x33, 0x34, 0x35, 0x36, 0x37, 0x38, 0x39] = 0x29B1#16 := by decide +kernel

theorem witness_receiver :
    let f : Frame := ⟨0x14, 9, [1]⟩
    let full := plant.setLink { plant.link with rxQueue := [f, f, f, f] }
    let inside := plant.setLink { plant.link with rxPosition := .tag, rxBytes := [0x14, 1] }
    (4 ≤ full.link.rxQueue.length ∧ after (.frameReceive f.chars) full =
      some ((full.setLink { full.link with overruns := 1 }).raise (.linkOverrun 1))) ∧
    (0 + 256 * 0 ≠ (crcOf [1, 0x14, 9, 1]).toNat ∧ after (.frameReceive [0x5A, 1, 0x14, 9, 1, 0, 0]) plant =
      some (plant.setLink { plant.link with errors := 1 })) ∧
    (inside.link.rxPosition ≠ .hunt ∧ exec .receiveError inside =
      .next (plant.setLink { plant.link with errors := 1 })) ∧
    exec .linkBreak full = .next (plant.setLink { plant.link with breaks := 1 }) := by
  refine ⟨⟨by decide, by decide +kernel⟩, ⟨by decide +kernel, by decide +kernel⟩, ⟨by decide, rfl⟩, rfl⟩

/-- A notice of a source. -/
def aNotice (level : Nat) : Notice := ⟨1, level, []⟩

theorem witness_transmitter :
    let f : Frame := ⟨0x94, 1, [0, 0]⟩
    let two := plant.setLink { plant.link with tx := [f, f] }
    let last := plant.setLink { plant.link with tx := [⟨0x84, 1, [0, 0]⟩], replies := [aReply] }
    let noticed := plant.setRouter { plant.router with notices := [(5, aNotice 3), (9, aNotice 3)] }
    let waits := noticed.setLink { plant.link with tx := [f], replies := [aReply] }
    (isRestartReply f = false ∧ exec .frameSent two = .next (plant.setLink { plant.link with tx := [f] })) ∧
    (isRestartReply ⟨0x84, 1, [0, 0]⟩ = true ∧ last.link.strapB = false ∧ last.link.strapA = false ∧
      exec .frameSent last = exec (.fullReset false false) last ∧ exec .frameSent last = .next State.reset) ∧
    exec .frameSent waits = .next (noticed.setLink { plant.link with tx := aReply.frames }) ∧
    (bestNotice noticed.eligible = some (5, aNotice 3) ∧ exec .frameSent noticed =
      .next ((plant.setRouter { plant.router with notices := [(9, aNotice 3)] }).setLink
        { plant.link with tx := [noticeFrame 5 (aNotice 3)] })) ∧
    (plant.eligible = [] ∧ exec .frameSent plant = .next plant) :=
  ⟨⟨rfl, rfl⟩, ⟨rfl, rfl, rfl, rfl, rfl⟩, rfl, ⟨by decide, rfl⟩, rfl, rfl⟩

theorem witness_link_requests :
    plant.replyRoom = true ∧ plant.store.state ≠ .saving ∧ savingPlant.store.state = .saving ∧ savingPlant.replyRoom = true ∧
      exec (.restart 1) plant = .next (answer plant aReply) ∧
      exec (.restart 1) savingPlant = refusedWith savingPlant (.restart 1) .busy 0 ∧
      exec (.settingsSaveEnd true) savingPlant = .next ((savingPlant.setStore ⟨.valid, some defaultStored, none, false⟩).raise
        (.storeResult true)) := ⟨rfl, by decide, rfl, rfl, rfl, rfl, rfl⟩

theorem witness_unknown_frames :
    let s (kind : Byte) (body : List Byte) := plant.setLink { plant.link with rxQueue := [⟨kind, 7, body⟩] }
    (exec (.unknownKind 7 0x7F []) (s 0x7F []) = .next (answer plant ⟨0xFF, 7, .unknownKind, 0, []⟩)) ∧
    (0x7E ∉ knownKinds ∧ exec (.unknownKind 7 0x7E []) (s 0x7E []) =
      .next (answer plant ⟨0xFE, 7, .unknownKind, 0, []⟩)) ∧
    (0x14 ∈ knownKinds ∧ requestOf ⟨0x14, 7, []⟩ = none ∧ exec (.unknownKind 7 0x14 []) (s 0x14 []) =
      .next (answer plant ⟨0x94, 7, .badLength, 0, []⟩)) :=
  ⟨rfl, ⟨by decide, rfl⟩, by decide, by decide, rfl⟩

theorem witness_full_reset : plant.store.image = none ∧ plant.io.analogPins = [] ∧ plant.pending = [] ∧
    exec (.fullReset false false) plant = .next State.reset := ⟨rfl, rfl, rfl, rfl⟩

/-! ### The Weigh Unit -/

/-- R4 rounds a half away from zero. -/
theorem test_rounding : rdiv 5 2 = 3 ∧ rdiv (-5) 2 = -3 ∧ rdiv 7 3 = 2 ∧ roundTo 500 1250 = 1500 := by decide

/-- The plant with channel MAIN empty and uncalibrated at a mean count of 4,000. -/
def loaded : State :=
  plant.setChan .main { plant.chan .main with samples := [⟨4000, 4000⟩], filtered := [4000], gross := 4000 }

theorem witness_channel_requests :
    let cfg := { (plant.chan .main).cfg with fmax := 400 }
    (∀ ok ∈ channelChecks .main cfg, ok = true) ∧ (plant.chan .main).dose = none ∧ plant.saving = false ∧
      scaleOf 0 = some .main ∧
      (after (.channelSet 1 0 cfg) plant).map (fun t => ((t.chan .main).cfg, (t.bin 1).map (·.inflight), t.link.replies)) =
        some (cfg, some 400, [⟨0x88, 1, .ok, 0, [.u8 3]⟩]) ∧
      zeroAllowed (loaded.chan .main) = true ∧
      (after (.zero 1 0) loaded).map (fun t => (t.chan .main).cfg.zero) = some 4000 ∧
      zeroAllowed (State.reset.chan .main) = false ∧
      exec (.zero 1 0) State.reset = refusedWith State.reset (.zero 1 0) .wrongState 0 ∧
      1000 ≤ meanCount (loaded.chan .main) - (loaded.chan .main).cfg.zero ∧
      rdivNat (8000 * 65536) 4000 = 131072 ∧
      (after (.calSpan 1 0 8000) loaded).map (fun t => (t.chan .main).cfg.span) = some 131072 := by
  refine ⟨by decide, rfl, rfl, rfl, by decide, by decide, by decide, by decide, rfl, by decide, by decide, by decide⟩

theorem witness_inflight :
    (plant.bin 1).isSome = true ∧ outletScale .main = some .main ∧ outletScale .mill = none ∧
      (after (.inflightSet 1 1 200000) plant).map (fun t => ((t.bin 1).map (·.inflight), t.link.replies)) =
        some (some 100000, [⟨0x8C, 1, .ok, 0, [.u32 100000, .u8 1]⟩]) ∧
      exec (.inflightSet 1 2 5) plant = refusedWith plant (.inflightSet 1 2 5) .wrongState 0 := by
  refine ⟨by decide, rfl, rfl, by decide, rfl⟩

theorem witness_sample :
    (plant.chan .micro).dose = none ∧ (∀ b ∈ plant.line.batches, b.state ≠ .discharging) ∧
      plant.book.loadout.state ≠ .taring ∧
      (after (.channelSample 1 500 true) plant).map (fun t => ((t.chan .micro).gross, (t.chan .micro).status)) =
        some (500, .ok) ∧
      (after (.channelSample 1 8388607 true) plant).map (fun t => ((t.chan .micro).status, t.router.waiting)) =
        some (.converterFault, [.scaleFault .micro .converterFault]) := by
  refine ⟨rfl, by decide, by decide, by decide, by decide⟩

theorem witness_dose :
    let req : Requester := .batchMain 1 1
    let micro : Requester := .batchMicro 1 1
    let asked (s : State) (v : Nat) := s.askFeeder 1 v
    (sampleChannel ((dosing .main (aDose req .slow (some 1) 9000 none)).chan .main) 8500 true).2 = true ∧
    (after (.channelSample 0 8500 true) (dosing .main (aDose req .slow (some 1) 9000 none))).map
      (fun t => ((t.chan .main).dose.map (·.state), (t.bin 1).map (·.feederAsk))) = some (some .settling, some 0) ∧
    exec (.tareTimeout 0) (dosing .main (aDose req .taring (some 1) 9000 (some 0))) =
      .next (asked (dosing .main (aDose req .fast (some 1) 9000 none)) 800) ∧
    exec (.tareTimeout 0) (dosing .main (aDose req .taring (some 1) 2500 (some 0))) =
      .next (asked (dosing .main (aDose req .slow (some 1) 2500 none)) 200) ∧
    exec (.tareTimeout 0) (dosing .main (aDose req .taring (some 1) 500 (some 0))) =
      .next (asked (dosing .main { aDose req .jogging (some 1) 500 (some 5) with jogs := 1 }) 200) ∧
    exec (.settleTimeout 0) (dosing .main (aDose req .settling (some 1) 500 (some 0))) =
      .next (asked (dosing .main { aDose req .jogging (some 1) 500 (some 5) with jogs := 1 }) 200) ∧
    exec (.jogTimeout 0) (dosing .main (aDose req .jogging (some 1) 500 (some 0))) =
      .next (dosing .main (aDose req .settling (some 1) 500 (some 30))) ∧
    exec .handAddButtonPress (dosing .micro (aDose micro .handWait none 500 none)) =
      .next (dosing .micro (aDose micro .settling none 500 (some 20))) := by
  refine ⟨by decide, by decide, rfl, rfl, rfl, rfl, rfl, rfl⟩

theorem witness_reads :
    scaleOf 0 = some .main ∧ (plant.bin 1).isSome = true ∧ pressOf 2 = some .two ∧
      (∀ c ∈ [.channelRead 1 0, .binRead 1 48, .reservationRead 1 1 1 0, .ioRead 1, .resourceRead 1, .formulaRead 1 32,
          .batchRead 1 0, .millRead 1, .profileRead 1 16, .pressRead 1 2, .baggerRead 1, .orderRead 1 0, .slotRead 1],
        (after c plant).map (fun t => (t.link.replies.map (·.code), t.setLink plant.link)) = some ([.ok], plant)) ∧
      (busyPlant.reservation 1).isSome = true ∧
      (after (.reservationRead 1 0 1 0) busyPlant).map (fun t => t.link.replies.map (·.code)) = some [.ok] := by
  refine ⟨rfl, by decide, rfl, by decide +kernel, by decide, by decide⟩

/-! ### The Inventory Unit -/

/-- Three lots of 100 g, drawn by 150 g, by 200 g and by all they hold. -/
theorem witness_draw :
    let lots : List Lot := [⟨3, 7, 100, false⟩, ⟨4, 7, 100, false⟩, ⟨5, 7, 100, false⟩]
    300 ≤ (lots.map (·.mass)).sum ∧ (∀ l ∈ lots, 0 < l.mass) ∧
      takeLots 150 lots = ([⟨4, 7, 50, false⟩, ⟨5, 7, 100, false⟩], [(3, 100), (4, 50)]) ∧
      takeLots 200 lots = ([⟨5, 7, 100, false⟩], [(3, 100), (4, 100)]) ∧
      takeLots 300 lots = ([], [(3, 100), (4, 100), (5, 100)]) := by decide

/-- A draw in a press's name hands each lot boundary the tag that has become the oldest (R50). -/
theorem test_lot_boundaries :
    lotBoundaries 250 [⟨3, 7, 100, false⟩, ⟨3, 7, 50, false⟩, ⟨4, 7, 100, false⟩, ⟨5, 7, 100, false⟩] = [4, 5] := by decide

theorem witness_reservations :
    let l : List Reservation := [⟨1, 6, .bagRun 1, 100, 80⟩, ⟨2, 5, .bagRun 2, 50, 50⟩, ⟨3, 6, .bagRun 3, 100, 70⟩]
    (∀ r ∈ l, r.held ≤ r.wanted) ∧
      (giveBack 6 70 l).map (·.held) = [70, 50, 0] ∧ (topUpFrom 6 30 l).1.map (·.held) = [100, 50, 80] := by decide

theorem witness_creation :
    busyPlant.inv.reservations.length < 192 ∧ busyPlant.inv.nextId ≤ 65535 ∧
      (createOne busyPlant 6 (.bagRun 2) 50000).2 = 2 ∧
      (createOne busyPlant 6 (.bagRun 2) 50000).1.inv.reservations =
        busyPlant.inv.reservations ++ [⟨2, 6, .bagRun 2, 50000, 40000⟩] := by decide

/-- A definition of a MICRO bin with speed output 9. -/
def microFields : BinFields :=
  ⟨2, 65535, 50000, 10, 50000, 1, 0, 9, 1000, 1, 0, 50, 2000, 1, 7, 600, 100, 0, 0, none, none, 0, 0, 0⟩

theorem witness_bin_define :
    plant.mixerBatch = none ∧ plant.bin 48 = none ∧ binKindOf microFields.kind = some .micro ∧
      outletOf microFields.outlet = some .micro ∧ feederOf 0 9 = some (.speed 9) ∧
      (∀ ok ∈ binChecks microFields (some .micro) (some .micro) (some (plant.chan .micro).cfg.fmax), ok = true) ∧
      probesFree plant 48 (binDefOf microFields .micro .micro (.speed 9)) = true ∧
      (∀ e ∈ plant.inv.bins, e.2.cfg.feeder ≠ .speed 9) ∧
      exec (.binDefine 1 48 microFields) plant = accepted plant (.binDefine 1 48 microFields)
        (fun u => u.setBin 48 ⟨binDefOf microFields .micro .micro (.speed 9), 0, false, false, [], 0, 2000, none, none, false, 0⟩)
        (fun _ => []) := by
  refine ⟨rfl, by decide, rfl, rfl, rfl, by decide, by decide, by decide, rfl⟩

theorem witness_bin_lock :
    exec (.binLock 1 1) plant = accepted plant (.binLock 1 1)
      (fun u => u.setBin 1 { aBin .raw .main 0 9000 with locked := true }) (fun _ => [.u8 0]) ∧
    exec (.binUnlock 1 1) plant = accepted plant (.binUnlock 1 1)
      (fun u => u.setBin 1 (aBin .raw .main 0 9000)) (fun _ => [.u8 0]) ∧
    exec (.binUnlock 1 48) plant = refusedWith plant (.binUnlock 1 48) .noSuch 0 := ⟨rfl, rfl, rfl⟩

/-- Bin 1 falls below its low mark of 100 g at a count of 99 g, and takes at most its capacity. -/
theorem witness_count_and_receive :
    ((∀ r ∈ plant.inv.reservations, r.bin ≠ 1) ∧ plant.currentGrind = none ∧ (∀ p, (plant.pressAt p).cfg.surgeBin ≠ 1) ∧
      plant.mixerBatch = none) ∧
    (after (.binCount 1 1 99 none) plant).map (fun t => ((t.bin 1).map (·.onHand), t.router.waiting)) =
      some (some 99, [.binLow 1 .drawOrCount]) ∧
    exec (.binCount 1 1 5000001 none) plant = refusedWith plant (.binCount 1 1 5000001 none) .outOfRange 0 ∧
    (after (.binReceive 1 1 5000000) plant).map (fun t => ((t.bin 1).map (·.onHand), t.router.waiting, t.link.replies)) =
      some (some 5000000, [.binHigh 1 .clamped], [⟨0x93, 1, .ok, 0, [.u32 4991000, .u8 1, .u32 5000000]⟩]) ∧
    exec (.binReceive 1 6 1) plant = refusedWith plant (.binReceive 1 6 1) .wrongState 0 := by
  refine ⟨⟨by decide, rfl, fun p => by cases p <;> decide, rfl⟩, by decide, rfl, by decide, rfl⟩

theorem witness_probes :
    let s := plant.offer (.lowProbe 1)
    plant.beingFilled 1 = false ∧
      exec (.highProbeCovered 1) plant = .next (plant.setBin 1 { aBin .raw .main 0 9000 with highCovered := some true }) ∧
      exec (.lowProbeUncovered 1) s = .next ((plant.setBin 1 { aBin .raw .main 0 0 with
        counted := false, lowCovered := some false, writeOff := 9000 }).raise (.binLow 1 .writeOff)) ∧
      exec (.lowProbeUncovered 3) plant =
        .next (plant.setBin 3 { aBin .ground .main 2 0 with lowCovered := some false }) := ⟨rfl, rfl, rfl, rfl⟩

/-! ### Plant I/O and the Route Arbiter -/

theorem witness_plant_definitions :
    (inputConfigOf 1 30 1 1 = some ⟨true, 30, false, .permissive⟩ ∧ useFree plant 63 .permissive = true ∧
      plant.probeBin 63 = none ∧
      exec (.inputDefine 1 63 1 30 1 1) plant = accepted plant (.inputDefine 1 63 1 30 1 1)
        (fun u => u.setPin 63 ⟨⟨true, 30, false, .permissive⟩, none, 0⟩) (fun _ => [])) ∧
    (plant.feederBin (.discrete 63) = none ∧ plant.gateInUse 63 = false ∧ roleOf 12 = some .millMotor ∧
      plant.roleOutput .millMotor = none ∧
      exec (.outputDefine 1 63 12) plant = accepted plant (.outputDefine 1 63 12)
        (fun u => u.setIO { u.io with roles := [(63, .millMotor)] }) (fun _ => [])) ∧
    (let s := plant.setIO { plant.io with roles := [(63, .millMotor)] };
      Table.get s.io.roles 63 = some .millMotor ∧ exec (.outputDefine 1 63 19) s = accepted s (.outputDefine 1 63 19)
        (fun u => u.setIO { u.io with roles := [] }) (fun _ => [])) ∧
    (let s := plant.setPin 0 ⟨⟨false, 30, false, .permissive⟩, none, 0⟩;
      routeInRange 32 [⟨0, 1⟩] [16] = true ∧ (s.pin 0).cfg.use = .permissive ∧ routeInUse s 32 = false ∧
        exec (.routeDefine 1 32 [⟨0, 1⟩] [16]) s = accepted s (.routeDefine 1 32 [⟨0, 1⟩] [16])
          (fun u => u.setArb { u.arb with routes := [(32, ⟨[⟨0, false⟩], [16]⟩)] }) (fun _ => [])) := by
  refine ⟨⟨by decide, by decide, rfl, rfl⟩, ⟨rfl, rfl, rfl, rfl, rfl⟩, ⟨rfl, rfl⟩, by decide, by decide, by decide, rfl⟩

theorem witness_outputs :
    exec (.outputSet 1 8) plant = accepted plant (.outputSet 1 8)
      (fun u => u.setIO { u.io with freeOn := [(3, true)] }) (fun u => outputItems u 8) ∧
    exec (.outputSet 1 8) stoppedPlant = refusedWith stoppedPlant (.outputSet 1 8) .lineStopped 0 ∧
    exec (.analogDefine 1 7 (-32768) 32767) plant = accepted plant (.analogDefine 1 7 (-32768) 32767)
      (fun u => u.setIO { u.io with spans := [(7, (-32768, 32767))] }) (fun _ => []) ∧
    exec (.analogSet 1 3 1001) plant = accepted plant (.analogSet 1 3 1001)
      (fun u => u.setIO { u.io with analogOut := [(3, 1000)] }) (fun _ => [.u16 1000, .u8 1]) ∧
    exec (.analogSet 1 1 5) plant = refusedWith plant (.analogSet 1 1 5) .inUse 0 ∧
    exec (.analogSet 1 4 5) plant = refusedWith plant (.analogSet 1 4 5) .outOfRange 0 := by
  refine ⟨by rfl, rfl, rfl, rfl, rfl, rfl⟩

/-- A transfer of the loadout. -/
def aTransfer (state : TransferState) (timer : Option Nat) : Transfer := ⟨.loadout, [], [], state, [], timer, false, none⟩

theorem witness_permit_time :
    exec (.arbiterSet 1 0) plant = refusedWith plant (.arbiterSet 1 0) .outOfRange 0 ∧
    exec (.arbiterSet 1 6001) plant = refusedWith plant (.arbiterSet 1 6001) .outOfRange 0 ∧
    exec (.arbiterSet 1 6000) savingPlant = refusedWith savingPlant (.arbiterSet 1 6000) .busy 0 ∧
    exec (.arbiterSet 1 1) plant = accepted plant (.arbiterSet 1 1)
      (fun u => u.setArb { u.arb with permitTime := 1 }) (fun _ => []) ∧
    (let s := plant.setArb { plant.arb with routes := [(1, ⟨[⟨0, true⟩], []⟩)] };
      (s.failingPermissive { aTransfer .waiting none with legs := [⟨7, false, 1⟩] }).isSome = true) :=
  ⟨rfl, rfl, rfl, rfl, by decide⟩

theorem witness_line_stop :
    (plant.stopped = false ∧ plant.useActive .lineStop = false ∧
      exec (.lineStop 1) plant = accepted plant (.lineStop 1) (fun u => (stoppedPlant.setLink u.link).raise
        (.lineStop .request 0)) (fun _ => [.u8 0]) ∧
      exec .lineStopInputActive plant = .next ((plant.setArb { plant.arb with stop := ⟨true, true, false⟩ }).raise
        (.lineStop .input 0))) ∧
    (stoppedPlant.stopped = true ∧ exec .lineStopInputActive stoppedPlant =
      .next (plant.setArb { plant.arb with stop := ⟨true, true, true⟩ }) ∧
      exec (.lineResume 1) stoppedPlant = accepted stoppedPlant (.lineResume 1)
        (fun u => plant.setLink u.link) (fun _ => [])) ∧
    (let s := stoppedPlant.setPin 0 ⟨⟨false, 30, false, .lineStop⟩, some true, 0⟩;
      s.useActive .lineStop = true ∧ exec (.lineResume 1) s = refusedWith s (.lineResume 1) .wrongState 0) ∧
    exec (.lineResume 1) plant = accepted plant (.lineResume 1) id (fun _ => []) :=
  ⟨⟨rfl, rfl, rfl, rfl⟩, ⟨rfl, rfl, rfl⟩, ⟨rfl, rfl⟩, rfl⟩

/-- Input 5, debounced over 3 samples, changes at the third one that differs. -/
theorem witness_input_sample :
    let s (count : Nat) := (State.reset.setPin 5 ⟨⟨false, 30, false, .none⟩, some false, count⟩)
    (s 2).inv.bins = [] ∧ (s 2).arb.transfers = [] ∧ (∀ e ∈ (s 2).io.inputs, e.2.cfg.use = .none) ∧
      (after (.inputSample 32 [7]) (s 1)).map (fun t => ((t.pin 5).active, (t.pin 5).count)) = some (some false, 2) ∧
      (after (.inputSample 32 [7]) (s 2)).map (fun t => ((t.pin 5).active, (t.pin 5).count)) = some (some true, 0) ∧
      (after (.inputSample 0 [7]) (s 2)).map (fun t => ((t.pin 5).active, (t.pin 5).count)) = some (some false, 0) := by
  refine ⟨rfl, rfl, by decide, by decide +kernel, by decide +kernel, by decide +kernel⟩

/-! ### The Batch Line -/

/-- A CLOSED formula of product 7: 900,000 per million from bin 1, and a hand-add of 100,000. -/
def aFormula : Formula := ⟨true, 7, 100, [⟨.main, 1, 900000, 5, false, [1]⟩, ⟨.micro, 0, 100000, 5, true, []⟩]⟩

/-- A step entry of a batch. -/
def anEntry (status : StepStatus) : StepEntry := ⟨⟨.main, 1, 900000, 5, false, []⟩, 9000, 45, 100, status, 0, none, false⟩

/-- A batch of 100 kg of that formula for bin 6, its steps over. -/
def aBatch (number : Nat) (state : BatchState) (timer : Option BatchTimer) : Batch :=
  { newBatch number 1 100000 9 6 true aFormula [] with
    steps := [anEntry .done, anEntry .skipped], state := state, timer := timer, mixLeft := 50, total := 200 }

/-- The plant with a formula and batches. -/
def batching (l : List Batch) : State := plant.setLine { plant.line with formulas := [(1, aFormula)], batches := l }

theorem witness_formula_open :
    exec (.formulaOpen 1 33 1 0) plant = refusedWith plant (.formulaOpen 1 33 1 0) .outOfRange 0 ∧
    exec (.formulaOpen 1 32 1 6000) savingPlant = refusedWith savingPlant (.formulaOpen 1 32 1 6000) .busy 0 ∧
    exec (.formulaOpen 1 1 1 0) (batching [aBatch 1 .queued none]) =
      refusedWith (batching [aBatch 1 .queued none]) (.formulaOpen 1 1 1 0) .inUse 0 ∧
    exec (.formulaOpen 1 32 65535 6000) plant = accepted plant (.formulaOpen 1 32 65535 6000)
      (fun u => u.setLine { u.line with formulas := [(32, ⟨false, 65535, 6000, []⟩)] }) (fun _ => []) :=
  ⟨rfl, rfl, rfl, rfl⟩

theorem witness_formula_step :
    let s (steps : List FormulaStep) := plant.setLine { plant.line with formulas := [(1, ⟨false, 7, 0, steps⟩)] }
    exec (.formulaStep 1 1 ⟨0, 1, 1000001, 5, 0, 0⟩) plant =
      refusedWith plant (.formulaStep 1 1 ⟨0, 1, 1000001, 5, 0, 0⟩) .outOfRange 0 ∧
    exec (.formulaStep 1 1 ⟨0, 1, 1, 5, 0, 0⟩) savingPlant =
      refusedWith savingPlant (.formulaStep 1 1 ⟨0, 1, 1, 5, 0, 0⟩) .busy 0 ∧
    exec (.formulaStep 1 1 ⟨0, 1, 1, 5, 0, 0⟩) plant = refusedWith plant (.formulaStep 1 1 ⟨0, 1, 1, 5, 0, 0⟩) .wrongState 0 ∧
    exec (.formulaStep 1 1 ⟨0, 1, 1, 5, 0, 0⟩) (s (List.replicate 24 ⟨.main, 1, 1, 1, false, []⟩)) = refusedWith
      (s (List.replicate 24 ⟨.main, 1, 1, 1, false, []⟩)) (.formulaStep 1 1 ⟨0, 1, 1, 5, 0, 0⟩) .noRoom 0 ∧
    exec (.formulaStep 1 1 ⟨1, 48, 1000000, 100, 1, 9⟩) (s []) =
      accepted (s []) (.formulaStep 1 1 ⟨1, 48, 1000000, 100, 1, 9⟩) (fun u => u.setLine { u.line with
        formulas := [(1, ⟨false, 7, 0, [⟨.micro, 48, 1000000, 100, true, [1, 4]⟩]⟩)] }) (fun _ => [.u8 1]) :=
  ⟨rfl, rfl, rfl, rfl, rfl⟩

theorem witness_formula_close :
    let s (f : Formula) := plant.setLine { plant.line with formulas := [(1, { f with closed := false })] }
    exec (.formulaClose 1 1) (s { aFormula with steps := [] }) = accepted (s { aFormula with steps := [] })
      (.formulaClose 1 1) (fun u => u.setLine { u.line with formulas := [] }) (fun _ => [.u8 0]) ∧
    exec (.formulaClose 1 1) (s aFormula) = accepted (s aFormula) (.formulaClose 1 1)
      (fun u => u.setLine { u.line with formulas := [(1, aFormula)] }) (fun _ => [.u8 2]) ∧
    (let f := { aFormula with steps := [⟨.main, 1, 9, 5, false, []⟩, ⟨.main, 48, 9, 5, false, []⟩] };
      stepFailure plant ⟨.main, 48, 9, 5, false, []⟩ = some .noSuch ∧
        exec (.formulaClose 1 1) (s f) = refusedWith (s f) (.formulaClose 1 1) .noSuch 2) ∧
    exec (.batchlineSet 1 1 6000 1) plant = accepted plant (.batchlineSet 1 1 6000 1)
      (fun u => u.setLine { u.line with times := ⟨1, 6000, 1⟩ }) (fun _ => []) := ⟨rfl, rfl, ⟨rfl, rfl⟩, rfl⟩

/-- A batch of 200 kg: 180 kg of bin 1, of which 9 kg are on hand, and 20 kg by hand. -/
theorem witness_batch_queue :
    let s := batching [aBatch 1 .dosing none]
    let c : Instr := .batchQueue 3 2 1 200000 9 6 0
    (aBatch 1 .dosing none).onScales = true ∧ s.batch 2 = none ∧
      (∀ e ∈ aFormula.steps, 20 * (s.chan e.scale).cfg.division ≤ stepTarget 200000 e) ∧
      (after c s).map (fun t => (t.inv.reservations, (t.line.batches.map (·.number)), t.link.replies)) =
        some ([⟨1, 1, .batchStep 2 1, 180000, 9000⟩], [1, 2],
          [⟨0xAD, 3, .ok, 0, [.u8 2, .u32 180000, .u8 1, .u16 1, .u32 20000, .u8 0, .u16 0, .u8 1]⟩]) ∧
      exec (.batchRelease 1 1) s = accepted s (.batchRelease 1 1)
        (fun u => u.putBatch { aBatch 1 .dosing none with releaseWait := false }) (fun _ => []) ∧
      (let r := batching [{ aBatch 1 .dosing none with releaseWait := false }];
        exec (.batchRelease 1 1) r = refusedWith r (.batchRelease 1 1) .wrongState 0) := by
  refine ⟨rfl, rfl, by decide, by decide, rfl, rfl⟩

theorem witness_held_batch :
    let hand := aDose (.batchMicro 1 1) .handWait none 500 none
    let s (b : Batch) (d : Option OpenDose) := (batching [b]).setChan .micro { plant.chan .micro with dose := d }
    let two (a b : StepStatus) := { aBatch 1 (.held .dosing .underWeight) none with steps := [anEntry a, anEntry b] }
    exec (.handDone 1 1) (s (aBatch 1 .dosing none) (some hand)) =
      accepted (s (aBatch 1 .dosing none) (some hand)) (.handDone 1 1)
        (fun u => u.setChan .micro { u.chan .micro with dose := some { hand with
          state := .settling, timer := some 20, nets := [] } }) (fun _ => []) ∧
    exec (.handDone 1 1) (s (aBatch 1 .dosing none) none) =
      refusedWith (s (aBatch 1 .dosing none) none) (.handDone 1 1) .wrongState 0 ∧
    exec (.stepResume 1 1 1 0) (s (two (.held .underWeight) (.held .stall)) none) =
      accepted (s (two (.held .underWeight) (.held .stall)) none) (.stepResume 1 1 1 0)
        (fun u => u.putBatch { two .pending (.held .stall) with
          steps := [{ anEntry .pending with retried := true }, anEntry (.held .stall)] }) (fun _ => []) ∧
    (let t := s (two (.held .overWeight) (.held .stall)) none;
      exec (.stepResume 1 1 1 1) t = accepted t (.stepResume 1 1 1 1)
        (fun u => u.putBatch { two .done (.held .stall) with total := 300 }) (fun _ => [])) ∧
    (let t := s (two (.held .underWeight) (.held .stall)) none;
      exec (.stepResume 1 1 2 2) t = accepted t (.stepResume 1 1 2 2)
        (fun u => u.putBatch { two (.held .underWeight) .skipped with total := 300 }) (fun _ => [])) ∧
    (∀ a ∈ [0, 2], after (.stepResume 1 1 1 a) (s (two (.held .overWeight) .done) none) = some
      (answer (s (two (.held .overWeight) .done) none) ⟨0xB0, 1, .wrongState, 0, []⟩)) ∧
    ((aBatch 1 (.held .discharging .discharge) none).steps.map (·.status) = [.done, .skipped] ∧ plant.reworkBin = some 8 ∧
      (aBatch 1 (.held .discharging .discharge) none).claims = [] ∧
      (after (.batchAbandon 1 1) (s (aBatch 1 (.held .discharging .discharge) none) none)).map
        (fun t => (t.line.batches.map (fun b => (b.state, b.abandoned, b.destination)), t.asked .mixerMotor,
          t.asked .mainDischargeGate)) = some ([(.discharging, true, 8)], true, true)) := by
  refine ⟨rfl, rfl, rfl, rfl, rfl, by decide +kernel, rfl, rfl, rfl, by decide +kernel⟩

/-- R104: a step that RETRY set going again, held before any material, is dosed with no adaptation. -/
theorem test_retry_without_adaptation :
    (stepOrder (aBin .raw .main 0 9000) 1 1 { anEntry .pending with actual := 0 }).adapt = true ∧
      (stepOrder (aBin .raw .main 0 9000) 1 1 { anEntry .pending with actual := 0, retried := true }).adapt = false := by
  decide

theorem witness_batch_resume :
    let s (b : Batch) := batching [b]
    let held := fun p => aBatch 1 (.held p .lineStop) none
    exec (.batchResume 1 1) ((s (held .mixing)).setArb stoppedPlant.arb) =
      refusedWith ((s (held .mixing)).setArb stoppedPlant.arb) (.batchResume 1 1) .lineStopped 0 ∧
    (after (.batchResume 1 1) (s (held .discharging))).map (fun t => t.line.batches.map (fun b => (b.state, b.timer))) =
      some [(.discharging, some (.discharge 600))] ∧
    (after (.batchResume 1 1) (s (held .mixing))).map (fun t => t.line.batches.map (fun b => (b.state, b.timer))) =
      some [(.mixing, some (.mix 50))] ∧
    exec (.batchResume 1 1) (s (held .dosing)) = refusedWith (s (held .dosing)) (.batchResume 1 1) .wrongState 0 ∧
    exec (.batchCancel 1 1) (s (aBatch 1 .waitStock none)) = accepted (s (aBatch 1 .waitStock none)) (.batchCancel 1 1)
      (fun u => u.dropBatch 1) (fun _ => []) ∧
    exec (.batchCancel 1 1) (s (aBatch 1 .dosing none)) =
      refusedWith (s (aBatch 1 .dosing none)) (.batchCancel 1 1) .wrongState 0 := by
  refine ⟨rfl, by decide +kernel, by decide +kernel, rfl, rfl, rfl⟩

/-- The release of a batch of 200 g into bin 6: its FLOWING transfer and the release timer. -/
def releasing (completes : Bool) : State :=
  flowing (batching [aBatch 1 .releasing (some (.release 0 completes))]) .batchRelease [⟨6, true, 0⟩]

theorem witness_batch_timers :
    let s (state : BatchState) (timer : BatchTimer) := batching [aBatch 1 state (some timer)]
    let record : Completion := ⟨1, 1, 9, 6, 200, 200, false, false, [(.done, 100), (.skipped, 100)]⟩
    let filled := plant.setBin 6 { aBin .finished .bagger 5 90200 with lots := [⟨9, 7, 200, false⟩] }
    let ended := ((filled.setLine { (batching []).line with completion := some record }).raise (.batchDone 1 9)).ask
      .mixerMotor false
    let causes (c : Instr) (t : State) := (after c t).map (fun u => u.line.batches.map (fun b => (b.state, b.waitCause)))
    (exec .dischargeTimeout (s .discharging (.discharge 0)) = .next (((askGates (s .discharging (.discharge 0))
      (aBatch 1 .discharging none) false).putBatch (aBatch 1 (.held .discharging .discharge) none)).raise
        (.batchHeld 1 .discharge .discharging))) ∧
    (causes .mixTimeout ((s .mixing (.mix 0)).setInv { plant.inv with bins := [] }) = some [(.mixed, some .noDestination)] ∧
      causes .mixTimeout ((s .mixing (.mix 0)).setBin 6 (aBin .surge .press1 5 5000000)) = some [(.mixed, some .room)]) ∧
    ((releasing false).flowing .batchRelease = true ∧ exec .releaseTimeout (releasing false) =
      .next ((s .releasing (.release 0 false)).putBatch (aBatch 1 (.held .releasing .discharge) none) |>.raise
        (.batchHeld 1 .discharge .releasing))) ∧
    ((∀ r ∈ plant.inv.reservations, r.bin ≠ 6) ∧ plant.currentGrind = none ∧
      (∀ p, (plant.pressAt p).cfg.surgeBin ≠ 6) ∧
      exec .releaseTimeout (releasing true) = .next ended ∧
      exec .mixerEmptyActive (releasing false) = .next ended) := by
  refine ⟨rfl, ⟨by decide +kernel, by decide +kernel⟩, ⟨rfl, rfl⟩, by decide, rfl, fun p => by cases p <;> decide, rfl, rfl⟩

/-- R94's target and tolerance: the amount per million of the batch size, and the tolerance in permille of the target. -/
theorem test_step_target : stepTarget 1200000 ⟨.main, 1, 55000, 5, false, []⟩ = 66000 := by decide

/-! ### The Mill Controller -/

/-- R125's worked change of speed: −12.5 rounds to −13. -/
theorem test_load_loop : loopSpeed { plant.mill.settings with kp := 40, ki := 8 } 600 200 150 = 587 := by decide

/-- A grind request from bin 2 to bin 3. -/
def aGrind (state : GrindState) : GrindRequest := ⟨61440, 2, 3, 8, 5000000, state, 12⟩

/-- The plant with a mill. -/
def milling (state : MillState) (timer : Option MillTimer) (queue : List GrindRequest) : State :=
  plant.setMill { plant.mill with state := state, timer := timer, queue := queue }

/-- The same at work on the request above, with its transfer FLOWING. -/
def grinding (engaged : Bool) : State :=
  flowing (plant.setMill { plant.mill with
    state := .running, queue := [aGrind .grinding], current := some 61440, engaged := engaged
    u := if engaged then 600 else 0, overloadCount := 9, noFlowCount := 59 }) .mill [⟨2, false, 0⟩, ⟨3, true, 0⟩]

theorem witness_grind_requests :
    let idle := plant.setMill { plant.mill with stopMark := true }
    let held := plant.setMill { plant.mill with stopMark := true, queue := [aGrind (.held .noSource)] }
    exec (.grindQueue 1 61440 2 3 8 5000000) idle = accepted idle (.grindQueue 1 61440 2 3 8 5000000)
      (fun u => u.setMill { u.mill with queue := [{ aGrind .waiting with ground := 0 }] }) (fun _ => []) ∧
    exec (.grindResume 1 61440) held = accepted held (.grindResume 1 61440)
      (fun u => u.setMill { u.mill with queue := [aGrind .waiting] }) (fun _ => []) ∧
    exec (.screenFitted 1 8) idle = accepted idle (.screenFitted 1 8)
      (fun u => u.setMill { u.mill with fitted := 8, screenMemory := none }) (fun _ => []) ∧
    exec (.grindCancel 1 61440) held = accepted held (.grindCancel 1 61440)
      (fun u => u.setMill { u.mill with queue := [] }) (fun _ => [.u32 12]) ∧
    exec (.grindArm 1 3 2) plant = accepted plant (.grindArm 1 3 2)
      (fun u => u.setBin 3 { aBin .ground .main 2 0 with cfg := { (aBin .ground .main 2 0).cfg with arming := .repeating } })
      (fun _ => [.u8 0, .u8 1]) ∧
    exec (.grindArm 1 2 2) plant = refusedWith plant (.grindArm 1 2 2) .wrongState 0 ∧
    exec (.millSet 1 { plant.mill.settings with kp := 255 }) plant =
      accepted plant (.millSet 1 { plant.mill.settings with kp := 255 })
        (fun u => u.setMill { u.mill with settings := { plant.mill.settings with kp := 255 } }) (fun _ => []) ∧
    exec (.millSet 1 { plant.mill.settings with kp := 256 }) plant =
      refusedWith plant (.millSet 1 { plant.mill.settings with kp := 256 }) .outOfRange 0 :=
  ⟨rfl, rfl, rfl, rfl, rfl, rfl, rfl, rfl⟩

theorem witness_mill_requests :
    exec (.millResume 1) stoppedPlant = refusedWith stoppedPlant (.millResume 1) .lineStopped 0 ∧
    exec (.millResume 1) (plant.setMill { plant.mill with stopMark := true }) =
      .next (answer plant ⟨0xBE, 1, .ok, 0, []⟩) ∧
    exec (.millResume 1) (milling (.held .noStart) none []) = .next (answer plant ⟨0xBE, 1, .ok, 0, []⟩) ∧
    exec (.millResume 1) (milling .running none []) = refusedWith (milling .running none []) (.millResume 1) .wrongState 0 ∧
    exec (.millStop 1) (milling .idleRun (some (.idle 9)) []) = accepted (milling .idleRun (some (.idle 9)) []) (.millStop 1)
      (fun u => u.setMill { u.mill with stopMark := true, state := .stopping, timer := some (.rundown 600) })
      (fun _ => [.u8 5]) ∧
    exec (.millStop 1) plant = accepted plant (.millStop 1) (fun u => u.setMill { u.mill with stopMark := true })
      (fun _ => [.u8 0]) := ⟨rfl, rfl, rfl, rfl, rfl, rfl⟩

theorem witness_mill_timers :
    let next (c : Instr) (s : State) := (after c s).map (fun t => (t.mill.state, t.mill.timer, t.router.waiting))
    next .millStartTimeout (milling .starting (some (.start 0)) []) =
      some (.held .noStart, none, [.millHeld .noStart 0]) ∧
    next .millFeedbackFound (milling .starting (some (.start 3)) []) = some (.starting, some (.warm 50), []) ∧
    next .millWarmTimeout (milling .starting (some (.warm 0)) []) = some (.idleRun, some (.idle 1200), []) ∧
    next .millDrainTimeout (milling .draining (some (.drain 0)) []) = some (.idleRun, some (.idle 1200), []) ∧
    next .millDrainTimeout ((milling .draining (some (.drain 0)) []).setMill
      { (milling .draining (some (.drain 0)) []).mill with stopMark := true }) = some (.stopping, some (.rundown 600), []) ∧
    next .millIdleTimeout (milling .idleRun (some (.idle 0)) []) = some (.stopping, some (.rundown 600), []) ∧
    next .millRundownTimeout (milling .stopping (some (.rundown 0)) []) = some (.stopped, none, []) ∧
    next .millFeedbackLost ((milling .idleRun (some (.idle 5)) []).setMill
      { (milling .idleRun (some (.idle 5)) []).mill with feedbackFound := true }) =
        some (.held .feedbackLost, none, [.millHeld .feedbackLost 0]) := by
  refine ⟨by decide, by decide, by decide, by decide, by decide, by decide, by decide, by decide⟩

theorem witness_mill_loop :
    (grinding false).flowing .mill = true ∧ (grinding false).grind 61440 = some (aGrind .grinding) ∧
      (after (.millLoopInterval 500) (grinding false)).map (fun t => (t.mill.engaged, t.mill.u, (t.bin 2).map (·.feederAsk))) =
        some (true, 300, some 300) ∧
      max 1 (rdivNat plant.mill.settings.tripTime 5) ≤ 9 + 1 ∧
      (after .millOverload (grinding true)).map (fun t => (t.mill.state, t.router.waiting, t.arb.transfers)) =
        some (.held .overload, [.millHeld .overload 61440], []) ∧
      max 1 (rdivNat plant.mill.settings.noFlowTime 5) ≤ 59 + 1 ∧
      (after .millNoFlow (grinding true)).map (fun t => (t.mill.state, t.mill.queue, t.arb.transfers)) =
        some (.draining, [aGrind (.held .noFlow)], []) ∧ millOk plant.mill.settings = true := by
  refine ⟨rfl, rfl, by decide, by decide, by decide +kernel, by decide, by decide +kernel, by decide⟩

/-- At 600 permille of 5,000 g/s an interval of 0.5 s posts 1,500 g from bin 2 to bin 3, and with the motor current at its
setpoint of 150.0 A, and so no error, the speed stays. -/
theorem witness_mill_interval :
    let s := (grinding true).setIO { plant.io with spans := [(0, (0, 3000))] }
    (s.flowing .mill = true ∧ rdivNat (5000 * 600) 2000 = 1500 ∧ keepsLots .raw = false ∧ keepsLots .ground = false ∧
      (∀ q ∈ s.inv.reservations, q.bin ≠ 2 ∧ q.bin ≠ 3) ∧
      (∀ p, (s.pressAt p).cfg.surgeBin ≠ 2 ∧ (s.pressAt p).cfg.surgeBin ≠ 3) ∧ s.mixerBatch = none ∧
      ((s.setAnalogPin 0 500).readAnalog 0).1 = 1500 ∧ s.mill.settings.isp = 1500 ∧ 1500 ≤ s.mill.settings.iTrip ∧
      s.mill.settings.iNoload ≤ 1500) ∧
    (after (.millLoopInterval 500) s).map (fun t => ((t.bin 2).map (fun v => (v.onHand, v.feederAsk)),
      (t.bin 3).map (·.onHand), (t.grind 61440).map (·.ground), t.mill.u, t.mill.overloadCount, t.mill.noFlowCount)) =
        some (some (7500, 600), some 1500, some 1512, 600, 0, 0) := by
  refine ⟨⟨rfl, rfl, rfl, rfl, by decide, fun p => by cases p <;> decide, rfl, rfl, rfl, by decide, by decide⟩, by decide +kernel⟩

/-! ### The Press Controllers -/

/-- A profile of 9,000 kg/h at 80 °C. -/
def aProfile : Profile := ⟨9000, 800, 100, 200, 30, 10, 50, true⟩

/-- Its active run, at its rate. -/
def aRun : ActiveRun :=
  ⟨4, 1, 7, 7, 0, 0, aProfile, 0, 0, 9000, .deliver, 10, 5, 5, emptyTally, 0, false, false, false, none⟩

/-- The worked feeder permille: 9,450 kg/h from a full rate of 5,000 g/s. -/
theorem test_press_permille : ({ aRun with rateTrim := 50 } : ActiveRun).trimmedRate = 9450 ∧
    pressPermille 9450 5000 = 525 ∧ pressEstimate 525 5000 = 2625 := by decide

/-- The plant with press 1 in a state, fed from surge bin 5. -/
def pressing (state : PressState) (timer : Option PressTimer) (active : Option ActiveRun) : State :=
  (plant.setPresses { plant.press with profiles := [(1, aProfile)] }).setPress .one { plant.press.one with
    cfg := { plant.press.one.cfg with surgeBin := 5 }, state := state, timer := timer, active := active }

/-- The same, engaged, with its transfer FLOWING, its feeder at 500 permille, and 4,000 g of lot 3 before 5,000 g of lot 4 in
its surge bin. -/
def feeding (state : PressState) (active : ActiveRun) : State :=
  let s := pressing state none (some active)
  (flowing (s.setPress .one { s.press.one with engaged := true, feedbackFound := true, chokeCount := 2 }) .press1
    [⟨5, false, 0⟩, ⟨7, true, 0⟩]).setBin 5 { aBin .surge .press1 4 9000 with
      feederAsk := 500, lots := [⟨3, 8, 4000, false⟩, ⟨4, 8, 5000, false⟩] }

theorem witness_press_tables :
    let s := pressing .idle none none
    let run : RunFields := ⟨4, 1, 7, 7, 0, 0, 15, 1⟩
    let active := pressing .running none (some aRun)
    exec (.profileSet 1 16 ⟨9000, 800, 100, 200, 30, 10, 50, 0⟩) plant =
      accepted plant (.profileSet 1 16 ⟨9000, 800, 100, 200, 30, 10, 50, 0⟩)
        (fun u => u.setPresses { u.press with profiles := [(16, aProfile)] }) (fun _ => []) ∧
    (after (.pressSet 1 1 ⟨5, 31, 18, 0, 0, 1, 0, 1, 1, 1⟩) s).map (fun t => t.press.one.cfg) =
      some ⟨5, ⟨true, true, true, some 18, true⟩, 0, true, 1, 0, 1, 1, 1⟩ ∧
    exec (.pressSet 1 1 ⟨5, 31, 18, 0, 0, 1, 0, 1, 1, 1⟩) active =
      refusedWith active (.pressSet 1 1 ⟨5, 31, 18, 0, 0, 1, 0, 1, 1, 1⟩) .wrongState 0 ∧
    exec (.runQueue 1 1 run) s = accepted s (.runQueue 1 1 run)
      (fun u => u.setPress .one { u.pressAt .one with queue := [⟨4, 1, 7, 7, 0, 0, 15, true, 15⟩] }) (fun _ => [.u8 1]) ∧
    (let q := s.setPress .one { s.pressAt .one with queue := [⟨4, 1, 7, 7, 0, 0, 1, true, 1⟩, ⟨5, 1, 7, 7, 0, 0, 15, true, 0⟩] };
      exec (.runCancel 1 1 4) q = accepted q (.runCancel 1 1 4)
        (fun u => u.setPress .one { u.pressAt .one with queue := [⟨5, 1, 7, 7, 0, 0, 15, true, 15⟩] }) (fun _ => [])) ∧
    (after (.pressTrim 1 1 201 (-201)) active).map (fun t =>
      (t.press.one.active.map (fun a => (a.rateTrim, a.tempTrim)), t.link.replies)) =
      some (some (200, -200), [⟨0xCC, 1, .ok, 0, [.i16 200, .i16 (-200), .u8 1, .u8 1, .u32 10800]⟩]) ∧
    exec (.pressTrim 1 1 0 0) s = refusedWith s (.pressTrim 1 1 0 0) .wrongState 0 := by
  refine ⟨rfl, by decide, rfl, rfl, rfl, by decide, rfl⟩

theorem witness_press_start :
    let s := ((pressing .idle none none).setPress .one { (pressing .idle none none).press.one with
      queue := [⟨4, 1, 7, 7, 0, 0, 0, false, 0⟩] }).setPin 3
        ⟨⟨false, 30, false, .press1Running⟩, some false, 0⟩
    runRefusal s .one ⟨4, 1, 7, 7, 0, 0, 0, false, 0⟩ = none ∧ (s.inputWith .press1Running).isSome = true ∧
      (after (.pressStart 1 1) s).map (fun t => (t.press.one.state, t.press.one.timer, t.router.waiting)) =
        some (.starting, some (.start 100), [.pressChangeover .one 0 4]) ∧
      (let h := s.setArb stoppedPlant.arb;
        exec (.pressStart 1 1) h = refusedWith h (.pressStart 1 1) .lineStopped 0) := by
  refine ⟨by decide, by decide, by decide +kernel, rfl⟩

theorem witness_press_requests :
    let held := (pressing (.held .motor .none) none (some aRun)).setPin 3 ⟨⟨false, 30, false, .press1Running⟩, some false, 0⟩
    let view (t : State) := (t.press.one.state, t.press.one.timer, t.press.one.report.map (·.reason), t.arb.transfers,
      (t.bin 5).map (·.feederAsk), t.router.waiting)
    exec (.pressStop 1 1) plant = accepted plant (.pressStop 1 1) id (fun _ => []) ∧
      (after (.pressStop 1 1) (pressing (.held .noRun .emptyQueue) none none)).map view =
        some (.stopping, some (.rundown 600), none, [], some 0, []) ∧
      (after (.pressStop 1 1) (feeding .running aRun)).map view =
        some (.stopping, some (.rundown 600), some .stopped, [], some 0, [.pressRunEnd .one 4 .stopped]) ∧
      (after (.pressResume 1 1) held).map (fun t => (t.press.one.state, t.press.one.timer, t.asked .press1Motor)) =
        some (.starting, some (.start 100), true) ∧
      exec (.pressResume 1 1) (feeding .running aRun) =
        refusedWith (feeding .running aRun) (.pressResume 1 1) .wrongState 0 ∧
      exec (.changeoverNow 1 1) (pressing .choked none (some aRun)) =
        accepted (pressing .choked none (some aRun)) (.changeoverNow 1 1)
          (fun u => u.setPress .one { u.pressAt .one with signalPending := true }) (fun _ => [.u8 3, .u8 0, .u16 0, .u8 0, .u8 0]) ∧
      exec (.changeoverNow 1 1) plant = refusedWith plant (.changeoverNow 1 1) .wrongState 0 := by
  refine ⟨rfl, rfl, rfl, rfl, rfl, rfl, rfl⟩

/-- CHANGEOVER_NOW on a press that feeds run 4 with a rate trim of +50: the profile takes 9,450 kg/h, and run 5 goes on. -/
theorem witness_changeover :
    let run : Run := ⟨5, 1, 7, 7, 0, 0, 0, false, 0⟩
    let f := feeding .running { aRun with rateTrim := 50 }
    let s := f.setPress .one { f.press.one with queue := [run] }
    (s.turnOf (.changeoverNow 1 1) = true ∧ s.stopped = false ∧ runRefusal s .one run = none ∧ aRun.profile.carryBack = true ∧
      s.arb.waiting = [] ∧ (∀ x ∈ s.arb.transfers, x.2.owner = pressOwner .one → x.1 = 1) ∧ s.reworkBin = some 8 ∧
      (∀ k ∈ [5, 7, 8], ∀ v ∈ s.bin k, v.locked = false ∧ v.highCovered = none ∧ s.route v.cfg.outletRoute = ⟨[], []⟩ ∧
        s.route v.cfg.inletRoute = ⟨[], []⟩)) ∧
    let t := after (.changeoverNow 1 1) s
    t.map (fun t => ((Table.get t.press.profiles 1).map (·.feedRate), t.press.one.report.map (·.number))) =
      some (some 9450, some 4) ∧
    t.map (fun t => (t.press.one.active.map (fun a => (a.number, a.rateTrim, a.activeRate)), t.press.one.queue,
      t.press.one.engaged)) = some (some (5, 0, 9450), [], false) ∧
    t.map (fun t => t.arb.transfers.map (fun e => (e.2.owner, e.2.legs, e.2.gates, e.2.state))) =
      some [(.press1, [⟨5, false, 0⟩, ⟨7, true, 0⟩, ⟨8, true, 0⟩], [.press1Divert], .flowing)] ∧
    t.map (fun t => (t.router.waiting, t.link.replies)) = some ([.pressRunEnd .one 4 .changeover, .pressChangeover .one 4 5],
      [⟨0xCD, 1, .ok, 0, [.u8 0, .u8 1, .u16 5, .u8 0, .u8 0]⟩]) ∧
    t.map (fun t => ((t.bin 5).map (·.feederAsk), t.asked .press1Divert)) = some (some 0, false) := by
  refine ⟨⟨rfl, rfl, rfl, rfl, rfl, by decide, rfl, by decide⟩, ?_, ?_, ?_, ?_, ?_⟩ <;> decide +kernel

theorem witness_press_events :
    let with1 (f : Press → Press) (s : State) := s.setPress .one (f (s.pressAt .one))
    let view (c : Instr) (s : State) := (after c s).map (fun t => (t.press.one.state, t.press.one.timer, t.press.one.delay,
      t.press.one.signalPending, t.router.waiting, t.arb.transfers.length, (t.bin 5).map (·.feederAsk)))
    view (.pressButtonPress 1) (with1 (fun x => { x with cfg := { x.cfg with
      delay := 7, triggers := { x.cfg.triggers with button := true } } }) (feeding .running aRun)) =
        some (.running, none, some 7, false, [], 1, some 500) ∧
    view (.pressStartTimeout 1) (pressing .starting (some (.start 0)) (some aRun)) =
      some (.held .motor .none, none, none, false, [.pressHeld .one .motor .none 4], 0, some 0) ∧
    view (.pressFeedbackFound 1) (pressing .starting (some (.start 5)) (some aRun)) =
      some (.starting, some (.cold 1800), none, false, [], 0, some 0) ∧
    view (.pressColdTimeout 1) (pressing .starting (some (.cold 0)) (some aRun)) =
      some (.held .cold .none, none, none, false, [.pressHeld .one .cold .none 4], 0, some 0) ∧
    view (.pressFeedbackLost 1) (feeding .running aRun) =
      some (.held .motor .none, none, none, false, [.pressHeld .one .motor .none 4], 0, some 0) ∧
    view (.starveTimeout 1) (feeding .starved aRun) = some (.held .starvedOut .none, none, none, true,
      [.pressRunEnd .one 4 .starvedOut, .pressHeld .one .starvedOut .none 4], 0, some 0) ∧
    view (.changeoverDelayTimeout 1) (with1 (fun x => { x with delay := some 0 }) (pressing .choked none (some aRun))) =
      some (.choked, none, none, true, [], 0, some 0) ∧
    view (.pressRundownTimeout 1) (pressing .stopping (some (.rundown 0)) none) =
      some (.idle, none, none, false, [], 0, some 0) ∧
    view (.pressChoke 1) (feeding .running aRun) =
      some (.choked, none, none, false, [.pressHeld .one .choke .none 4], 0, some 0) ∧
    view (.pressColdHold 1) (with1 (fun x => { x with coldCount := 179 }) (feeding .running aRun)) =
      some (.held .cold .none, none, none, false, [.pressHeld .one .cold .none 4], 0, some 0) := by
  refine ⟨?_, ?_, ?_, ?_, ?_, ?_, ?_, ?_, ?_, ?_⟩ <;> rfl

/-- At 500 permille of 5,000 g/s an interval of 1 s feeds 2,500 g of the oldest lot, which reach bin 7 as product 7. -/
theorem witness_press_interval :
    let s := feeding .running aRun
    (s.flowing .press1 = true ∧ rdivNat (500 * 5000) 1000 = 2500 ∧ s.currentGrind = none ∧ s.mixerBatch = none ∧
      (s.pressAt .one).cfg.triggers.lotBoundary = false ∧ (∀ q, (s.pressAt q).cfg.surgeBin ≠ 7) ∧
      (s.pressAt .two).cfg.surgeBin ≠ 5 ∧ ((s.setAnalogPin 1 95).readAnalog 1).1 = 95 ∧
      ((s.setAnalogPin 3 750).readAnalog 3).1 = 750) ∧
    let t := after (.pressControlInterval 1 95 750) s
    t.map (fun t => (t.bin 5).map (fun v => (v.onHand, v.lots, v.feederAsk))) =
      some (some (6500, [⟨3, 8, 1500, false⟩, ⟨4, 8, 5000, false⟩], 500)) ∧
    t.map (fun t => (t.bin 7).map (fun v => (v.onHand, v.lots))) = some (some (92500, [⟨3, 7, 2500, false⟩])) ∧
    t.map (fun t => (t.press.one.chokeCount, t.press.one.active.map (fun a => (a.drawn, a.delivered, a.tally, a.activeRate)))) =
      some (0, some (2510, 2505, ⟨[(3, 2500)], false⟩, 9000)) := by
  refine ⟨⟨rfl, rfl, rfl, rfl, rfl, fun q => by cases q <;> decide, by decide, by decide, by decide⟩, ?_, ?_, ?_⟩ <;>
    decide +kernel

theorem witness_control_interval :
    let cold := pressing .starting (some (.cold 5)) (some aRun)
    let f := feeding .running aRun
    let runs := f.setPress .one { f.press.one with engaged := false }
    exec (.pressControlInterval 1 50 10) cold = .next ((cold.setAnalogPin 1 50).setAnalogPin 3 10) ∧
      runs.flowing .press1 = true ∧
      (after (.pressControlInterval 1 50 750) runs).map (fun t =>
        (t.press.one.engaged, t.press.one.active.map (·.activeRate), (t.bin 5).map (·.feederAsk))) =
          some (true, some 9000, some 500) := by
  refine ⟨rfl, rfl, by decide +kernel⟩

/-- R144, R150: the interval feeds 2,500 g of run 4 to its limit of 2,510 g. The delay of 0 brings run 5 at once, and the
rest of the interval finds the press not engaged: a current above the trip level is not counted. With no run queued the press is
held NO_RUN with run 4 kept; with a head run that lets the signal pass the watches go on, and run 4 chokes at its third count. -/
theorem witness_zero_delay_changeover :
    let run : Run := ⟨5, 1, 7, 7, 0, 0, 0, false, 0⟩
    let f := feeding .running { aRun with massLimit := 2510 }
    let s (queue : List Run) := f.setPress .one { f.press.one with queue := queue, cfg := { f.press.one.cfg with
      delay := 0, triggers := ⟨false, false, false, none, true⟩ } }
    let x := s [run]
    (x.stopped = false ∧ x.arb.waiting = [] ∧ x.flowing .press1 = true ∧ runRefusal x .one run = none ∧ x.reworkBin = some 8 ∧
      x.currentGrind = none ∧ x.mixerBatch = none ∧ (∀ q, (x.pressAt q).cfg.surgeBin ≠ 7) ∧
      (x.pressAt .two).cfg.surgeBin ≠ 5 ∧
      (∀ e ∈ x.arb.transfers, e.2.owner = pressOwner .one → e.1 = 1) ∧
      (∀ k ∈ [5, 7, 8], ∀ v ∈ x.bin k, v.locked = false ∧ v.highCovered = none ∧ x.route v.cfg.outletRoute = ⟨[], []⟩ ∧
        x.route v.cfg.inletRoute = ⟨[], []⟩)) ∧
    let view (q : List Run) := (after (.pressControlInterval 1 500 750) (s q)).map (fun t => (t.press.one.state,
      t.press.one.active.map (fun a => (a.number, a.drawn)), t.press.one.engaged, t.press.one.chokeCount, t.press.one.delay,
      (t.bin 5).map (fun v => (v.onHand, v.feederAsk))))
    view [run] = some (.running, some (5, 0), false, 2, none, some (6500, 0)) ∧
    view [] = some (.held .noRun .emptyQueue, some (4, 2510), false, 2, none, some (6500, 0)) ∧
    view [{ run with skipCounter := 1 }] = some (.choked, some (4, 2510), false, 3, none, some (6500, 0)) := by
  refine ⟨⟨rfl, rfl, rfl, rfl, rfl, rfl, rfl, fun q => by cases q <;> decide, by decide, by decide, by decide⟩, ?_, ?_, ?_⟩ <;>
    rfl

/-- R147: the active rate does not change during a pause; the feeder stands at 0 and the cold count rises. -/
theorem test_paused_press_keeps_its_rate :
    let f := feeding .running { aRun with activeRate := 8000 }
    (after (.pressControlInterval 1 50 10) (f.setPress .one { f.press.one with coldCount := 1 })).map (fun t =>
      (t.press.one.coldCount, t.press.one.active.map (·.activeRate), (t.bin 5).map (·.feederAsk))) =
        some (2, some 8000, some 0) := by
  decide +kernel

/-- R143: a flush that ends while the press is starved leaves it in RUNNING with the divert asked off. -/
theorem test_starved_flush_turns_the_divert_off :
    let f := (feeding .starved aRun).ask .press1Divert true
    let r := handle (.starvedJudge .one) (f.setPress .one { f.press.one with cfg := { f.press.one.cfg with resumeMass := 9000 } })
    r.1.press.one.state = .running ∧ r.1.asked .press1Divert = false := by
  decide +kernel

/-! ### The Bagger Controller -/

/-- A bag run of bags of 25 kg from bin 6, two in all. -/
def aBagRun (number : Nat) (state : BagState) (start : StartTrigger) (stop : StopTrigger) : BagRun where
  number := number
  bin := 6
  target := 25000
  count := 2
  underTol := 100
  overTol := 100
  start := start
  arming := .continuous
  stop := stop
  tail := 3
  reservation := 1
  accepted := 2
  rejected := 0
  consecutive := 0
  begun := 2
  burst := 0
  stopTaken := false
  tailLeft := 3
  onSpout := true
  tally := emptyTally
  state := state
  permitLost := false

/-- The plant with bag runs. -/
def bagging (l : List BagRun) (timer : Option BagTimer) : State := plant.setBag { plant.bag with queue := l, timer := timer }

theorem witness_bagger_requests :
    let one := bagging [aBagRun 1 .filling .command .command] none
    let fields : BagFields := ⟨2, 6, 25000, 2, 100, 100, 1, 0, 0, 0, 0, 0, 3⟩
    startTriggerOf 1 0 = some .button ∧ bagArmingOf 0 0 = some .continuous ∧ stopTriggerOf 0 0 = some .count ∧
      bagInRange one fields = true ∧
      exec (.baggerSet 1 100 600) plant = accepted plant (.baggerSet 1 100 600)
        (fun u => u.setBag { u.bag with checkTime := 100, releaseTime := 600 }) (fun _ => []) ∧
      (after (.bagQueue 1 fields) one).map (fun t => (t.bag.queue.map (·.number), t.inv.reservations)) =
        some ([1, 2], [⟨1, 6, .bagRun 2, 50000, 50000⟩]) ∧
      exec (.bagRunStart 1) plant = accepted plant (.bagRunStart 1)
        (fun u => u.setBag { u.bag with startMark := true }) (fun _ => [.u8 1]) ∧
      exec (.bagRunStart 1) stoppedPlant = refusedWith stoppedPlant (.bagRunStart 1) .lineStopped 0 ∧
      exec (.bagRunStop 1) plant = refusedWith plant (.bagRunStop 1) .noSuch 0 ∧
      exec (.bagRunStop 1) one = accepted one (.bagRunStop 1) (fun u => u.setBag { u.bag with
        queue := [{ aBagRun 1 .filling .command .command with stopTaken := true }] }) (fun _ => [.u8 3]) :=
  ⟨rfl, rfl, rfl, by decide, rfl, by rfl, rfl, rfl, rfl, rfl⟩

/-- The same with the transfer of the head run FLOWING and the reservation that run 1 has from bin 6. -/
def bagsFlow (l : List BagRun) (timer : Option BagTimer) : State :=
  flowing ((bagging l timer).setInv { plant.inv with reservations := [⟨1, 6, .bagRun 1, 50000, 50000⟩], nextId := 2 })
    .bagger [⟨6, false, 0⟩]

theorem witness_bagger_buttons :
    let run := { aBagRun 1 .armed .button .button with accepted := 0, onSpout := false }
    let s := ((bagging [run] none).setInv { plant.inv with reservations := [⟨1, 6, .bagRun 1, 50000, 50000⟩] }).setPin 9
      ⟨⟨false, 30, true, .bagPresent⟩, some false, 0⟩
    s.claim (.bagRun 1) 1 = some ⟨1, 6, .bagRun 1, 50000, 50000⟩ ∧ (s.inputWith .bagPresent).isSome = true ∧
      s.useActive .bagPresent = false ∧ s.route 0 = ⟨[], []⟩ ∧
      exec .baggerStartPress s = .next ((s.setBag { s.bag with queue := [{ run with state := .waitBag }] }).setArb { s.arb with
        transfers := [(1, ⟨.bagger, [⟨6, false, 0⟩], [], .flowing, [], none, false, none⟩)] }) ∧
      (let f := bagsFlow [aBagRun 1 .filling .button .button] none;
        exec .baggerStopPress f = .next (f.setBag { f.bag with
          queue := [{ aBagRun 1 .filling .button .button with stopTaken := true }] })) ∧
      (let w := plant.setArb { plant.arb with
          transfers := [(1, ⟨.bagger, [⟨6, false, 0⟩], [], .permitWait, [], some 300, false, none⟩)] };
        let w := w.setBag { w.bag with queue := [aBagRun 1 .waitBag .button .button] };
        w.flowing .bagger = false ∧ exec .bagPresentPress w = .next (w.setBag { w.bag with bagPresent := true })) :=
  ⟨rfl, rfl, rfl, rfl, by rfl, rfl, rfl, rfl⟩

/-- A run with its count reached, its transfer still FLOWING, ends when its bag is gone, with the reservation that it has or after
that has died; a run with a bag on its spout goes on by RELEASING. -/
theorem witness_bag_cycle :
    let releasing := bagsFlow [aBagRun 1 .releasing .command .count] (some (.release 0))
    let report : BagReport := ⟨1, .count, 2, 0, 2, emptyTally⟩
    let gone := ((plant.setInv { plant.inv with nextId := 2 }).setBag { plant.bag with report := some report }).raise
      (.bagRunEnd 1 .count)
    let dead := (releasing.setInv { releasing.inv with reservations := [⟨1, 5, .bagRun 3, 50000, 0⟩] })
    let held := bagging [aBagRun 1 (.held .permit .lost .waitBag) .command .count, { aBagRun 2 .armed .command .count with
      reservation := 2 }] none
    let two := held.setInv { held.inv with
      reservations := [⟨1, 6, .bagRun 1, 50000, 50000⟩, ⟨2, 6, .bagRun 2, 50000, 40000⟩], nextId := 3 }
    (let checking := bagsFlow [aBagRun 1 .checking .command .count] (some (.check 0));
      exec .checkTimeout checking = .next (bagsFlow [aBagRun 1 .releasing .command .count] (some (.release 100)))) ∧
      (releasing.claim (.bagRun 1) 1 = some ⟨1, 6, .bagRun 1, 50000, 50000⟩ ∧ exec .bagGonePress releasing = .next gone ∧
        exec .bagReleaseTimeout releasing = .next gone) ∧
      (dead.claim (.bagRun 1) 1 = none ∧ exec .bagGonePress dead = .next (gone.setInv dead.inv)) ∧
      (let s := held.setArb stoppedPlant.arb;
        exec (.baggerResume 1) s = refusedWith s (.baggerResume 1) .lineStopped 0) ∧
      (after (.baggerResume 1) held).map (fun t => (t.bag.queue.map (·.state), t.asked .baggerReject)) =
        some ([.releasing, .armed], true) ∧
      (two.claim (.bagRun 2) 2 = some ⟨2, 6, .bagRun 2, 50000, 40000⟩ ∧
        exec (.bagCancel 1 2) two = accepted two (.bagCancel 1 2) (fun u => (u.setBag { u.bag with
          queue := [aBagRun 1 (.held .permit .lost .waitBag) .command .count] }).setInv { two.inv with
            reservations := [⟨1, 6, .bagRun 1, 50000, 50000⟩] }) (fun _ => [.u16 2])) ∧
      (let f := bagsFlow [aBagRun 1 .filling .command .count] none;
        exec (.bagCancel 1 1) f = refusedWith f (.bagCancel 1 1) .wrongState 0) :=
  ⟨rfl, ⟨rfl, by rfl, by rfl⟩, ⟨rfl, by rfl⟩, rfl, by rfl, ⟨rfl, by rfl⟩, rfl⟩

/-- R170: a stop taken from BURST_WAIT with a tail of 3 lets its bags begin, and the reply shows the tail left as the bag
begins. -/
theorem test_stop_from_burst_wait :
    let run := { aBagRun 1 .burstWait .command .command with accepted := 0, arming := .burst 2, onSpout := false }
    let s := (bagging [run] none).setInv { plant.inv with reservations := [⟨1, 6, .bagRun 1, 50000, 50000⟩], nextId := 2 }
    (after (.bagRunStop 1) s).map (fun t => (t.bag.queue.map (fun r => (r.state, r.tailLeft)), t.link.replies)) =
      some ([(.filling, 2)], [⟨0xD3, 1, .ok, 0, [.u8 2]⟩]) := by
  decide +kernel

/-! ### The Order Book and the Loadout -/

/-- A BULK line of 6,000 kg of product 7 for compartment 1. -/
def aLine (status : LineStatus) (delivered : Nat) : OrderLine :=
  ⟨7, true, 6000000, 20000, 20000, 1, some 7, none, delivered, status, emptyTally⟩

/-- The plant with order 9. -/
def ordering (state : OrderState) (l : List OrderLine) : State :=
  plant.setBook { plant.book with orders := [⟨9, 55, state, l⟩] }

/-- The same with its truck at the spout. -/
def trucking (loadout : LoadState) (current : Option Nat) (state : OrderState) (l : List OrderLine) : State :=
  (ordering state l).setBook { (ordering state l).book with
    loadout := ⟨loadout, some ⟨9, [⟨6000000, 0⟩], some 100, current⟩, false, false⟩ }

theorem witness_orders :
    let fields : LineFields := ⟨7, 0, 6000000, 20000, 20000, some 6⟩
    let fresh := { aLine .opened 5 with bin := none }
    let s := ordering .opened [fresh]
    lineInRange fields = true ∧ plant.order max32 = none ∧
      exec (.orderEnter 1 max32 55 [fields]) plant = accepted plant (.orderEnter 1 max32 55 [fields])
        (fun u => u.setBook { u.book with orders := [⟨max32, 55, .opened, [newLine fields]⟩] }) (fun _ => []) ∧
      (after (.lineAssign 1 9 1 7) s).map (fun t => (t.inv.reservations, (t.order 9).map (fun o => o.lines.map (·.status)))) =
        some ([⟨1, 7, .orderLine 9 1, 5999995, 90000⟩], some [.assigned]) ∧
      exec (.lineClose 1 9 1) s = accepted s (.lineClose 1 9 1)
        (fun u => u.putOrder ⟨9, 55, .opened, [{ fresh with status := .closedShort }]⟩) (fun _ => [.u32 5]) ∧
      (let d := ordering .opened [aLine .done 5];
        exec (.lineClose 1 9 1) d = refusedWith d (.lineClose 1 9 1) .wrongState 0) ∧
      exec (.orderCancel 1 9) s = accepted s (.orderCancel 1 9) (fun u => u.dropOrder 9) (fun _ => [.u8 1, .u32 5]) ∧
      (let d := ordering .loaded [aLine .done 5];
        exec (.orderCancel 1 9) d = refusedWith d (.orderCancel 1 9) .wrongState 0) :=
  ⟨rfl, rfl, rfl, by rfl, rfl, rfl, rfl, rfl⟩

theorem witness_truck :
    let s := ordering .opened [aLine .opened 0]
    let out := trucking .finished none .loaded [aLine .done 6000000]
    truckMisfit ⟨9, 55, .opened, [aLine .opened 0]⟩ [6000000] = 0 ∧
      exec (.truckIn 1 9 [6000000]) s = accepted s (.truckIn 1 9 [6000000])
        (fun u => (u.putOrder ⟨9, 55, .loading, [aLine .opened 0]⟩).setLoadout
          ⟨.taring, some ⟨9, [⟨6000000, 0⟩], none, none⟩, false, false⟩) (fun _ => []) ∧
      exec (.truckIn 1 9 [6000000]) out = refusedWith out (.truckIn 1 9 [6000000]) .wrongState 0 ∧
      truckMisfit ⟨9, 55, .opened, [aLine .opened 0]⟩ [5999999] = 1 ∧
      exec (.truckIn 1 9 [5999999]) s = refusedWith s (.truckIn 1 9 [5999999]) .outOfRange 1 ∧
      (out.chan .truck).status = .ok ∧ (out.chan .truck).stable = true ∧
      (after (.truckOut 1 0) out).map (fun t => (t.book.dispatch.map (fun d => (d.order, d.tare, d.net)), t.book.orders,
        t.book.loadout.state)) = some ([(9, 100, -100)], [], .noTruck) := by
  refine ⟨by decide, rfl, rfl, by decide, rfl, rfl, rfl, by decide +kernel⟩

/-- A dispatch record. -/
def aDispatch : Dispatch := ⟨9, 55, 100, 200, 100, [], []⟩

theorem witness_dispatch :
    let s := plant.setBook { plant.book with dispatch := [aDispatch] }
    let full := (trucking .finished none .loaded []).setBook { (trucking .finished none .loaded []).book with
      dispatch := List.replicate 8 aDispatch }
    exec (.dispatchTake 1) plant = refusedWith plant (.dispatchTake 1) .noSuch 0 ∧
      exec (.dispatchTake 1) s = accepted s (.dispatchTake 1) (fun u => plant.setLink u.link) (fun _ => dispatchItems aDispatch) ∧
      full.book.dispatch.length ≤ 8 ∧ full.truckOrder.isSome = true ∧
      exec (.truckOut 1 0) full = refusedWith full (.truckOut 1 0) .noRoom 0 := ⟨rfl, rfl, by decide, rfl, rfl⟩

theorem witness_spout :
    let l : OrderLine := { aLine .assigned 0 with reservation := some 1 }
    let s := (trucking .spoutWait (some 1) .loading [l]).setInv { plant.inv with
      reservations := [⟨1, 7, .orderLine 9 1, 6000000, 6000000⟩] }
    let view := fun t : State => (t.book.loadout.state, (t.chan .truck).dose.map (fun d => (d.state, d.order.target,
      d.underTol, d.timer, d.order.adapt)), t.arb.transfers.map (·.2.state))
    let started : LoadState × Option (DoseState × Nat × Nat × Option Nat × Bool) × List TransferState :=
      (.loading, some (.taring, 6000000, 40000, some 50, true), [.flowing])
    s.takes (.spoutReady 1) = true ∧ s.stopped = false ∧ s.book.loadout.state = .spoutWait ∧
      s.currentLine = some (⟨9, 55, .loading, [l]⟩, 1, l) ∧ l.bin = some 7 ∧
      s.bin 7 = some (aBin .finished .truck 6 90000) ∧ (aBin .finished .truck 6 90000).locked = false ∧
      l.remaining ≤ s.heldBy (.orderLine 9 1) l.reservation ∧ 0 < loadTarget s l ∧ s.arb.transfers = [] ∧
      s.arb.waiting = [] ∧ s.route (aBin .finished .truck 6 90000).cfg.outletRoute = ⟨[], []⟩ ∧
      (s.chan .truck).dose = none ∧ (s.chan .truck).status = .ok ∧
      (after (.spoutReady 1) s).map view = some started ∧ (after .spoutReadyButtonPress s).map view = some started := by
  exact ⟨rfl, rfl, rfl, rfl, rfl, rfl, rfl, by decide, by decide, rfl, rfl, rfl, rfl, rfl, rfl, rfl⟩

theorem witness_loadout_resume :
    let s := trucking (.held .overWeight .none) (some 1) .loading [aLine .overWeight 6500000]
    let r := trucking .ready none .loading [aLine .opened 0]
    exec (.loadoutResume 1 0) s = accepted s (.loadoutResume 1 0)
      (fun u => (((u.setCurrent none).setLoadState .finished).putOrder ⟨9, 55, .loaded, [aLine .overWeight 6500000]⟩).raise
        (.orderLoaded 9)) (fun _ => []) ∧
    exec (.loadoutResume 1 1) s = refusedWith s (.loadoutResume 1 1) .wrongState 0 ∧
    (let w := trucking .spoutWait (some 1) .loading [aLine .assigned 0];
      w.currentLine.isSome = true ∧ exec (.loadoutResume 1 0) w = refusedWith w (.loadoutResume 1 0) .wrongState 0) ∧
    exec (.loadoutResume 1 0) r = refusedWith r (.loadoutResume 1 0) .wrongState 0 :=
  ⟨by rfl, rfl, ⟨rfl, rfl⟩, rfl⟩

/-! ### The Event Router -/

theorem witness_router_requests :
    let s := plant.setRouter { plant.router with notices := [(40, aNotice 3)] }
    exec (.sourceLevelSet 1 3 0) plant = accepted plant (.sourceLevelSet 1 3 0)
      (fun u => u.setRouter { u.router with levels := [(3, 0)] }) (fun _ => [.u8 6]) ∧
    exec (.sourceLevelSet 1 40 0) s = accepted s (.sourceLevelSet 1 40 0)
      (fun u => u.setRouter { u.router with levels := [(40, 0)], notices := [] }) (fun _ => [.u8 3]) ∧
    exec (.sourceLevelSet 1 40 6) s = accepted s (.sourceLevelSet 1 40 6)
      (fun u => u.setRouter { u.router with levels := [(40, 6)], notices := [(40, aNotice 6)] }) (fun _ => [.u8 3]) ∧
    exec (.sourceLevelSet 1 2 6) plant = refusedWith plant (.sourceLevelSet 1 2 6) .outOfRange 0 ∧
    exec (.floorSet 1 7) plant = accepted plant (.floorSet 1 7) (fun u => u.setRouter { u.router with floor := 6 })
      (fun _ => [.u8 6, .u8 1, .u8 0]) ∧
    exec (.slotArm 1 ⟨7, 40, 4, none, none, none, 65535⟩) plant = accepted plant (.slotArm 1 ⟨7, 40, 4, none, none, none, 65535⟩)
      (fun u => u.setSlot 7 ⟨40, .count, 0, 0, 0, 65535, true⟩) (fun _ => []) ∧
    (let a := plant.setSlot 7 ⟨40, .count, 0, 0, 0, 5, true⟩;
      exec (.slotArm 1 ⟨7, 40, 4, none, none, none, 1⟩) a = refusedWith a (.slotArm 1 ⟨7, 40, 4, none, none, none, 1⟩) .wrongState 0 ∧
        exec (.slotDisarm 1 7) a = accepted a (.slotDisarm 1 7)
          (fun u => u.setSlot 7 ⟨40, .count, 0, 0, 0, 5, false⟩) (fun _ => [.u16 5, .u8 1])) := by
  refine ⟨rfl, rfl, rfl, rfl, rfl, rfl, rfl, rfl⟩

theorem witness_occurrence :
    let e : Event := .truckReady 9
    let s := plant.setRouter { plant.router with waiting := [e] }
    let slotted (n : Nat) := s.setSlot 2 ⟨e.source, .count, 0, 0, 0, n, true⟩
    let pending (n : Nat) := s.setRouter { s.router with notices := [(e.source, ⟨n, 3, e.detail⟩)] }
    lowBin e = none ∧ filledId e = none ∧ (∀ p, (s.pressAt p).cfg.triggers.source ≠ some e.source) ∧
      (slotted 2).servingSlot e.source = some 2 ∧
      exec .occurrenceOffer (slotted 2) = .next (plant.setSlot 2 ⟨e.source, .count, 0, 0, 0, 1, true⟩) ∧
      exec .occurrenceOffer (slotted 1) = .next ((plant.setSlot 2 ⟨e.source, .count, 0, 0, 0, 0, false⟩).raise
        (.slotDone 2 e.source .count)) ∧
      s.servingSlot e.source = none ∧ exec .occurrenceOffer (s.setLevel e.source 0) = .next (plant.setLevel e.source 0) ∧
      exec .occurrenceOffer s = .next (plant.setRouter { plant.router with
        notices := [(e.source, ⟨1, s.level e.source, e.detail⟩)] }) ∧
      exec .occurrenceOffer (pending 255) = .next (plant.setRouter { plant.router with
        notices := [(e.source, ⟨255, 3, e.detail⟩)] }) := by
  refine ⟨rfl, rfl, fun p => by cases p <;> decide, rfl, rfl, rfl, rfl, rfl, rfl, rfl⟩

/-! ### Transfers that fail, and jobs at work in a Line Stop -/

/-- A state with a transfer that waits for its permits, its time run out. -/
def waits (s : State) (o : Owner) (legs : List Leg) : State :=
  s.setArb { s.arb with transfers := [(1, ⟨o, legs, [], .permitWait, [], some 0, false, none⟩)] }

/-- A batch that doses its first step, from bin 1. -/
def dosingBatch : Batch := { aBatch 1 .dosing none with steps := [anEntry .dosing, anEntry .done] }

/-- The plant with the loadout LOADING its line from bin 7. -/
def loading : State := trucking .loading (some 1) .loading [aLine .loading 0]

/-- What a failed transfer leaves of the part's transfers and raises. -/
def failed (c : Instr) (s : State) : Option (List (Nat × Transfer) × List Event) :=
  (after c s).map (fun t => (t.arb.transfers, t.router.waiting))

/-- The permit time runs out: each job is held with the reason of its own, its transfer ended. -/
theorem witness_permit_timer :
    let feeds : List Leg := [⟨2, false, 0⟩, ⟨3, true, 0⟩]
    let mill := waits (grinding false) .mill feeds
    let press := waits (pressing .running none (some aRun)) .press1 [⟨5, false, 0⟩, ⟨7, true, 0⟩]
    let bags := waits (bagging [aBagRun 1 .waitBag .command .count] none) .bagger [⟨6, false, 0⟩]
    let loads := waits loading .loadout [⟨7, false, 0⟩]
    let doses := waits (batching [dosingBatch]) .batchMain [⟨1, false, 0⟩]
    let mixed := waits (batching [aBatch 1 .mixed none]) .batchRelease [⟨6, true, 0⟩]
    exec (.permitTimeout 1) (grinding false) = .next (grinding false) ∧
    ((mill.transferOf .mill).map (·.1) = some 1 ∧ failed (.permitTimeout 1) mill = some ([], [.millHeld .noPermit 61440]) ∧
      (after (.permitTimeout 1) mill).map (·.mill.state) = some (.held .noPermit)) ∧
    (failed (.permitTimeout 1) press = some ([], [.pressHeld .one .noPermit .none 4]) ∧
      (after (.permitTimeout 1) press).map (·.press.one.state) = some (.held .noPermit .none)) ∧
    (failed (.permitTimeout 1) bags = some ([], []) ∧
      (after (.permitTimeout 1) bags).map (fun t => t.bag.queue.map (·.state)) = some [.held .permit .timeout .waitBag]) ∧
    (loads.currentLine.isSome = true ∧ failed (.permitTimeout 1) loads = some ([], [.loadoutHeld 1 .permit .timeout]) ∧
      (after (.permitTimeout 1) loads).map (·.book.loadout.state) = some (.held .permit .timeout)) ∧
    (dosingBatch.dosingStep .main = some (1, anEntry .dosing) ∧ dosingBatch.dosingStep .micro = none ∧
      failed (.permitTimeout 1) doses = some ([], [.stepHeld 1 1 .noPermit]) ∧
      (after (.permitTimeout 1) doses).map (fun t => t.line.batches.map (fun b => (b.state, b.steps.map (·.status)))) =
        some [(.held .dosing .noPermit, [.held .noPermit, .done])]) ∧
    (failed (.permitTimeout 1) mixed = some ([], [.batchHeld 1 .noPermit .mixed]) ∧
      (after (.permitTimeout 1) mixed).map (fun t => t.line.batches.map (·.state)) = some [.held .mixed .noPermit]) := by
  refine ⟨rfl, ⟨rfl, ?_, ?_⟩, ⟨?_, ?_⟩, ⟨?_, ?_⟩, ⟨?_, ?_, ?_⟩, ⟨?_, ?_, ?_, ?_⟩, ?_, ?_⟩ <;> decide +kernel

/-- A state whose route 1 needs input 0 ACTIVE, with input 0 one sample before its loss. -/
def losing (s : State) : State :=
  (s.setArb { s.arb with routes := [(1, ⟨[⟨0, true⟩], []⟩)] }).setPin 0 ⟨⟨false, 30, false, .permissive⟩, some true, 2⟩

/-- The permissive of the transfer's first leg is lost: each job is held, and then PERMISSIVE_LOST is raised. -/
theorem witness_permissive_lost :
    let mill := losing (flowing (grinding true) .mill [⟨2, false, 1⟩, ⟨3, true, 0⟩])
    let press := losing (flowing (feeding .running aRun) .press1 [⟨5, false, 1⟩, ⟨7, true, 0⟩])
    let loads := losing (flowing loading .loadout [⟨7, false, 1⟩])
    ((takeInputSample mill 0 []).2 = [.judgeTransfer 1] ∧
      (mill.transferOf .mill).bind (fun x => (takeInputSample mill 0 []).1.failingPermissive x.2) = some (1, ⟨0, true⟩)) ∧
    (failed (.inputSample 0 []) mill = some ([], [.millHeld .permit 61440, .permissiveLost .mill 1 0 true]) ∧
      (after (.inputSample 0 []) mill).map (fun t => (t.mill.state, (t.bin 2).map (·.feederAsk))) = some (.held .permit, some 0)) ∧
    (failed (.inputSample 0 []) press = some ([], [.pressHeld .one .permit .none 4, .permissiveLost .press1 1 0 true]) ∧
      (after (.inputSample 0 []) press).map (fun t => (t.press.one.state, (t.bin 5).map (·.feederAsk))) =
        some (.held .permit .none, some 0)) ∧
    (failed (.inputSample 0 []) loads = some ([], [.loadoutHeld 1 .permit .lost, .permissiveLost .loadout 1 0 true]) ∧
      (after (.inputSample 0 []) loads).map (·.book.loadout.state) = some (.held .permit .lost)) := by
  refine ⟨⟨?_, ?_⟩, ⟨?_, ?_⟩, ⟨?_, ?_⟩, ?_, ?_⟩ <;> decide +kernel

/-- A Line Stop by its input that meets one job at work: the job is held, and LINE_STOP names one aborted transfer. -/
theorem witness_line_stop_at_work :
    let bags := bagsFlow [aBagRun 1 .waitBag .command .count] none
    let loads := flowing loading .loadout [⟨7, false, 0⟩]
    ((∀ sc, (plant.chan sc).dose = none) ∧ plant.line.batches = [] ∧ plant.mill.state = .stopped ∧
      (∀ p, (plant.pressAt p).state = .idle) ∧ plant.bag.queue = [] ∧ plant.book.loadout.state = .noTruck) ∧
    (failed .lineStopInputActive (grinding true) = some ([], [.millHeld .lineStop 61440, .lineStop .input 1]) ∧
      (after .lineStopInputActive (grinding true)).map (fun t => (t.mill.state, t.asked .millMotor)) =
        some (.held .lineStop, false)) ∧
    (((after .lineStopInputActive (feeding .running aRun)).map (fun t => (t.arb.transfers.map (·.2.state), t.router.waiting))) =
        some ([.aborted], [.pressHeld .one .lineStop .none 4, .lineStop .input 1]) ∧
      (after .lineStopInputActive (feeding .running aRun)).map (fun t => (t.press.one.state, t.asked .press1Motor)) =
        some (.held .lineStop .none, false)) ∧
    (failed .lineStopInputActive (releasing false) = some ([], [.batchHeld 1 .lineStop .releasing, .lineStop .input 1]) ∧
      (after .lineStopInputActive (releasing false)).map (fun t => t.line.batches.map (·.state)) =
        some [.held .releasing .lineStop]) ∧
    (failed .lineStopInputActive bags = some ([], [.lineStop .input 1]) ∧
      (after .lineStopInputActive bags).map (fun t => t.bag.queue.map (fun r => (r.state, r.onSpout))) =
        some [(.held .lineStop .none .waitBag, false)]) ∧
    (failed .lineStopInputActive loads = some ([], [.loadoutHeld 1 .lineStop .none, .lineStop .input 1]) ∧
      (after .lineStopInputActive loads).map (·.book.loadout.state) = some (.held .lineStop .none)) := by
  refine ⟨⟨fun sc => by cases sc <;> rfl, rfl, rfl, fun p => by cases p <;> rfl, rfl, rfl⟩, ⟨?_, ?_⟩, ⟨?_, ?_⟩, ⟨?_, ?_⟩, ⟨?_, ?_⟩,
    ?_, ?_⟩ <;> decide +kernel

/-- Slots 1 and 2 wait, slot 3 holds resource 16: slot 1 needs it, slot 2 needs none and is granted. -/
theorem witness_grant_scan :
    let x (o : Owner) (route : Nat) (state : TransferState) (held : List Nat) : Transfer :=
      ⟨o, [⟨7, false, route⟩], [], state, held, none, false, none⟩
    let s := plant.setArb { plant.arb with
      routes := [(1, ⟨[], [16]⟩)], waiting := [1, 2]
      transfers := [(1, x .mill 1 .waiting []), (2, x .loadout 0 .waiting []), (3, x .press1 1 .flowing [16])] }
    let blocked := s.setArb { s.arb with waiting := [1] }
    s.legResources [⟨7, false, 1⟩] = [16] ∧ s.resourceHeld 16 = true ∧ s.legResources [⟨7, false, 0⟩] = [] ∧
      ((grantScan s).1.arb.transfers.map (fun e => e.2.state), (grantScan s).1.arb.waiting, (grantScan s).2) =
        ([.waiting, .flowing, .flowing], [1], [.ownerFlowing .loadout]) ∧
      grantScan blocked = (blocked, []) := by
  refine ⟨?_, ?_, ?_, ?_, ?_⟩ <;> decide +kernel

/-! ### Dose endings -/

/-- Each ending of a dose of 9,000 g from bin 1 on MAIN, with what it draws and reports. -/
theorem witness_dose_endings :
    let req : Requester := .batchMain 1 1
    let chan (net : Int) : Channel := { plant.chan .main with
      samples := List.replicate 8 ⟨net, net⟩, filtered := List.replicate 32 net, gross := net, okGross := net }
    let s (d : OpenDose) (net : Int) := plant.setChan .main { chan net with dose := some d }
    let settling := aDose req .settling (some 1) 9000 (some 0)
    let slow := { aDose req .slow (some 1) 9000 none with nets := List.replicate 150 8000 }
    let view (c : Instr) (s : State) := (after c s).map (fun t => ((t.chan .main).dose, (t.chan .main).report.map (fun r =>
      (r.ending, r.actual)), (t.bin 1).map (·.onHand)))
    view (.settleTimeout 0) (s { settling with jogs := 2 } 8000) = some (none, some (.underWeight, 8000), some 1000) ∧
    view (.settleTimeout 0) (s settling 9500) = some (none, some (.overWeight, 9500), some 0) ∧
    view (.settleTimeout 0) (s settling 8950) = some (none, some (.accepted, 8950), some 50) ∧
    (((sampleChannel (s settling 9050).weigh.main 9050 true).1.stable, (sampleChannel (s settling 9050).weigh.main 9050 true).2) =
        (true, true) ∧
      view (.channelSample 0 9050 true) (s settling 9050) = some (none, some (.accepted, 9050), some 0)) ∧
    view (.channelSample 0 8000 true) (s slow 8000) = some (none, some (.stall, 8000), some 1000) ∧
    view (.channelSample 0 0 false) (s slow 8000) = some (none, some (.scale, 8000), some 1000) ∧
    ((handle (.stopDose .main) (s slow 8000)).1.weigh.main.report.map (·.ending) = some .stopped ∧
      (handle (.ownerAborted .batchMain) (s slow 8000)).1.weigh.main.report.map (·.ending) = some .permit) := by
  refine ⟨?_, ?_, ?_, ⟨?_, ?_⟩, ?_, ?_, ?_, ?_⟩ <;> decide +kernel

/-- The end of an ACCEPTED dose charges its reservation and adapts the in-flight: an error of +50 g with a gain of 2/8 adds 13 g
(R30's rounding of 12.5). -/
theorem witness_dose_end :
    let d := aDose (.batchMain 1 1) .settling (some 1) 8000 none
    let d := { d with order := { d.order with reservation := some 4, adapt := true } }
    let s := (dosing .main d).setInv { plant.inv with reservations := [⟨4, 1, .batchStep 1 1, 8100, 8100⟩] }
    let t := (endDose s .main d .accepted 8050 (some .stability)).1
    s.claim (requesterHolder d.order.requester) 4 = some ⟨4, 1, .batchStep 1 1, 8100, 8100⟩ ∧
      (t.bin 1).map (fun v => (v.onHand, v.inflight, v.feederAsk)) = some (950, 513, 0) ∧
      (t.reservation 4).map (fun r => (r.wanted, r.held)) = some (50, 50) ∧
      (t.chan .main).dose = none ∧ (t.chan .main).report.map (·.settled) = some (some .stability) := by
  refine ⟨?_, ?_, ?_, ?_, ?_⟩ <;> decide +kernel

/-! ### Listeners and slot actions -/

/-- The state in which an occurrence is the oldest that waits, its source at level 0. -/
def offered (s : State) (e : Event) : State :=
  (s.setRouter { s.router with waiting := [e] }).setLevel e.source 0

theorem witness_listeners :
    let e : Event := .truckReady 9
    let press (delay : Option Nat) : State := (pressing .running none (some aRun)).setPress .one {
      (pressing .running none (some aRun)).press.one with delay := delay, cfg := { plant.press.one.cfg with
        surgeBin := 5, delay := 7, triggers := ⟨false, true, false, some e.source, false⟩ } }
    let view (s : State) := (after .occurrenceOffer s).map (fun t => (t.press.one.delay, t.press.one.active.map (·.ignored),
      t.router.waiting))
    (lowBin e = none ∧ filledId e = none ∧ (offered (press none) e).servingSlot e.source = none ∧
      (offered (press none) e).level e.source = 0 ∧ (plant.pressAt .two).cfg.triggers.source ≠ some e.source) ∧
    view (offered (press none) e) = some (some 7, some 0, []) ∧ view (offered (press (some 3)) e) = some (some 3, some 1, []) ∧
    (lowBin (.binLow 5 .drawOrCount) = some 5 ∧ (plant.pressAt .two).cfg.surgeBin ≠ 5 ∧
      view (offered (press none) (.binLow 5 .drawOrCount)) = some (some 7, some 0, [])) ∧
    (let bags := bagsFlow [aBagRun 1 .filling .command (.source e.source)] none;
      (after .occurrenceOffer (offered bags e)).map (fun t => t.bag.queue.map (fun r => (r.stopTaken, r.tailLeft))) =
        some [(true, 3)]) := by
  refine ⟨⟨?_, ?_, ?_, ?_, ?_⟩, ?_, ?_, ⟨?_, ?_, ?_⟩, ?_⟩ <;> decide +kernel

/-- BIN_LOW of an armed GROUND bin queues its grind; a SOURCE start takes an ARMED run; RESERVATION_FILLED reaches the batches that
wait for stock and the run that is short. -/
theorem witness_listeners_of_stock :
    let mill := (plant.setMill { plant.mill with stopMark := true }).setBin 3 { aBin .ground .main 2 0 with
      cfg := { (aBin .ground .main 2 0).cfg with arming := .single, grindSource := 2, grindScreen := 4 } }
    let armed := bagging [{ aBagRun 1 .armed (.source 25) .count with accepted := 0 }] none
    let short := bagsFlow [{ aBagRun 1 (.held .short .stock .waitBag) .command .count with accepted := 0 }] none
    let claims := batching [{ aBatch 1 .waitStock none with steps := [{ anEntry .pending with reservation := some 1 }] }]
    let claims := claims.setInv { plant.inv with reservations := [⟨1, 1, .batchStep 1 1, 9000, 9000⟩] }
    (sourceFit mill 2 = true ∧ (after .occurrenceOffer (offered mill (.binLow 3 .drawOrCount))).map (fun t => (t.mill.queue,
      (t.bin 3).map (·.cfg.arming))) = some ([⟨61443, 2, 3, 4, 0, .waiting, 0⟩], some .off)) ∧
    (armed.stopped = false ∧ (Event.truckReady 9).source = 25 ∧
      (handle (.listenBagStart 1 (.truckReady 9)) armed).1.bag.queue.map (·.state) = [.waitBag] ∧
      (handle (.listenBagStart 1 (.truckReady 9)) armed).2 = [.enterWaitBag]) ∧
    (waitingClaim claims 1 = true ∧ waitingClaim claims 2 = false) ∧
    (short.claim (.bagRun 1) 1 = some ⟨1, 6, .bagRun 1, 50000, 50000⟩ ∧
      ((handle (.listenShort (.reservationFilled 1 6)) short).1.bag.queue.map (·.state)) = [.waitBag]) := by
  refine ⟨⟨?_, ?_⟩, ⟨?_, ?_, ?_, ?_⟩, ⟨?_, ?_⟩, ?_, ?_⟩ <;> decide +kernel

/-- The four actions of a slot beside its count. -/
theorem witness_slot_actions :
    let e : Event := .truckReady 9
    let s (t : State) (v : Slot) := (t.setRouter { t.router with waiting := [e] }).setSlot 2 v
    let bagged : OrderLine := { aLine .opened 4 with bulk := false, quantity := 6, underTol := 1, overTol := 0 }
    let press := (pressing .running none (some aRun)).setPress .one { (pressing .running none (some aRun)).press.one with
      cfg := { plant.press.one.cfg with surgeBin := 5, delay := 7, triggers := ⟨false, true, false, some 18, false⟩ } }
    let queue := batching [aBatch 1 .dosing none, aBatch 2 .queued none]
    let queue := queue.setLine { queue.line with batches := [{ aBatch 1 .dosing none with releaseWait := false }, aBatch 2 .queued none] }
    let left (t : State) := (t.slot 2).remaining
    (after .occurrenceOffer (s (ordering .opened [bagged]) ⟨e.source, .postBag, 9, 1, 0, 3, true⟩)).map (fun t =>
      (t.book.orders.map (fun o => o.lines.map (fun l => (l.delivered, l.status))), left t)) = some ([[(5, .done)]], 2) ∧
    (after .occurrenceOffer (s queue ⟨e.source, .releaseBatch, 0, 0, 0, 3, true⟩)).map (fun t =>
      (t.line.batches.map (·.releaseWait), left t)) = some ([false, false], 2) ∧
    (after .occurrenceOffer (s press ⟨e.source, .changeover, 0, 0, 1, 3, true⟩)).map (fun t => (t.press.one.delay, left t)) =
      some (some 7, 2) ∧
    (after .occurrenceOffer (s plant ⟨e.source, .bagStart, 0, 0, 0, 3, true⟩)).map (fun t => (t.bag.startMark, left t)) =
      some (true, 2) := by
  refine ⟨?_, ?_, ?_, ?_⟩ <;> decide +kernel

/-! ### Resets, probes, bursts and order lines at their corners -/

/-- The reset of RESTART reads the strap pins as they stand (R205, R220). -/
theorem test_restart_reads_the_straps :
    let s := plant.setLink { plant.link with strapB := true, strapA := true, tx := [⟨0x84, 1, [0, 0]⟩] }
    (after .frameSent s).map (·.link.baud) = some 230400 := by decide +kernel

/-- A probe keeps its state over a redefinition that names its input, and the sample after it is no change (R34, R44). -/
theorem test_probe_after_redefinition :
    let d : BinDef := { (aBin .raw .main 0 9000).cfg with lowProbe := some 3 }
    let v := redefined (some { aBin .raw .main 0 9000 with cfg := d, lowCovered := some true }) d
    (v.lowCovered = some true ∧ v.onHand = 9000) ∧
      probeAt v.renamed v.lowCovered (some true) (some false) = (some false, false) ∧
      probeAt false v.lowCovered (some true) (some false) = (some false, true) := by decide

/-- A Line Stop that finds the last bag of a burst in RELEASING holds the run from BURST_WAIT (R169, R172). -/
theorem test_line_stop_after_a_burst :
    let r := { aBagRun 4 .releasing .command .command with arming := .burst 1, burst := 1, accepted := 1, count := 9 }
    (stopBagger (bagging [r] none)).1.headRun.map (·.state) = some (.held .lineStop .none .burstWait) ∧
      (stopBagger (bagging [{ r with burst := 0 }] none)).1.headRun.map (·.state) =
        some (.held .lineStop .none .waitBag) := by decide +kernel

/-- A BULK line needs its compartment, and a BAGGED one does not (R177, R178). -/
theorem test_order_line_without_compartment :
    lineInRange ⟨7, 0, 1000, 0, 0, none⟩ = false ∧ lineInRange ⟨7, 1, 1000, 0, 0, none⟩ = true := by decide

/-- A grind request's hold reason is coded by the list of R115, the mill's by that of R208 (R207). -/
theorem test_grind_reason_codes :
    [grindReasonCode .noFlow, grindReasonCode .noSource] = [0, 1] ∧
      [millReasonCode .noFlow, millReasonCode .noSource] = [6, 7] := by decide

/-- The end of a bag run ends its transfer first: what the resource brings to a waiting transfer, here a compartment dose on a TRUCK
channel that is not OK, comes before BAG_RUN_END (R80, R171, R187). -/
theorem test_bag_end_offers_its_resource_first :
    let t := trucking .loading (some 1) .loading [aLine .loading 0]
    let s := ((t.setBag { t.bag with queue := [aBagRun 1 .waitBag .button .button] }).setChan .truck
      { t.chan .truck with status := .uncalibrated }).setArb { t.arb with
        routes := [(1, ⟨[], [1]⟩)]
        transfers := [(1, ⟨.bagger, [⟨6, false, 1⟩], [], .flowing, [1], none, false, none⟩),
          (2, ⟨.loadout, [⟨7, false, 1⟩], [], .waiting, [], none, false, none⟩)]
        waiting := [2] }
    (after (.bagCancel 1 1) s).map (fun u => (u.router.waiting, u.arb.transfers.length)) =
      some ([.loadoutHeld 1 .scale .none, .bagRunEnd 1 .cancelled], 0) := by decide +kernel

/-- A choke ends its transfer first: what the resource brings to a waiting transfer comes before PRESSn_HELD (R80, R146). -/
theorem test_choke_offers_its_resource_first :
    let f := feeding .running aRun
    let t := trucking .loading (some 1) .loading [aLine .loading 0]
    let s := ((f.setBook t.book).setChan .truck { f.chan .truck with status := .uncalibrated }).setArb { f.arb with
      routes := [(1, ⟨[], [1]⟩)]
      transfers := [(1, ⟨.press1, [⟨5, false, 1⟩], [], .flowing, [1], none, false, none⟩),
        (2, ⟨.loadout, [⟨7, false, 1⟩], [], .waiting, [], none, false, none⟩)]
      waiting := [2] }
    (after (.pressChoke 1) s).map (fun u => (u.router.waiting, u.arb.transfers.length)) =
      some ([.loadoutHeld 1 .scale .none, .pressHeld .one .choke .none 4], 0) := by decide +kernel
end Sys2Proof.Tests
end

/-! PROOFS. Every request command is served, by a judge that leaves the reply queue to `serve`; so a request that is taken is
answered once (R3, R206, R210, R214). -/

namespace Sys2Proof.Machine

section

variable {s t : State}

/-! ### When a request is taken -/

theorem takes_of_full (c : Instr) (h : 4 ≤ s.link.replies.length) : s.takes c = false := by
  have hroom : s.replyRoom = false := decide_eq_false (Nat.not_lt.2 h)
  simp [State.takes, hroom]

theorem takes_of_other_frame {c : Instr} {f : Frame} {rest : List Frame} (hq : s.link.rxQueue = f :: rest)
    (hf : requestOf f ≠ some c) : s.takes c = false := by
  have hturn : s.turnOf c = false := by simp [State.turnOf, hq, hf]
  simp [State.takes, hturn]

theorem takes_of_room_and_turn {c : Instr} (h : s.link.replies.length < 4)
    (hturn : ∀ f rest, s.link.rxQueue = f :: rest → requestOf f = some c) : s.takes c = true := by
  rw [takes_eq (decide_eq_true h)]
  cases hq : s.link.rxQueue with
  | nil => exact turnOf_idle hq
  | cons f rest => simp [State.turnOf, hq, hturn f rest hq]

theorem replyTo_of_requestItems {c : Instr} {kind tag : Byte} {fields : List Item}
    (h : requestItems c = some (kind, tag, fields)) (code : ReplyCode) (index : Nat) (items : List Item) :
    replyTo c code index items = ⟨kind + 128, tag, code, index, items⟩ := by
  simp [replyTo, requestHead, h]

/-! ### Verdicts that leave the answering to `serve` -/

/-- A verdict whose answering is left to `serve`: only a refusal with a code other than OK names an index other than 0 (R210), and
an execution leaves the reply queue as it found it (R214). -/
def Verdict.WellAnswered (s : State) : Verdict → Prop
  | .refuse code index => code = .ok → index = 0
  | .accept r _ => r.1.link.replies = s.link.replies

namespace Verdict.WellAnswered

theorem refuse {code : ReplyCode} : (Verdict.refuse code 0).WellAnswered s := fun _ => rfl

theorem refuseAt {code : ReplyCode} (h : code ≠ .ok) (index : Nat) : (Verdict.refuse code index).WellAnswered s :=
  fun hok => absurd hok h

theorem accept {r : Result} {items : State → List Item} (h : r.1.link.replies = s.link.replies) :
    (Verdict.accept r items).WellAnswered s := h

theorem plain {items : List Item} (h : t.link.replies = s.link.replies) :
    (Sys2Proof.Machine.plain t items).WellAnswered s := h

/-- An execution that keeps the Link Port. -/
theorem keeps {r : Result} {items : State → List Item} (h : Sys2Proof.Machine.Keeps s r.1) :
    (Verdict.accept r items).WellAnswered s :=
  congrArg Link.replies h.link

theorem checked {v : Verdict} (h : v.WellAnswered s) :
    ∀ l : List (Bool × ReplyCode), (Sys2Proof.Machine.checked l v).WellAnswered s
  | [] => h
  | (true, _) :: l => checked h l
  | (false, _) :: _ => refuse

theorem withBin {b : Nat} {f : Bin → Verdict} (h : ∀ v, (f v).WellAnswered s) :
    (Sys2Proof.Machine.withBin s b f).WellAnswered s := by
  unfold Sys2Proof.Machine.withBin
  split
  · exact refuse
  · split
    · exact refuse
    · exact h _

theorem withBatch {n : Nat} {f : Batch → Verdict} (h : ∀ b, (f b).WellAnswered s) :
    (Sys2Proof.Machine.withBatch s n f).WellAnswered s := by
  unfold Sys2Proof.Machine.withBatch
  split
  · exact refuse
  · exact h _

theorem withGrind {n : Nat} {f : GrindRequest → Verdict} (h : ∀ r, (f r).WellAnswered s) :
    (Sys2Proof.Machine.withGrind s n f).WellAnswered s := by
  unfold Sys2Proof.Machine.withGrind
  split
  · exact refuse
  · exact h _

theorem withPress {n : Nat} {f : PressId → Verdict} (h : ∀ p, (f p).WellAnswered s) :
    (Sys2Proof.Machine.withPress n f).WellAnswered s := by
  unfold Sys2Proof.Machine.withPress
  split
  · exact refuse
  · exact h _

theorem withHead {f : BagRun → Verdict} (h : ∀ r, (f r).WellAnswered s) :
    (Sys2Proof.Machine.withHead s f).WellAnswered s := by
  unfold Sys2Proof.Machine.withHead
  split
  · exact refuse
  · exact h _

theorem withLine {o l : Nat} {f : Order → OrderLine → Verdict} (h : ∀ o l, (f o l).WellAnswered s) :
    (Sys2Proof.Machine.withLine s o l f).WellAnswered s := by
  unfold Sys2Proof.Machine.withLine
  split
  · exact refuse
  · split
    · exact refuse
    · split
      · exact refuse
      · exact h _ _

end Verdict.WellAnswered

/-! ### Served commands -/

/-- A command whose execution is `serve` with one judge, which leaves the answering to it. -/
def Served (c : Instr) (run : State → Host.Outcome State Fault Refusal) : Prop :=
  ∃ judge : State → Verdict, (∀ s, run s = serve c judge s) ∧ ∀ s, (judge s).WellAnswered s

theorem Served.of_judge {c : Instr} {run : State → Host.Outcome State Fault Refusal} {judge : State → Verdict}
    (he : ∀ s, run s = serve c judge s) (hj : ∀ s, (judge s).WellAnswered s) : Served c run := ⟨judge, he, hj⟩

theorem Served.untaken {c : Instr} {run : State → Host.Outcome State Fault Refusal} (hc : Served c run)
    (h : s.takes c = false) : run s = .next s := by
  obtain ⟨judge, he, -⟩ := hc
  rw [he, serve_full h]

/-- A served command that is taken ends in one reply more; what follows from its execution adds none (`Keeps.settle`). -/
theorem Served.taken {c : Instr} {run : State → Host.Outcome State Fault Refusal} (hc : Served c run)
    (h : s.takes c = true) (he : run s = .next t) :
    ∃ code index items, t.link.replies = s.link.replies ++ [replyTo c code index items] ∧
      (code ≠ .ok → items = [] ∧ t = answer (dropFrame s) (replyTo c code index [])) ∧ (code = .ok → index = 0) := by
  obtain ⟨judge, hserve, hj⟩ := hc
  have hv := hj (dropFrame s)
  rw [hserve] at he
  rcases serve_next he with ⟨hno, -⟩ | ⟨-, code, index, hr, rfl⟩ | ⟨-, r, items, u, ha, hu, rfl⟩
  · simp [h] at hno
  · rw [hr] at hv
    exact ⟨code, index, [], rfl, fun _ => ⟨rfl, rfl⟩, hv⟩
  · rw [ha] at hv
    have hlink : u.link = r.1.link := ((Keeps.refl r.1).settle hu).link
    have hreplies : u.link.replies = s.link.replies := by rw [hlink]; exact hv
    exact ⟨.ok, 0, items u, congrArg (· ++ _) hreplies, fun hok => absurd rfl hok, fun _ => rfl⟩

/-! ### The Link Port, the store and the Event Router -/

theorem execIdentify_served (tag : Byte) :
    Served (.identify tag) (execIdentify tag) :=
  .of_judge (fun _ => rfl) fun _ => .plain rfl

theorem execLinkStatus_served (tag : Byte) (clear : Nat) :
    Served (.linkStatus tag clear) (execLinkStatus tag clear) := by
  refine .of_judge (fun _ => rfl) fun s => ?_
  dsimp only
  split
  · exact .refuse
  · exact .plain rfl
  · exact .plain rfl

theorem execSettingsSave_served (tag : Byte) : Served (.settingsSave tag) (execSettingsSave tag) :=
  .of_judge (fun _ => rfl) fun _ => .checked (.plain rfl) _

theorem execRestart_served (tag : Byte) : Served (.restart tag) (execRestart tag) :=
  .of_judge (fun _ => rfl) fun _ => .checked (.plain rfl) _

theorem relevelNotice_link (s : State) (source level : Nat) : (relevelNotice s source level).link = s.link := by
  unfold relevelNotice
  split <;> rfl

theorem execSourceLevelSet_served (tag : Byte) (source level : Nat) :
    Served (.sourceLevelSet tag source level) (execSourceLevelSet tag source level) :=
  .of_judge (fun _ => rfl) fun _ => .checked (.plain (congrArg Link.replies (relevelNotice_link _ _ _))) _

theorem execFloorSet_served (tag : Byte) (floor : Nat) : Served (.floorSet tag floor) (execFloorSet tag floor) :=
  .of_judge (fun _ => rfl) fun _ => .checked (.plain rfl) _

theorem execSlotArm_served (tag : Byte) (fields : SlotFields) :
    Served (.slotArm tag fields) (execSlotArm tag fields) := by
  refine .of_judge (fun _ => rfl) fun s => ?_
  split
  · exact .refuse
  · exact .checked (.plain rfl) _

theorem execSlotDisarm_served (tag : Byte) (slot : Nat) : Served (.slotDisarm tag slot) (execSlotDisarm tag slot) :=
  .of_judge (fun _ => rfl) fun _ => .checked (.plain rfl) _

theorem execSlotRead_served (tag : Byte) :
    Served (.slotRead tag) (execSlotRead tag) :=
  .of_judge (fun _ => rfl) fun _ => .plain rfl

/-! ### The weighing channels -/

theorem execChannelSet_served (tag : Byte) (channel : Nat) (cfg : ChannelConfig) :
    Served (.channelSet tag channel cfg) (execChannelSet tag channel cfg) := by
  refine .of_judge (fun _ => rfl) fun s => ?_
  dsimp only
  split
  · exact .refuseAt (by decide) _
  · split
    · exact .refuseAt (by decide) _
    · exact .checked (.plain rfl) _

theorem execChannelRead_served (tag : Byte) (channel : Nat) :
    Served (.channelRead tag channel) (execChannelRead tag channel) := by
  refine .of_judge (fun _ => rfl) fun s => ?_
  split
  · exact .refuse
  · exact .plain rfl

theorem execZero_served (tag : Byte) (channel : Nat) : Served (.zero tag channel) (execZero tag channel) := by
  refine .of_judge (fun _ => rfl) fun s => ?_
  dsimp only
  split
  · exact .refuse
  · exact .checked (.plain rfl) _

theorem execCalSpan_served (tag : Byte) (channel mass : Nat) :
    Served (.calSpan tag channel mass) (execCalSpan tag channel mass) := by
  refine .of_judge (fun _ => rfl) fun s => ?_
  dsimp only
  split
  · exact .refuse
  · exact .checked (.plain rfl) _

theorem execInflightSet_served (tag : Byte) (bin value : Nat) :
    Served (.inflightSet tag bin value) (execInflightSet tag bin value) := by
  refine .of_judge (fun _ => rfl) fun s => ?_
  dsimp only
  split
  · exact .refuse
  · split
    · exact .refuse
    · split
      · exact .refuse
      · exact .plain rfl

/-! ### The Inventory Unit -/

theorem defineBin_link (s : State) (b : Nat) (d : BinDef) : (defineBin s b d).link = s.link := by
  have hfeeder (u : State) (f : Feeder) : (takeFeeder u f).link = u.link := ((Keeps.refl u).takeFeeder f).link
  unfold defineBin
  simp only
  split
  · split
    · rfl
    · exact (hfeeder _ _).trans (hfeeder _ _)
  · exact hfeeder _ _

theorem undefineBin_link (s : State) (b : Nat) : (undefineBin s b).link = s.link := by
  unfold undefineBin
  simp only
  split
  · exact ((Keeps.refl s).takeFeeder _).link
  · rfl

theorem judgeDefine_wellAnswered (b : Nat) (f : BinFields) (s : State) : (judgeDefine b f s).WellAnswered s := by
  unfold judgeDefine
  dsimp only
  split
  · split
    · exact .refuse
    · exact .checked (.accept (congrArg Link.replies (undefineBin_link _ _))) _
  · split
    · exact .refuseAt (by decide) _
    · split
      · exact .checked (.accept (congrArg Link.replies (defineBin_link _ _ _))) _
      · exact .refuse

theorem execBinDefine_served (tag : Byte) (bin : Nat) (fields : BinFields) :
    Served (.binDefine tag bin fields) (execBinDefine tag bin fields) :=
  .of_judge (fun _ => rfl) (judgeDefine_wellAnswered bin fields)

theorem execBinRead_served (tag : Byte) (bin : Nat) : Served (.binRead tag bin) (execBinRead tag bin) := by
  refine .of_judge (fun _ => rfl) fun s => ?_
  split
  · exact .refuse
  · split
    · exact .plain rfl
    · exact .plain rfl

theorem execBinCount_served (tag : Byte) (bin mass : Nat) (lotTag : Option Nat) :
    Served (.binCount tag bin mass lotTag) (execBinCount tag bin mass lotTag) := by
  refine .of_judge (fun _ => rfl) fun s => ?_
  split
  · exact .refuse
  · split
    · exact .refuse
    · next v hv =>
      split
      · exact .refuse
      · next hm =>
        refine .keeps ((Keeps.refl s).countBin _ _ _ fun w hw => ?_)
        obtain rfl : v = w := Option.some.inj (hv.symm.trans hw)
        omega

theorem execBinReceive_served (tag : Byte) (bin mass : Nat) :
    Served (.binReceive tag bin mass) (execBinReceive tag bin mass) := by
  refine .of_judge (fun _ => rfl) fun s => ?_
  dsimp only
  split
  · exact .refuse
  · refine .withBin fun v => ?_
    split
    · exact .refuse
    · exact .keeps ((Keeps.refl s).fill _ _ _)

theorem execBinLock_served (tag : Byte) (bin : Nat) : Served (.binLock tag bin) (execBinLock tag bin) :=
  .of_judge (fun _ => rfl) fun _ => .withBin fun _ => .accept rfl

theorem execBinUnlock_served (tag : Byte) (bin : Nat) : Served (.binUnlock tag bin) (execBinUnlock tag bin) :=
  .of_judge (fun _ => rfl) fun _ => .withBin fun _ => .accept rfl

theorem execReservationRead_served (tag : Byte) (form key age : Nat) :
    Served (.reservationRead tag form key age) (execReservationRead tag form key age) := by
  refine .of_judge (fun _ => rfl) fun s => ?_
  dsimp only
  split
  · split
    · exact .refuse
    · split
      · exact .refuse
      · exact .plain rfl
  · split
    · exact .withBin fun _ => .plain rfl
    · exact .refuse

/-! ### Plant I/O and the Route Arbiter -/

theorem execInputDefine_served (tag : Byte) (input polarity debounce type use : Nat) :
    Served (.inputDefine tag input polarity debounce type use) (execInputDefine tag input polarity debounce type use) := by
  refine .of_judge (fun _ => rfl) fun s => ?_
  split
  · exact .refuse
  · exact .checked (.plain rfl) _

theorem execOutputDefine_served (tag : Byte) (output role : Nat) :
    Served (.outputDefine tag output role) (execOutputDefine tag output role) :=
  .of_judge (fun _ => rfl) fun _ => .checked (.plain rfl) _

theorem execOutputSet_served (tag : Byte) (mask : Nat) : Served (.outputSet tag mask) (execOutputSet tag mask) :=
  .of_judge (fun _ => rfl) fun _ => .checked (.accept rfl) _

theorem execOutputClear_served (tag : Byte) (mask : Nat) : Served (.outputClear tag mask) (execOutputClear tag mask) :=
  .of_judge (fun _ => rfl) fun _ => .accept rfl

theorem execAnalogDefine_served (tag : Byte) (input : Nat) (bottom top : Int) :
    Served (.analogDefine tag input bottom top) (execAnalogDefine tag input bottom top) :=
  .of_judge (fun _ => rfl) fun _ => .checked (.plain rfl) _

theorem execAnalogSet_served (tag : Byte) (output value : Nat) :
    Served (.analogSet tag output value) (execAnalogSet tag output value) :=
  .of_judge (fun _ => rfl) fun _ => .checked (.plain rfl) _

theorem execIoRead_served (tag : Byte) : Served (.ioRead tag) (execIoRead tag) := .of_judge (fun _ => rfl) fun _ => .plain rfl

theorem execRouteDefine_served (tag : Byte) (route : Nat) (permissives : List PermissiveField) (resources : List Nat) :
    Served (.routeDefine tag route permissives resources) (execRouteDefine tag route permissives resources) :=
  .of_judge (fun _ => rfl) fun _ => .checked (.plain rfl) _

theorem execArbiterSet_served (tag : Byte) (permitTime : Tenths) :
    Served (.arbiterSet tag permitTime) (execArbiterSet tag permitTime) :=
  .of_judge (fun _ => rfl) fun _ => .checked (.plain rfl) _

theorem execResourceRead_served (tag : Byte) :
    Served (.resourceRead tag) (execResourceRead tag) :=
  .of_judge (fun _ => rfl) fun _ => .plain rfl

theorem bringLineStop_link (s : State) (cause : StopCause) : (bringLineStop s cause).1.link = s.link := by
  unfold bringLineStop
  split
  · rfl
  · exact (Keeps.foldl (fun u x => (Keeps.refl u).dropOutputs x) _ (Keeps.refl s)).link

theorem execLineStop_served (tag : Byte) : Served (.lineStop tag) (execLineStop tag) :=
  .of_judge (fun _ => rfl) fun _ => .accept (congrArg Link.replies (bringLineStop_link _ _))

theorem execLineResume_served (tag : Byte) : Served (.lineResume tag) (execLineResume tag) := by
  refine .of_judge (fun _ => rfl) fun s => ?_
  split
  · exact .plain rfl
  · exact .checked (.accept rfl) _

/-! ### The Batch Line -/

theorem execFormulaOpen_served (tag : Byte) (formula product mixTime : Nat) :
    Served (.formulaOpen tag formula product mixTime) (execFormulaOpen tag formula product mixTime) :=
  .of_judge (fun _ => rfl) fun _ => .checked (.plain rfl) _

theorem execFormulaStep_served (tag : Byte) (formula : Nat) (fields : StepFields) :
    Served (.formulaStep tag formula fields) (execFormulaStep tag formula fields) := by
  refine .of_judge (fun _ => rfl) fun s => ?_
  split
  · exact .refuse
  · split
    · exact .checked .refuse _
    · exact .checked (.plain rfl) _

/-- An entry that fails is named with one of the codes its examination gives. -/
theorem firstFailure_code {α : Type} {why : α → Option ReplyCode} {l : List α} {i n : Nat} {code : ReplyCode}
    (h : firstFailure why n l = some (i, code)) : ∃ e ∈ l, why e = some code := by
  induction l generalizing n with
  | nil => cases h
  | cons e l ih =>
    unfold firstFailure at h
    split at h
    · next hw => cases h; exact ⟨e, List.mem_cons_self, hw⟩
    · obtain ⟨x, hx, hcode⟩ := ih h
      exact ⟨x, List.mem_cons_of_mem _ hx, hcode⟩

theorem stepFailure_ne_ok (s : State) (e : FormulaStep) : stepFailure s e ≠ some .ok := by
  unfold stepFailure
  split
  · split <;> simp
  · split
    · simp
    · split
      · simp
      · split <;> simp

theorem execFormulaClose_served (tag : Byte) (formula : Nat) :
    Served (.formulaClose tag formula) (execFormulaClose tag formula) := by
  refine .of_judge (fun _ => rfl) fun s => ?_
  split
  · exact .checked .refuse _
  · refine .checked ?_ _
    split
    · exact .plain rfl
    · split
      · next i code hfail =>
        obtain ⟨e, -, hcode⟩ := firstFailure_code hfail
        exact .refuseAt (fun hok => stepFailure_ne_ok s e (hok ▸ hcode)) _
      · exact .plain rfl

theorem execFormulaRead_served (tag : Byte) (formula : Nat) :
    Served (.formulaRead tag formula) (execFormulaRead tag formula) :=
  .of_judge (fun _ => rfl) fun _ => .checked (.plain rfl) _

theorem execBatchlineSet_served (tag : Byte) (discharge release releaseTimeout : Tenths) :
    Served (.batchlineSet tag discharge release releaseTimeout) (execBatchlineSet tag discharge release releaseTimeout) :=
  .of_judge (fun _ => rfl) fun _ => .checked (.plain rfl) _

theorem stepBinFailure_ne_ok (s : State) (e : FormulaStep) : stepBinFailure s e ≠ some .ok := by
  unfold stepBinFailure
  split
  · simp
  · split
    · simp
    · split <;> simp

theorem smallStep_code {size i : Nat} {l : List FormulaStep} {code : ReplyCode} (h : smallStep s size l = some (i, code)) :
    code = .outOfRange := by
  obtain ⟨e, -, hcode⟩ := firstFailure_code h
  split at hcode
  · exact (Option.some.inj hcode).symm
  · cases hcode

theorem fullStep_code {size i : Nat} {code : ReplyCode} (l : List FormulaStep) : ∀ {n main micro : Nat},
    fullStep s size n main micro l = some (i, code) → code = .outOfRange := by
  induction l with
  | nil => intro n main micro h; cases h
  | cons e l ih =>
    intro n main micro h
    unfold fullStep at h
    dsimp only at h
    split_ifs at h
    · cases h; rfl
    · exact ih h
    · cases h; rfl
    · exact ih h

/-- The checks 6 to 8 of BATCH_QUEUE name a failing step with a code of refusal (R94). -/
theorem batchStepFailure_ne_ok {size i : Nat} {l : List FormulaStep} {code : ReplyCode}
    (h : (firstFailure (stepBinFailure s) 1 l).or ((smallStep s size l).or (fullStep s size 1 0 0 l)) = some (i, code)) :
    code ≠ .ok := by
  simp only [Option.or_eq_some_iff] at h
  rcases h with hbin | ⟨-, hsmall | ⟨-, hfull⟩⟩
  · obtain ⟨e, -, hcode⟩ := firstFailure_code hbin
    exact fun hok => stepBinFailure_ne_ok s e (hok ▸ hcode)
  · rw [smallStep_code hsmall]; decide
  · rw [fullStep_code l hfull]; decide

theorem createAll_link (claims : List (Nat × Holder × Nat)) : ∀ s : State, (createAll s claims).1.link = s.link := by
  induction claims with
  | nil => exact fun _ => rfl
  | cons c claims ih => exact fun s => ih _

theorem execBatchQueue_served (tag : Byte) (number formula size lotTag destination waitFlag : Nat) :
    Served (.batchQueue tag number formula size lotTag destination waitFlag)
      (execBatchQueue tag number formula size lotTag destination waitFlag) := by
  refine .of_judge (fun _ => rfl) fun s => ?_
  split
  · exact .refuse
  · refine .checked ?_ _
    split
    · exact .refuse
    · split
      · exact .refuse
      · split
        · exact .refuse
        · split
          · next hfail => exact .refuseAt (batchStepFailure_ne_ok hfail) _
          · split
            · exact .refuse
            · exact .accept (congrArg Link.replies (createAll_link _ s))

theorem execBatchRelease_served (tag : Byte) (number : Nat) :
    Served (.batchRelease tag number) (execBatchRelease tag number) :=
  .of_judge (fun _ => rfl) fun s => .checked (.withBatch fun _ => .checked (.keeps ((Keeps.refl s).putBatch _)) _) _

theorem execHandDone_served (tag : Byte) (number : Nat) : Served (.handDone tag number) (execHandDone tag number) :=
  .of_judge (fun _ => rfl) fun s => .withBatch fun _ => .checked (.keeps (Keeps.refl s).handReady) _

theorem execStepResume_served (tag : Byte) (number step action : Nat) :
    Served (.stepResume tag number step action) (execStepResume tag number step action) := by
  refine .of_judge (fun _ => rfl) fun s => ?_
  split
  · exact .refuse
  · refine .checked (.withBatch fun b => ?_) _
    split
    · exact .refuse
    · exact .checked (.keeps ((Keeps.refl s).resumeStep _ _ _ _)) _

theorem execBatchResume_served (tag : Byte) (number : Nat) :
    Served (.batchResume tag number) (execBatchResume tag number) := by
  refine .of_judge (fun _ => rfl) fun s => .withBatch fun b => ?_
  split
  · exact .checked .refuse _
  · exact .checked (.keeps ((Keeps.refl s).resumeMixer _ _)) _
  · exact .checked .refuse _

theorem execBatchCancel_served (tag : Byte) (number : Nat) :
    Served (.batchCancel tag number) (execBatchCancel tag number) :=
  .of_judge (fun _ => rfl) fun s => .withBatch fun _ => .checked (.keeps (((Keeps.refl s).closeAll _).dropBatch _)) _

theorem execBatchAbandon_served (tag : Byte) (number : Nat) :
    Served (.batchAbandon tag number) (execBatchAbandon tag number) := by
  refine .of_judge (fun _ => rfl) fun s => .withBatch fun b => .checked ?_ _
  split
  · exact .refuse
  · exact .keeps ((Keeps.refl s).abandonBatch _ _)

theorem execBatchRead_served (tag : Byte) (number : Nat) :
    Served (.batchRead tag number) (execBatchRead tag number) := by
  refine .of_judge (fun _ => rfl) fun s => ?_
  split
  · exact .plain rfl
  · exact .withBatch fun _ => .plain rfl

/-! ### The mill -/

theorem execGrindQueue_served (tag : Byte) (number source destination screen level : Nat) :
    Served (.grindQueue tag number source destination screen level)
      (execGrindQueue tag number source destination screen level) :=
  .of_judge (fun _ => rfl) fun _ => .checked (.accept rfl) _

theorem execGrindCancel_served (tag : Byte) (number : Nat) :
    Served (.grindCancel tag number) (execGrindCancel tag number) :=
  .of_judge (fun _ => rfl) fun s => .withGrind fun _ => .keeps ((Keeps.refl s).cancelGrind _)

theorem execGrindResume_served (tag : Byte) (number : Nat) :
    Served (.grindResume tag number) (execGrindResume tag number) :=
  .of_judge (fun _ => rfl) fun _ => .withGrind fun _ => .checked (.accept rfl) _

theorem execGrindArm_served (tag : Byte) (bin arming : Nat) :
    Served (.grindArm tag bin arming) (execGrindArm tag bin arming) := by
  refine .of_judge (fun _ => rfl) fun s => ?_
  dsimp only
  split
  · exact .refuse
  · split
    · exact .refuse
    · split
      · exact .refuse
      · exact .checked (.plain rfl) _

theorem execScreenFitted_served (tag : Byte) (screen : Nat) :
    Served (.screenFitted tag screen) (execScreenFitted tag screen) :=
  .of_judge (fun _ => rfl) fun _ => .checked (.accept rfl) _

theorem execMillSet_served (tag : Byte) (settings : MillSettings) :
    Served (.millSet tag settings) (execMillSet tag settings) :=
  .of_judge (fun _ => rfl) fun _ => .checked (.plain rfl) _

theorem execMillResume_served (tag : Byte) : Served (.millResume tag) (execMillResume tag) :=
  .of_judge (fun _ => rfl) fun s => .checked (.keeps (Keeps.refl s).resumeMill) _

theorem execMillStop_served (tag : Byte) : Served (.millStop tag) (execMillStop tag) :=
  .of_judge (fun _ => rfl) fun s => .keeps (Keeps.refl s).haltMill

theorem execMillRead_served (tag : Byte) :
    Served (.millRead tag) (execMillRead tag) :=
  .of_judge (fun _ => rfl) fun _ => .plain rfl

/-! ### The presses -/

theorem execProfileSet_served (tag : Byte) (profile : Nat) (fields : ProfileFields) :
    Served (.profileSet tag profile fields) (execProfileSet tag profile fields) := by
  refine .of_judge (fun _ => rfl) fun s => ?_
  dsimp only
  split
  · exact .checked (.plain rfl) _
  · split
    · exact .refuse
    · exact .checked (.plain rfl) _

theorem execProfileRead_served (tag : Byte) (profile : Nat) :
    Served (.profileRead tag profile) (execProfileRead tag profile) :=
  .of_judge (fun _ => rfl) fun _ => .checked (.plain rfl) _

theorem execPressSet_served (tag : Byte) (press : Nat) (fields : PressFields) :
    Served (.pressSet tag press fields) (execPressSet tag press fields) := by
  refine .of_judge (fun _ => rfl) fun s => .withPress fun p => ?_
  split
  · exact .refuse
  · exact .checked (.plain rfl) _

theorem execRunQueue_served (tag : Byte) (press : Nat) (run : RunFields) :
    Served (.runQueue tag press run) (execRunQueue tag press run) :=
  .of_judge (fun _ => rfl) fun _ => .withPress fun _ => .checked (.plain rfl) _

theorem execRunCancel_served (tag : Byte) (press number : Nat) :
    Served (.runCancel tag press number) (execRunCancel tag press number) := by
  refine .of_judge (fun _ => rfl) fun s => .withPress fun p => ?_
  dsimp only
  split
  · exact .plain rfl
  · split
    · exact .refuse
    · exact .refuse

theorem execPressStart_served (tag : Byte) (press : Nat) :
    Served (.pressStart tag press) (execPressStart tag press) := by
  refine .of_judge (fun _ => rfl) fun s => .withPress fun p => .checked ?_ _
  split
  · exact .refuse
  · split
    · exact .refuse
    · exact .keeps ((Keeps.refl s).startPress _ _)

theorem execPressResume_served (tag : Byte) (press : Nat) :
    Served (.pressResume tag press) (execPressResume tag press) := by
  refine .of_judge (fun _ => rfl) fun s => .withPress fun p => .checked ?_ _
  split
  · exact .refuse
  · exact .keeps ((Keeps.refl s).resumePress _)

theorem execPressStop_served (tag : Byte) (press : Nat) : Served (.pressStop tag press) (execPressStop tag press) := by
  refine .of_judge (fun _ => rfl) fun s => .withPress fun p => ?_
  split
  · exact .plain rfl
  · exact .keeps ((Keeps.refl s).pressStopNow _)

theorem execPressTrim_served (tag : Byte) (press : Nat) (rateTrim tempTrim : Int) :
    Served (.pressTrim tag press rateTrim tempTrim) (execPressTrim tag press rateTrim tempTrim) := by
  refine .of_judge (fun _ => rfl) fun s => .withPress fun p => ?_
  split
  · exact .refuse
  · exact .keeps (((Keeps.refl s).modPress _ _).writeSteam _ _)

theorem execChangeoverNow_served (tag : Byte) (press : Nat) :
    Served (.changeoverNow tag press) (execChangeoverNow tag press) :=
  .of_judge (fun _ => rfl) fun s => .withPress fun _ => .checked (.keeps ((Keeps.refl s).immediateSignal _)) _

theorem execPressRead_served (tag : Byte) (press : Nat) : Served (.pressRead tag press) (execPressRead tag press) :=
  .of_judge (fun _ => rfl) fun _ => .withPress fun _ => .plain rfl

/-! ### The Bagger Controller -/

theorem execBaggerSet_served (tag : Byte) (checkTime releaseTime : Tenths) :
    Served (.baggerSet tag checkTime releaseTime) (execBaggerSet tag checkTime releaseTime) :=
  .of_judge (fun _ => rfl) fun _ => .checked (.plain rfl) _

theorem execBagQueue_served (tag : Byte) (run : BagFields) : Served (.bagQueue tag run) (execBagQueue tag run) := by
  refine .of_judge (fun _ => rfl) fun s => ?_
  split
  · refine .checked ?_ _
    split
    · exact .refuse
    · exact .accept rfl
  · exact .refuse

theorem execBagRunStart_served (tag : Byte) : Served (.bagRunStart tag) (execBagRunStart tag) :=
  .of_judge (fun _ => rfl) fun s => .checked (.keeps (Keeps.refl s).commandStart) _

theorem execBagRunStop_served (tag : Byte) : Served (.bagRunStop tag) (execBagRunStop tag) :=
  .of_judge (fun _ => rfl) fun s => .withHead fun _ => .checked (.keeps ((Keeps.refl s).stopRun _)) _

theorem execBaggerResume_served (tag : Byte) : Served (.baggerResume tag) (execBaggerResume tag) := by
  refine .of_judge (fun _ => rfl) fun s => .checked (.withHead fun r => ?_) _
  split
  · exact .refuse
  · exact .keeps ((Keeps.refl s).resumeBag _)

theorem cancelHead_wellAnswered (s : State) (r : BagRun) : (cancelHead s r).WellAnswered s := by
  have hend : Keeps s (endBagRun s r .cancelled).1 := (Keeps.refl s).endBagRun _ _
  unfold cancelHead
  dsimp only
  split
  · exact .keeps ((Keeps.refl s).dropBagRun _ _)
  · exact .keeps hend
  · exact .keeps hend
  · split
    · exact .refuse
    · exact .keeps hend
  · exact .refuse

theorem execBagCancel_served (tag : Byte) (number : Nat) :
    Served (.bagCancel tag number) (execBagCancel tag number) := by
  refine .of_judge (fun _ => rfl) fun s => ?_
  split
  · exact .refuse
  · split
    · exact cancelHead_wellAnswered _ _
    · exact .keeps ((Keeps.refl s).dropBagRun _ _)

theorem execBaggerRead_served (tag : Byte) :
    Served (.baggerRead tag) (execBaggerRead tag) :=
  .of_judge (fun _ => rfl) fun _ => .plain rfl

/-! ### The Order Book and the Loadout -/

theorem execOrderEnter_served (tag : Byte) (number customer : Nat) (lines : List LineFields) :
    Served (.orderEnter tag number customer lines) (execOrderEnter tag number customer lines) := by
  refine .of_judge (fun _ => rfl) fun s => ?_
  dsimp only
  split
  · exact .refuse
  · split
    · exact .refuseAt (by decide) _
    · exact .checked (.plain rfl) _

theorem execLineAssign_served (tag : Byte) (order line bin : Nat) :
    Served (.lineAssign tag order line bin) (execLineAssign tag order line bin) := by
  refine .of_judge (fun _ => rfl) fun s => ?_
  dsimp only
  split
  · exact .refuse
  · refine .withLine fun o l => .checked ?_ _
    split
    · exact .refuse
    · next hclaim => exact .keeps (assignLine_keeps hclaim)

theorem execLineClose_served (tag : Byte) (order line : Nat) :
    Served (.lineClose tag order line) (execLineClose tag order line) :=
  .of_judge (fun _ => rfl) fun s => .withLine fun _ _ => .checked (.keeps ((Keeps.refl s).closeLine _ _ _)) _

theorem execOrderCancel_served (tag : Byte) (order : Nat) :
    Served (.orderCancel tag order) (execOrderCancel tag order) := by
  refine .of_judge (fun _ => rfl) fun s => ?_
  dsimp only
  split
  · exact .refuse
  · exact .checked (.keeps (((Keeps.refl s).closeAll _).dropOrder _)) _

theorem execTruckIn_served (tag : Byte) (order : Nat) (capacities : List Nat) :
    Served (.truckIn tag order capacities) (execTruckIn tag order capacities) := by
  refine .of_judge (fun _ => rfl) fun s => ?_
  split
  · exact .refuse
  · split
    · exact .refuse
    · refine .checked ?_ _
      split
      · exact .refuseAt (by decide) _
      · exact .plain rfl

theorem execSpoutReady_served (tag : Byte) : Served (.spoutReady tag) (execSpoutReady tag) := by
  refine .of_judge (fun _ => rfl) fun s => ?_
  split
  · exact .refuse
  · exact .keeps ((Keeps.refl s).startLoading _)

theorem execLoadoutResume_served (tag : Byte) (action : Nat) :
    Served (.loadoutResume tag action) (execLoadoutResume tag action) := by
  refine .of_judge (fun _ => rfl) fun s => ?_
  split
  · exact .refuse
  · refine .checked ?_ _
    split
    · exact .refuse
    · split
      · exact .checked (.keeps ((Keeps.refl s).startLoading _)) _
      · exact .keeps ((Keeps.refl s).acceptLoad _ _ _)

theorem sendTruck_link (s : State) (o : Order) (x : Truck) : (sendTruck s o x).1.link = s.link :=
  (((Keeps.refl s).closeAll o.claims).dropOrder o.number).link

theorem execTruckOut_served (tag : Byte) (force : Nat) : Served (.truckOut tag force) (execTruckOut tag force) := by
  refine .of_judge (fun _ => rfl) fun s => ?_
  dsimp only
  split
  · exact .refuse
  · split
    · exact .checked (.accept (congrArg Link.replies (sendTruck_link _ _ _))) _
    · exact .refuse

theorem execDispatchTake_served (tag : Byte) : Served (.dispatchTake tag) (execDispatchTake tag) := by
  refine .of_judge (fun _ => rfl) fun s => ?_
  dsimp only
  split
  · exact .refuse
  · exact .plain rfl

theorem execOrderRead_served (tag : Byte) (order : Nat) : Served (.orderRead tag order) (execOrderRead tag order) := by
  refine .of_judge (fun _ => rfl) fun s => ?_
  split
  · exact .plain rfl
  · split
    · exact .refuse
    · exact .plain rfl

/-! ### Every request -/

/-- A command that a request frame carries is served. -/
theorem served_of_requestItems {c : Instr} (h : requestItems c ≠ none) : Served c (exec c) := by
  cases c with
  | identify => exact execIdentify_served _
  | linkStatus => exact execLinkStatus_served _ _
  | settingsSave => exact execSettingsSave_served _
  | restart => exact execRestart_served _
  | channelSet => exact execChannelSet_served _ _ _
  | channelRead => exact execChannelRead_served _ _
  | zero => exact execZero_served _ _
  | calSpan => exact execCalSpan_served _ _ _
  | inflightSet => exact execInflightSet_served _ _ _
  | binDefine => exact execBinDefine_served _ _ _
  | binRead => exact execBinRead_served _ _
  | binCount => exact execBinCount_served _ _ _ _
  | binReceive => exact execBinReceive_served _ _ _
  | binLock => exact execBinLock_served _ _
  | binUnlock => exact execBinUnlock_served _ _
  | reservationRead => exact execReservationRead_served _ _ _ _
  | inputDefine => exact execInputDefine_served _ _ _ _ _ _
  | outputDefine => exact execOutputDefine_served _ _ _
  | outputSet => exact execOutputSet_served _ _
  | outputClear => exact execOutputClear_served _ _
  | analogDefine => exact execAnalogDefine_served _ _ _ _
  | analogSet => exact execAnalogSet_served _ _ _
  | ioRead => exact execIoRead_served _
  | routeDefine => exact execRouteDefine_served _ _ _ _
  | arbiterSet => exact execArbiterSet_served _ _
  | resourceRead => exact execResourceRead_served _
  | lineStop => exact execLineStop_served _
  | lineResume => exact execLineResume_served _
  | formulaOpen => exact execFormulaOpen_served _ _ _ _
  | formulaStep => exact execFormulaStep_served _ _ _
  | formulaClose => exact execFormulaClose_served _ _
  | formulaRead => exact execFormulaRead_served _ _
  | batchlineSet => exact execBatchlineSet_served _ _ _ _
  | batchQueue => exact execBatchQueue_served _ _ _ _ _ _ _
  | batchRelease => exact execBatchRelease_served _ _
  | handDone => exact execHandDone_served _ _
  | stepResume => exact execStepResume_served _ _ _ _
  | batchResume => exact execBatchResume_served _ _
  | batchCancel => exact execBatchCancel_served _ _
  | batchAbandon => exact execBatchAbandon_served _ _
  | batchRead => exact execBatchRead_served _ _
  | grindQueue => exact execGrindQueue_served _ _ _ _ _ _
  | grindCancel => exact execGrindCancel_served _ _
  | grindResume => exact execGrindResume_served _ _
  | grindArm => exact execGrindArm_served _ _ _
  | screenFitted => exact execScreenFitted_served _ _
  | millSet => exact execMillSet_served _ _
  | millResume => exact execMillResume_served _
  | millStop => exact execMillStop_served _
  | millRead => exact execMillRead_served _
  | profileSet => exact execProfileSet_served _ _ _
  | profileRead => exact execProfileRead_served _ _
  | pressSet => exact execPressSet_served _ _ _
  | runQueue => exact execRunQueue_served _ _ _
  | runCancel => exact execRunCancel_served _ _ _
  | pressStart => exact execPressStart_served _ _
  | pressResume => exact execPressResume_served _ _
  | pressStop => exact execPressStop_served _ _
  | pressTrim => exact execPressTrim_served _ _ _ _
  | changeoverNow => exact execChangeoverNow_served _ _
  | pressRead => exact execPressRead_served _ _
  | baggerSet => exact execBaggerSet_served _ _ _
  | bagQueue => exact execBagQueue_served _ _
  | bagRunStart => exact execBagRunStart_served _
  | bagRunStop => exact execBagRunStop_served _
  | baggerResume => exact execBaggerResume_served _
  | bagCancel => exact execBagCancel_served _ _
  | baggerRead => exact execBaggerRead_served _
  | orderEnter => exact execOrderEnter_served _ _ _ _
  | lineAssign => exact execLineAssign_served _ _ _ _
  | lineClose => exact execLineClose_served _ _ _
  | orderCancel => exact execOrderCancel_served _ _
  | truckIn => exact execTruckIn_served _ _ _
  | spoutReady => exact execSpoutReady_served _
  | loadoutResume => exact execLoadoutResume_served _ _
  | truckOut => exact execTruckOut_served _ _
  | dispatchTake => exact execDispatchTake_served _
  | orderRead => exact execOrderRead_served _ _
  | sourceLevelSet => exact execSourceLevelSet_served _ _ _
  | floorSet => exact execFloorSet_served _ _
  | slotArm => exact execSlotArm_served _ _
  | slotDisarm => exact execSlotDisarm_served _ _
  | slotRead => exact execSlotRead_served _
  | _ => exact absurd rfl h

end

/-- Settles O3: every request command is served (`served_of_requestItems`), and a served command that is taken ends in one reply
more (`Served.taken`). -/
theorem requestAnsweredOnceAndRefusalInert : Obligations.RequestAnsweredOnceAndRefusalInert := by
  intro c s kind tag fields hitems
  have hc : Served c (exec c) := served_of_requestItems (by simp [hitems])
  refine ⟨fun hfull => hc.untaken (takes_of_full c hfull),
    fun f rest hq hf => hc.untaken (takes_of_other_frame hq hf), fun t hroom hturn ht => ?_⟩
  obtain ⟨code, index, items, hreplies, hrefused, hok⟩ := hc.taken (takes_of_room_and_turn hroom hturn) ht
  simp only [replyTo_of_requestItems hitems] at hreplies hrefused
  exact ⟨code, index, items, hreplies, hrefused, hok⟩

end Sys2Proof.Machine

/-! PROOFS. Rounding (R4): the division rounds to the nearest integer, and an exact half away from zero. -/

namespace Sys2Proof.Machine

theorem rdivNat_zero (b : Nat) : rdivNat 0 b = 0 := by
  unfold rdivNat
  rcases Nat.eq_zero_or_pos b with rfl | hb
  · rfl
  · exact Nat.div_eq_of_lt (by omega)

/-- The multiple of `b` that the rounded quotient gives lies within half of `b`, and at half of `b` it is the upper one. -/
theorem rdivNat_mul_bounds (a : Nat) {b : Nat} (hb : 0 < b) :
    2 * (rdivNat a b * b) ≤ 2 * a + b ∧ 2 * a < 2 * (rdivNat a b * b) + b := by
  have hmod := Nat.mod_lt (2 * a + b) (show 0 < 2 * b by omega)
  have hdiv : 2 * (rdivNat a b * b) + (2 * a + b) % (2 * b) = 2 * a + b := by
    conv_rhs => rw [← Nat.div_add_mod (2 * a + b) (2 * b)]
    unfold rdivNat
    ring
  omega

theorem rdiv_natCast (a b : Nat) : rdiv (a : Int) b = (rdivNat a b : Int) := by simp [rdiv]

/-- The rounding is symmetric about zero. -/
theorem rdiv_neg (a : Int) (b : Nat) : rdiv (-a) b = -rdiv a b := by
  rcases lt_trichotomy a 0 with ha | rfl | ha
  · simp [rdiv, ha, ha.le]
  · simp [rdiv, rdivNat_zero]
  · simp [rdiv, ha, ha.le]

theorem rdiv_natCast_nearest (n : Nat) {b : Nat} (hb : 0 < b) :
    2 * ((n : Int) - rdiv n b * b).natAbs ≤ b ∧
      (2 * ((n : Int) - rdiv n b * b).natAbs = b → n ≤ (rdiv n b * b).natAbs) := by
  obtain ⟨hlow, hhigh⟩ := rdivNat_mul_bounds n hb
  rw [rdiv_natCast, ← Int.natCast_mul]
  omega

/-- Settles O18: by the bounds of the rounded multiple on the naturals, and by symmetry below zero. -/
theorem roundingIsToTheNearest : Obligations.RoundingIsToTheNearest := by
  intro a b hb
  obtain ⟨n, rfl | rfl⟩ := Int.eq_nat_or_neg a <;> obtain ⟨hnear, hhalf⟩ := rdiv_natCast_nearest n hb
  · exact ⟨hnear, hhalf, rdiv_neg _ _⟩
  · have herror : -(n : Int) - rdiv (-(n : Int)) b * b = -((n : Int) - rdiv n b * b) := by rw [rdiv_neg]; ring
    refine ⟨?_, ?_, rdiv_neg _ _⟩
    · rwa [herror, Int.natAbs_neg]
    · rwa [herror, Int.natAbs_neg, Int.natAbs_neg, rdiv_neg, neg_mul, Int.natAbs_neg]

end Sys2Proof.Machine

/-! PROOFS. The state after a full reset: every channel as R13 says, and, from a configuration within its bounds, a safe state
(R13, R34, R52, R74, R200, R213, R220). -/

namespace Sys2Proof.Machine

section

variable {c : Stored} {store : Store} {strapB strapA : Bool} {analogPins : Table Int} {pending : List Instr}

/-! ### Channels -/

/-- The configuration that a stored configuration has for a channel (R218). -/
def Stored.channel (c : Stored) : Scale → ChannelConfig
  | .main => c.main
  | .micro => c.micro
  | .bagger => c.bagger
  | .truck => c.truck

theorem booted_chan (sc : Scale) :
    (State.booted c store strapB strapA analogPins pending).chan sc = bootChannel (c.channel sc) := by
  cases sc <;> rfl

/-- The store's image is in force after a full reset, and the defaults are when there is none (R218, R220). -/
theorem fullReset_chan (s : State) (strapB strapA : Bool) (sc : Scale) :
    (fullReset s strapB strapA).chan sc = bootChannel ((s.store.image.getD defaultStored).channel sc) := by
  unfold fullReset
  cases s.store.image <;> exact booted_chan sc

/-- Settles O17: every channel is booted from its stored configuration, or from its default. -/
theorem channelsAfterFullReset : Obligations.ChannelsAfterFullReset := by
  intro s b a sc
  refine ⟨fullReset s b a, rfl, ?_⟩
  rw [fullReset_chan]
  refine ⟨?_, rfl, rfl, rfl, rfl, rfl, rfl⟩
  cases s.store.image <;> cases sc <;> rfl

/-! ### Safety -/

theorem bootLink_ok : (State.booted c store strapB strapA analogPins pending).LinkOk :=
  ⟨Nat.zero_le _, Nat.zero_le _, fun _ h => absurd h List.not_mem_nil, Nat.zero_le _, Nat.zero_le _, Nat.zero_le _, rfl⟩

theorem bootRouter_boundsOk (h : levelsOk c.levels) : (bootRouter c).BoundsOk :=
  ⟨h, Nat.zero_le _, fun _ h => absurd h List.not_mem_nil, fun _ h => absurd h List.not_mem_nil⟩

theorem bootInventory_get (b : Nat) : Table.get (bootInventory c).bins b =
    (Table.get c.bins b).map (fun d => bootBin d.cfg d.inflight) :=
  Table.get_map c.bins (fun d => bootBin d.cfg d.inflight) b

/-- No reservation is live after a full reset (R52). -/
theorem bootInventory_ledgerOk : (bootInventory c).LedgerOk :=
  ⟨fun _ h => absurd h List.not_mem_nil, List.nodup_nil, Nat.zero_le _, fun _ _ _ => Nat.zero_le _⟩

/-- Every bin is empty after a full reset (R34). -/
theorem bootInventory_stockOk (h : marksOk c.bins) : (bootInventory c).StockOk := by
  intro b v hv
  rw [bootInventory_get] at hv
  obtain ⟨d, hd, rfl⟩ := Option.map_eq_some_iff.1 hv
  exact ⟨Nat.zero_le _, h b d hd⟩

theorem bootArbiter_stopOk : (bootArbiter c).StopOk := fun h => absurd h Bool.false_ne_true

theorem bootArbiter_resourcesOk : (bootArbiter c).ResourcesOk := fun _ h => absurd h List.not_mem_nil

/-- A full reset with levels and marks within their bounds, in the configuration and in the store, leaves a safe state. -/
theorem booted_safe (hlevels : levelsOk c.levels) (hmarks : marksOk c.bins)
    (hstore : ∀ x, store.image = some x ∨ store.copy = some x → levelsOk x.levels ∧ marksOk x.bins) :
    (State.booted c store strapB strapA analogPins pending).Safe :=
  ⟨bootLink_ok, ⟨bootRouter_boundsOk hlevels, fun x hx => (hstore x hx).1⟩, bootInventory_ledgerOk,
    ⟨bootInventory_stockOk hmarks, fun x hx => (hstore x hx).2⟩, bootArbiter_stopOk, bootArbiter_resourcesOk⟩

/-- Settles O10: the first full reset takes the defaults, which list no level and no bin, and its store holds nothing. -/
theorem resetIsSafe : Obligations.ResetIsSafe := by
  intro l
  have hlevels : levelsOk defaultStored.levels := fun _ h => absurd h List.not_mem_nil
  have hmarks : marksOk defaultStored.bins := fun _ _ h => absurd h (Option.some_ne_none _).symm
  exact booted_safe (pending := l) hlevels hmarks fun x hx => by rcases hx with hx | hx <;> cases hx

end

end Sys2Proof.Machine

/-! PROOFS. The reading requests: each is answered OK from the state in which it is judged, and changes nothing (R15, R38, R59, R70,
R85, R91, R114, R133, R135, R159, R175, R192, R204). -/

namespace Sys2Proof.Machine

section

variable {s : State}

/-- A request that leaves every state with another Link Port as it is, and answers it by items. -/
theorem serve_reading {c : Instr} {judge : State → Verdict} {items : Link → List Item} (hroom : s.replyRoom = true)
    (hj : ∀ l : Link, judge (s.setLink l) = plain (s.setLink l) (items l)) :
    ∃ items, serve c judge s = accepted s c id items :=
  ⟨fun u => items u.link, serve_plainly (f := id) hroom hj⟩

theorem withBin_defined {b : Nat} {v : Bin} (f : Bin → Verdict) (hlow : 1 ≤ b) (hhigh : b ≤ Config.binCount)
    (hv : s.bin b = some v) : withBin s b f = f v := by
  unfold withBin
  rw [if_neg (by omega), hv]

theorem withBatch_live {n : Nat} {b : Batch} (f : Batch → Verdict) (hb : s.batch n = some b) : withBatch s n f = f b := by
  unfold withBatch
  rw [hb]

theorem withPress_of_pressOf {n : Nat} {p : PressId} (f : PressId → Verdict) (hp : pressOf n = some p) :
    withPress n f = f p := by
  unfold withPress
  rw [hp]

theorem execChannelRead_reads (tag : Byte) {n : Nat} {sc : Scale} (hroom : s.replyRoom = true) (hsc : scaleOf n = some sc) :
    ∃ items, execChannelRead tag n s = accepted s (.channelRead tag n) id items :=
  serve_reading hroom fun l => by simp only [hsc]; rfl

theorem execBinRead_reads (tag : Byte) {n : Nat} (hroom : s.replyRoom = true) (hlow : 1 ≤ n) (hhigh : n ≤ Config.binCount) :
    ∃ items, execBinRead tag n s = accepted s (.binRead tag n) id items := by
  have hrange : ¬(n = 0 ∨ Config.binCount < n) := by omega
  cases hv : s.bin n with
  | none => exact serve_reading hroom fun l => by simp only [if_neg hrange, State.setLink_bin, hv]; rfl
  | some v => exact serve_reading hroom fun l => by simp only [if_neg hrange, State.setLink_bin, hv]; rfl

theorem execReservationRead_reads_bin (tag : Byte) {n : Nat} (age : Nat) (hroom : s.replyRoom = true) (hlow : 1 ≤ n)
    (hhigh : n ≤ Config.binCount) (hbin : (s.bin n).isSome = true) :
    ∃ items, execReservationRead tag 1 n age s = accepted s (.reservationRead tag 1 n age) id items := by
  obtain ⟨v, hv⟩ := Option.isSome_iff_exists.1 hbin
  exact serve_reading hroom fun l => withBin_defined (s := s.setLink l) (fun _ => plain _ _) hlow hhigh hv

theorem execReservationRead_reads_id (tag : Byte) {n : Nat} (age : Nat) (hroom : s.replyRoom = true) (hlow : 1 ≤ n)
    (hhigh : n ≤ max16) (hres : (s.reservation n).isSome = true) :
    ∃ items, execReservationRead tag 0 n age s = accepted s (.reservationRead tag 0 n age) id items := by
  obtain ⟨r, hr⟩ := Option.isSome_iff_exists.1 hres
  have hrange : ¬(n = 0 ∨ max16 < n) := by omega
  exact serve_reading hroom fun l => by simp only [if_true, if_neg hrange, State.setLink_reservation, hr]; rfl

theorem execIoRead_reads (tag : Byte) (hroom : s.replyRoom = true) :
    ∃ items, execIoRead tag s = accepted s (.ioRead tag) id items := serve_reading hroom fun _ => rfl

theorem execResourceRead_reads (tag : Byte) (hroom : s.replyRoom = true) :
    ∃ items, execResourceRead tag s = accepted s (.resourceRead tag) id items := serve_reading hroom fun _ => rfl

theorem execFormulaRead_reads (tag : Byte) {n : Nat} (hroom : s.replyRoom = true) (hlow : 1 ≤ n)
    (hhigh : n ≤ Config.formulaCount) : ∃ items, execFormulaRead tag n s = accepted s (.formulaRead tag n) id items := by
  have hrange : formulaNumber n = true := decide_eq_true ⟨hlow, hhigh⟩
  exact serve_reading hroom fun l => by rw [hrange, checked_pass, checked_nil]

theorem execBatchRead_reads (tag : Byte) {n : Nat} (hroom : s.replyRoom = true) (hn : n = 0 ∨ (s.batch n).isSome = true) :
    ∃ items, execBatchRead tag n s = accepted s (.batchRead tag n) id items := by
  by_cases h0 : n = 0
  · exact serve_reading hroom fun l => if_pos h0
  · obtain ⟨b, hb⟩ := Option.isSome_iff_exists.1 (hn.resolve_left h0)
    exact serve_reading hroom fun l => (if_neg h0).trans (withBatch_live (s := s.setLink l) (fun _ => plain _ _) hb)

theorem execMillRead_reads (tag : Byte) (hroom : s.replyRoom = true) :
    ∃ items, execMillRead tag s = accepted s (.millRead tag) id items := serve_reading hroom fun _ => rfl

theorem execProfileRead_reads (tag : Byte) {n : Nat} (hroom : s.replyRoom = true) (hlow : 1 ≤ n)
    (hhigh : n ≤ Config.profileCount) : ∃ items, execProfileRead tag n s = accepted s (.profileRead tag n) id items := by
  have hrange : profileNumber n = true := decide_eq_true ⟨hlow, hhigh⟩
  exact serve_reading hroom fun l => by rw [hrange, checked_pass, checked_nil]

theorem execPressRead_reads (tag : Byte) {n : Nat} {p : PressId} (hroom : s.replyRoom = true) (hp : pressOf n = some p) :
    ∃ items, execPressRead tag n s = accepted s (.pressRead tag n) id items :=
  serve_reading hroom fun _ => withPress_of_pressOf (fun _ => plain _ _) hp

theorem execBaggerRead_reads (tag : Byte) (hroom : s.replyRoom = true) :
    ∃ items, execBaggerRead tag s = accepted s (.baggerRead tag) id items := serve_reading hroom fun _ => rfl

theorem execOrderRead_reads (tag : Byte) {n : Nat} (hroom : s.replyRoom = true) (hn : n = 0 ∨ (s.order n).isSome = true) :
    ∃ items, execOrderRead tag n s = accepted s (.orderRead tag n) id items := by
  by_cases h0 : n = 0
  · exact serve_reading hroom fun l => if_pos h0
  · obtain ⟨o, ho⟩ := Option.isSome_iff_exists.1 (hn.resolve_left h0)
    exact serve_reading hroom fun l => by simp only [if_neg h0, State.setLink_order, ho]; rfl

theorem execSlotRead_reads (tag : Byte) (hroom : s.replyRoom = true) :
    ∃ items, execSlotRead tag s = accepted s (.slotRead tag) id items := serve_reading hroom fun _ => rfl

/-- Settles O22: the checks of each request pass on its operands, whatever the Link Port holds, and it changes nothing. -/
theorem readsChangeNothing : Obligations.ReadsChangeNothing := by
  rintro s tag hroom c (⟨n, sc, rfl, hsc⟩ | ⟨n, rfl, hlow, hhigh⟩ | ⟨n, age, rfl, hlow, hhigh, hbin⟩ |
    ⟨n, age, rfl, hlow, hhigh, hres⟩ | rfl | rfl | ⟨n, rfl, hlow, hhigh⟩ | ⟨n, rfl, hn⟩ | rfl | ⟨n, rfl, hlow, hhigh⟩ |
    ⟨n, p, rfl, hp⟩ | rfl | ⟨n, rfl, hn⟩ | rfl)
  · exact execChannelRead_reads tag hroom hsc
  · exact execBinRead_reads tag hroom hlow hhigh
  · exact execReservationRead_reads_bin tag age hroom hlow hhigh hbin
  · exact execReservationRead_reads_id tag age hroom hlow hhigh hres
  · exact execIoRead_reads tag hroom
  · exact execResourceRead_reads tag hroom
  · exact execFormulaRead_reads tag hroom hlow hhigh
  · exact execBatchRead_reads tag hroom hn
  · exact execMillRead_reads tag hroom
  · exact execProfileRead_reads tag hroom hlow hhigh
  · exact execPressRead_reads tag hroom hp
  · exact execBaggerRead_reads tag hroom
  · exact execOrderRead_reads tag hroom hn
  · exact execSlotRead_reads tag hroom

end

end Sys2Proof.Machine

/-! PROOFS. How the updates of channels and feeders show in the readings, and the requests of the Weigh Unit on a
free channel (R14, R16, R18, R31). -/

namespace Sys2Proof.Machine

section

variable {s : State} {sc : Scale}

/-! ### Channels under updates -/

@[simp] theorem State.setChan_chan (s : State) (sc : Scale) (c : Channel) : (s.setChan sc c).chan sc = c := by
  cases sc <;> rfl
@[simp] theorem State.setChan_inv (s : State) (sc : Scale) (c : Channel) : (s.setChan sc c).inv = s.inv := rfl
@[simp] theorem State.setChan_line (s : State) (sc : Scale) (c : Channel) : (s.setChan sc c).line = s.line := rfl
@[simp] theorem State.setChan_book (s : State) (sc : Scale) (c : Channel) : (s.setChan sc c).book = s.book := rfl

@[simp] theorem State.setInv_chan (s : State) (v : Inventory) (sc : Scale) : (s.setInv v).chan sc = s.chan sc := rfl
@[simp] theorem State.takeOffered_chan (s : State) (e : PlantEvent) (sc : Scale) :
    (s.takeOffered e).chan sc = s.chan sc := rfl

@[simp] theorem State.askFeeder_chan (s : State) (b v : Nat) (sc : Scale) : (s.askFeeder b v).chan sc = s.chan sc := by
  rw [askFeeder_eq, State.setInv_chan]
@[simp] theorem State.askFeeder_line (s : State) (b v : Nat) : (s.askFeeder b v).line = s.line := by
  rw [askFeeder_eq, State.setInv_line]
@[simp] theorem State.askFeeder_book (s : State) (b v : Nat) : (s.askFeeder b v).book = s.book := by
  rw [askFeeder_eq, State.setInv_book]

/-! ### Requests on a free channel -/

theorem firstFailing_of_all {l : List Bool} (h : ∀ ok ∈ l, ok = true) : firstFailing (true :: l) = 0 := by
  have hnone : (true :: l).findIdx? (fun ok => !ok) = none := by
    rw [List.findIdx?_eq_none_iff]
    simpa using h
  simp [firstFailing, hnone]

theorem execChannelSet_accepted (tag : Byte) {channel : Nat} {cfg : ChannelConfig} (hroom : s.replyRoom = true)
    (hsave : s.saving = false) (hsc : scaleOf channel = some sc) (hfree : (s.chan sc).dose = none)
    (hcfg : ∀ ok ∈ channelChecks sc cfg, ok = true) :
    execChannelSet tag channel cfg s = accepted s (.channelSet tag channel cfg)
      (fun u => lowerInflights (u.setChan sc (configureChannel (u.chan sc) cfg)) sc cfg.fmax)
      (fun _ => [.u8 (loweredCount s sc cfg.fmax)]) :=
  serve_plainly hroom fun l => by
    simp only [hsc, firstFailing_of_all hcfg, State.setLink_chan, State.setLink_saving, hfree, hsave]
    rfl

theorem execZero_accepted (tag : Byte) {channel : Nat} (hroom : s.replyRoom = true) (hsave : s.saving = false)
    (hsc : scaleOf channel = some sc) (hfree : (s.chan sc).dose = none) (hzero : zeroAllowed (s.chan sc) = true) :
    execZero tag channel s = accepted s (.zero tag channel) (fun u => u.setChan sc (takeZero (u.chan sc)))
      (fun _ => [.i32 (meanCount (s.chan sc))]) :=
  serve_plainly hroom fun l => by
    simp only [hsc, State.setLink_chan, State.setLink_saving, hfree, hsave, hzero]
    rfl

theorem execZero_refused (tag : Byte) {channel : Nat} (hroom : s.replyRoom = true) (hsave : s.saving = false)
    (hsc : scaleOf channel = some sc) (hfree : (s.chan sc).dose = none) (hzero : zeroAllowed (s.chan sc) = false) :
    execZero tag channel s = refusedWith s (.zero tag channel) .wrongState 0 :=
  serve_refused hroom fun l => by
    simp only [hsc, State.setLink_chan, State.setLink_saving, hfree, hsave, hzero]
    rfl

theorem execCalSpan_accepted (tag : Byte) {channel mass : Nat} (hroom : s.replyRoom = true) (hsave : s.saving = false)
    (hsc : scaleOf channel = some sc) (hfree : (s.chan sc).dose = none) (hlow : 1 ≤ mass)
    (hhigh : mass ≤ (s.chan sc).cfg.capacity) (hstatus : (s.chan sc).status ≠ .converterFault)
    (hstable : (s.chan sc).stable = true) (hcount : 1000 ≤ meanCount (s.chan sc) - (s.chan sc).cfg.zero)
    (hspan : 1 ≤ newSpan (s.chan sc) mass ∧ newSpan (s.chan sc) mass ≤ 16777215) :
    execCalSpan tag channel mass s = accepted s (.calSpan tag channel mass)
      (fun u => u.setChan sc (takeSpan (u.chan sc) (newSpan (s.chan sc) mass)))
      (fun _ => [.u32 (newSpan (s.chan sc) mass)]) :=
  serve_plainly hroom fun l => by
    simp only [hsc, State.setLink_chan, State.setLink_saving, hfree, hsave, hlow, hhigh, hstatus, hstable, hcount, hspan,
      ne_eq, not_false_eq_true]
    rfl

theorem execInflightSet_accepted (tag : Byte) {bin value : Nat} {v : Bin} (hroom : s.replyRoom = true) (hlow : 1 ≤ bin)
    (hhigh : bin ≤ Config.binCount) (hvalue : value ≤ max32) (hv : s.bin bin = some v)
    (hsc : outletScale v.cfg.outlet = some sc) :
    execInflightSet tag bin value s = accepted s (.inflightSet tag bin value)
      (fun u => u.setBin bin { v with inflight := min value (s.chan sc).cfg.fmax })
      (fun _ => [.u32 (min value (s.chan sc).cfg.fmax), .u8 (flagCode (decide ((s.chan sc).cfg.fmax < value)))]) := by
  have hrange : ¬(bin = 0 ∨ Config.binCount < bin ∨ max32 < value) := by omega
  have hclamped : min value (s.chan sc).cfg.fmax < value ↔ (s.chan sc).cfg.fmax < value := by omega
  exact serve_plainly hroom fun l => by
    simp only [if_neg hrange, State.setLink_bin, hv, hsc, State.setLink_chan, hclamped]

theorem execInflightSet_refused (tag : Byte) {bin value : Nat} {v : Bin} (hroom : s.replyRoom = true) (hlow : 1 ≤ bin)
    (hhigh : bin ≤ Config.binCount) (hvalue : value ≤ max32) (hv : s.bin bin = some v)
    (hsc : outletScale v.cfg.outlet = none) :
    execInflightSet tag bin value s = refusedWith s (.inflightSet tag bin value) .wrongState 0 := by
  have hrange : ¬(bin = 0 ∨ Config.binCount < bin ∨ max32 < value) := by omega
  exact serve_refused hroom fun l => by simp only [if_neg hrange, State.setLink_bin, hv, hsc]

/-- Settles O19: each request passes its checks on a free channel, and takes the effect that the model names for it. -/
theorem channelRequests : Obligations.ChannelRequests := by
  refine ⟨fun s tag channel sc hroom hsave hsc hfree => ⟨?_, ?_, ?_, ?_⟩, ?_⟩
  · exact fun cfg hcfg => execChannelSet_accepted tag hroom hsave hsc hfree hcfg
  · exact fun hzero => execZero_accepted tag hroom hsave hsc hfree hzero
  · exact fun hzero => execZero_refused tag hroom hsave hsc hfree hzero
  · rintro mass span hlow hhigh hstatus hstable hcount rfl hmin hmax
    exact execCalSpan_accepted tag hroom hsave hsc hfree hlow hhigh hstatus hstable hcount ⟨hmin, hmax⟩
  · intro s tag bin value v hroom hlow hhigh hvalue hv
    exact ⟨fun sc hsc => execInflightSet_accepted tag hroom hlow hhigh hvalue hv hsc,
      fun hsc => execInflightSet_refused tag hroom hlow hhigh hvalue hv hsc⟩

end

end Sys2Proof.Machine

/-! PROOFS. A sample of a channel, and a dose at its cut-off, at its timers and at the operator's hand (R6 to R12, R20 to R25). -/

namespace Sys2Proof.Machine

section

variable {s : State} {sc : Scale} {c : Channel} {d : OpenDose} {channel : Nat} {count : Int} {valid : Bool}

/-! ### The channel after a sample -/

/-- A count at a converter limit is as invalid as one that the converter marks so (R11). -/
theorem sampleChannel_invalid (h : valid = false ∨ count ≤ -8388608 ∨ 8388607 ≤ count) :
    sampleChannel c count valid = ({ c with status := .converterFault, validRun := 0 }, false) := by
  unfold sampleChannel
  refine if_pos ?_
  simpa using h

theorem sampleChannel_entered (hlow : -8388608 < count) (hhigh : count < 8388607) (hstatus : c.status ≠ .converterFault) :
    sampleChannel c count true = (enterSample c count, true) := by
  have hvalid : ¬(count ≤ -8388608 ∨ 8388607 ≤ count) := by omega
  unfold sampleChannel
  rw [if_neg (by simpa using hvalid), if_neg hstatus]

/-! ### The users of a sample -/

/-- The users of a sample have nothing to judge while no batch discharges and the truck has its tare (R105, R185). -/
theorem judgeSample_idle (hbatch : ∀ b ∈ s.line.batches, b.state ≠ .discharging) (htruck : s.book.loadout.state ≠ .taring)
    (sc : Scale) : judgeSample s sc = (s, []) := by
  have hfind : s.line.batches.find? (fun b => decide (b.state = .discharging)) = none := by simpa using hbatch
  have hdischarge : ∀ x, judgeDischarge s x = (s, []) := fun x => by unfold judgeDischarge; rw [hfind]; rfl
  have htare : truckTare s = (s, []) := by
    unfold truckTare
    cases s.book.loadout.truck with
    | none => rfl
    | some t => exact if_neg fun h => htruck h.1
  cases sc with
  | main => exact hdischarge .main
  | micro => exact hdischarge .micro
  | bagger => rfl
  | truck => exact htare

theorem outcome_sampled (hbatch : ∀ b ∈ s.line.batches, b.state ≠ .discharging) (htruck : s.book.loadout.state ≠ .taring)
    (sc : Scale) : outcome (s, [.sampled sc]) = .next s :=
  outcome_of_settle (settle_inert (Nat.le_of_ble_eq_true rfl) fun t ht => by
    rw [List.mem_singleton.1 ht]
    exact judgeSample_idle hbatch htruck sc)

/-! ### Where the events of a channel go -/

theorem exec_channelSample (hsc : scaleOf channel = some sc) (count : Int) (valid : Bool) :
    exec (.channelSample channel count valid) s = outcome (takeSample s sc count valid) := by
  show execChannelSample channel count valid s = _
  simp only [execChannelSample, hsc]

theorem exec_tareTimeout (hsc : scaleOf channel = some sc) : exec (.tareTimeout channel) s = outcome (tareExpiry s sc) := by
  show execTareTimeout channel s = _
  simp only [execTareTimeout, hsc]

theorem exec_settleTimeout (hsc : scaleOf channel = some sc) :
    exec (.settleTimeout channel) s = outcome (settleExpiry s sc) := by
  show execSettleTimeout channel s = _
  simp only [execSettleTimeout, hsc]

theorem exec_jogTimeout (hsc : scaleOf channel = some sc) : exec (.jogTimeout channel) s = outcome (jogExpiry s sc) := by
  show execJogTimeout channel s = _
  simp only [execJogTimeout, hsc]

/-! ### A sample of a channel -/

/-- A sample without an open dose: the channel's new form, SCALE_FAULT when a fault status is new, and the users of the weight. -/
theorem takeSample_free (hfree : (s.chan sc).dose = none) (hc : (sampleChannel (s.chan sc) count valid).1 = c) :
    takeSample s sc count valid =
      (if c.status.isFault = true ∧ c.status ≠ (s.chan sc).status then (s.setChan sc c).raise (.scaleFault sc c.status)
        else s.setChan sc c, [.sampled sc]) := by
  subst hc
  simp only [takeSample, hfree, State.done, List.nil_append, Bool.and_eq_true, decide_eq_true_eq]

/-- A sample that enters the histories with status OK is the open dose's to judge (R21 to R26). -/
theorem takeSample_of_ok (hdose : (s.chan sc).dose = some d) (hc : sampleChannel (s.chan sc) count valid = (c, true))
    (hok : c.status = .ok) : takeSample s sc count valid =
      (doseSample (s.setChan sc c) sc d c.gross).andThen (fun t => (t, [.sampled sc])) := by
  simp only [takeSample, hdose, hc, hok, ChannelStatus.isFault, Bool.false_and, Bool.false_eq_true, if_false, if_true,
    Result.andThen]

/-- A sample that brings a fault status ends the open dose with the last OK mass (R12, R27). -/
theorem takeSample_of_fault {taken : Bool} {tare : Int} (hdose : (s.chan sc).dose = some d) (htare : d.tare = some tare)
    (hc : sampleChannel (s.chan sc) count valid = (c, taken)) (hfault : c.status.isFault = true)
    (hnew : c.status ≠ (s.chan sc).status) : takeSample s sc count valid =
      (endDose ((s.setChan sc c).raise (.scaleFault sc c.status)) sc d .scale ((s.chan sc).okGross - tare) none).andThen
        (fun t => (t, [.sampled sc])) := by
  simp only [takeSample, hdose, htare, hc, hfault, decide_eq_true hnew, Bool.and_self, if_true, Result.andThen]

/-- Settles O20: the free channel takes the sample (`takeSample_free`), and its users have nothing to judge. -/
theorem sampleOfAnIdleChannel : Obligations.SampleOfAnIdleChannel := by
  intro s channel sc count valid hsc hfree hbatch htruck
  refine ⟨fun c hc => ?_, sampleChannel_invalid, ?_⟩
  · rw [exec_channelSample hsc, takeSample_free hfree hc.symm]
    split
    · exact outcome_sampled (s := (s.setChan sc c).raise _) hbatch htruck sc
    · exact outcome_sampled (s := s.setChan sc c) hbatch htruck sc
  · rintro rfl hlow hhigh hstatus
    exact ⟨_, sampleChannel_entered hlow hhigh hstatus, rfl, rfl, rfl, rfl, rfl, rfl, hfree, rfl⟩

/-! ### The dose's feeder -/

theorem enterSettling_of_bin {b : Nat} {f : Feeder} (hb : d.order.bin = some b) (hf : d.order.feeder = some f) :
    enterSettling s sc d = ((s.askFeeder b 0).setChan sc { s.chan sc with
      dose := some { d with state := .settling, timer := some (s.chan sc).cfg.settleTime, nets := [] } }, []) := by
  simp only [enterSettling, askDoseFeeder, hb, hf, putDose, settleTimer, State.askFeeder_chan]

/-- A hand-add has no feeder to turn off (R25). -/
theorem enterSettling_of_hand (hb : d.order.bin = none) : enterSettling s sc d = (s.setChan sc { s.chan sc with
    dose := some { d with state := .settling, timer := some (s.chan sc).cfg.settleTime, nets := [] } }, []) := by
  simp only [enterSettling, askDoseFeeder, hb, putDose, settleTimer]

/-- The feeder goes on at a speed, and nothing further follows. -/
theorem outcome_feedOn_speed {b output speed : Nat} {state : DoseState} {timer : Option Tenths} {first : Option Int}
    (hb : d.order.bin = some b) (hf : d.order.feeder = some (.speed output)) :
    outcome (feedOn s sc d state speed timer first) = .next ((s.askFeeder b speed).setChan sc { s.chan sc with
      dose := some { d with state := state, timer := timer, nets := first.toList } }) := by
  simp only [feedOn, askDoseFeeder, feederDrive, hb, hf, putDose, State.askFeeder_chan, outcome_done]

/-! ### The cut-off -/

theorem doseSample_at_cutoff {tare f : Int} (hstate : d.state = .fast ∨ d.state = .slow) (htare : d.tare = some tare)
    (hcutoff : (d.order.target : Int) - d.order.inflight ≤ f - tare) : doseSample s sc d f = enterSettling s sc d := by
  rcases hstate with hstate | hstate <;> simp only [doseSample, hstate, htare, Option.getD_some, if_pos hcutoff]

/-! ### The tare -/

section tare

variable {tare : Int} {first : Option Int} {f : Feeder}

theorem takeTare_fast (hf : d.order.feeder = some f)
    (hfast : 0 < (d.order.target : Int) - d.order.inflight - d.order.slowBand) :
    takeTare s sc d tare first = feedOn s sc { d with tare := some tare } .fast d.order.fast none first := by
  simp only [takeTare, hf, Option.isNone_some, Bool.false_eq_true, if_false]
  rw [if_neg (by omega), if_neg (by omega)]

theorem takeTare_slow (hf : d.order.feeder = some f) (hcutoff : 0 < (d.order.target : Int) - d.order.inflight)
    (hslow : (d.order.target : Int) - d.order.inflight - d.order.slowBand ≤ 0) :
    takeTare s sc d tare first = feedOn s sc { d with tare := some tare } .slow d.order.slow none first := by
  simp only [takeTare, hf, Option.isNone_some, Bool.false_eq_true, if_false]
  rw [if_neg (by omega), if_pos hslow]

theorem takeTare_jog (hf : d.order.feeder = some f) (hcutoff : (d.order.target : Int) - d.order.inflight ≤ 0)
    (hjog : 1 ≤ d.order.jogLimit) : takeTare s sc d tare first =
      feedOn s sc { d with tare := some tare, jogs := 1 } .jogging d.order.slow (some d.order.jogTime) first := by
  simp only [takeTare, hf, Option.isNone_some, Bool.false_eq_true, if_false, if_pos hcutoff, if_pos hjog]

end tare

/-! ### The judgement -/

section judgement

variable {actual : Int} {mark : Settled} {first : Option Int}

theorem judgeDose_jog (hunder : actual - d.order.target < -(d.underTol : Int)) (hjogs : d.jogs < d.order.jogLimit) :
    judgeDose s sc d actual mark first =
      feedOn s sc { d with jogs := d.jogs + 1 } .jogging d.order.slow (some d.order.jogTime) first := by
  simp only [judgeDose, if_pos hunder, if_pos hjogs]

theorem judgeDose_under (hunder : actual - d.order.target < -(d.underTol : Int)) (hjogs : d.order.jogLimit ≤ d.jogs) :
    judgeDose s sc d actual mark first = endDose s sc d .underWeight actual (some mark) := by
  simp only [judgeDose, if_pos hunder, if_neg (Nat.not_lt.2 hjogs)]

theorem judgeDose_over (hunder : -(d.underTol : Int) ≤ actual - d.order.target)
    (hover : (d.overTol : Int) < actual - d.order.target) :
    judgeDose s sc d actual mark first = endDose s sc d .overWeight actual (some mark) := by
  simp only [judgeDose, if_neg (Int.not_lt.2 hunder), if_pos hover]

theorem judgeDose_accepted (hunder : -(d.underTol : Int) ≤ actual - d.order.target)
    (hover : actual - d.order.target ≤ d.overTol) :
    judgeDose s sc d actual mark first = endDose s sc d .accepted actual (some mark) := by
  simp only [judgeDose, if_neg (Int.not_lt.2 hunder), if_neg (Int.not_lt.2 hover)]

end judgement

/-! ### The timers and the hand -/

theorem netNow_of_dose {tare : Int} (hdose : c.dose = some d) (htare : d.tare = some tare) : netNow c = c.gross - tare := by
  simp only [netNow, hdose, htare]

theorem tareExpiry_taring (hdose : (s.chan sc).dose = some d) (hstate : d.state = .taring) :
    tareExpiry s sc = takeTare s sc d (s.chan sc).gross none := by
  simp only [tareExpiry, hdose, if_pos hstate]

theorem settleExpiry_settling {tare : Int} (hdose : (s.chan sc).dose = some d) (hstate : d.state = .settling)
    (htare : d.tare = some tare) : settleExpiry s sc = judgeDose s sc d ((s.chan sc).gross - tare) .timeout none := by
  simp only [settleExpiry, hdose, if_pos hstate, netNow_of_dose hdose htare]

theorem jogExpiry_jogging (hdose : (s.chan sc).dose = some d) (hstate : d.state = .jogging) :
    jogExpiry s sc = enterSettling s sc d := by
  simp only [jogExpiry, hdose, if_pos hstate]

theorem handReady_waiting (hdose : (s.chan .micro).dose = some d) (hstate : d.state = .handWait) :
    handReady s = enterSettling s .micro d := by
  simp only [handReady, hdose, if_pos hstate]

/-- Settles O21: each event reaches the open dose in its state, and the dose turns its feeder and goes on as the cut-off says. -/
theorem doseTimers : Obligations.DoseTimers := by
  intro s channel sc d hsc hdose
  refine ⟨?_, ?_, ?_, ?_, ?_⟩
  · intro b output count tare c hstate hb hf htare hc hok hcutoff hbatch htruck
    rw [exec_channelSample hsc, takeSample_of_ok hdose hc hok, doseSample_at_cutoff hstate htare hcutoff,
      enterSettling_of_bin hb hf, State.setChan_chan]
    exact outcome_sampled (by simpa using hbatch) (by simpa using htruck) sc
  · rintro b output cutoff hstate hb hf rfl
    rw [exec_tareTimeout hsc, tareExpiry_taring hdose hstate]
    refine ⟨fun hfast => ?_, fun hcutoff hslow => ?_, fun hcutoff hjog => ?_⟩
    · rw [takeTare_fast hf hfast]
      exact outcome_feedOn_speed hb hf
    · rw [takeTare_slow hf hcutoff hslow]
      exact outcome_feedOn_speed hb hf
    · rw [takeTare_jog hf hcutoff hjog]
      exact outcome_feedOn_speed hb hf
  · intro b output tare hstate hb hf htare hunder hjogs
    rw [exec_settleTimeout hsc, settleExpiry_settling hdose hstate htare, judgeDose_jog hunder hjogs]
    exact outcome_feedOn_speed hb hf
  · intro b output hstate hb hf
    rw [exec_jogTimeout hsc, jogExpiry_jogging hdose hstate, enterSettling_of_bin hb hf, outcome_done]
  · rintro rfl hstate hb
    show outcome (handReady (s.takeOffered .handAddButton)) = _
    rw [handReady_waiting (by exact hdose) hstate, enterSettling_of_hand hb, outcome_done, State.takeOffered_chan]

end

end Sys2Proof.Machine

/-! PROOFS. How a dose ends, and what its end draws, adapts and reports (R23, R26 to R30, R39, R41, R48, R54). -/

namespace Sys2Proof.Machine

section

variable {s : State} {sc : Scale} {d : OpenDose}

/-! ### What leads to the end -/

section endings

variable {f tare : Int}

theorem doseSample_settled (hstate : d.state = .settling) (htare : d.tare = some tare)
    (hstable : (s.chan sc).stable = true) :
    doseSample s sc d f = judgeDose s sc d (f - tare) .stability (some (f - tare)) := by
  simp only [doseSample, hstate, htare, hstable, Option.getD_some, if_true]

/-- A feed that the sample does not end goes to the stall watch (R22, R26). -/
theorem doseSample_feeding (htare : d.tare = some tare)
    (hfeed : d.state = .jogging ∨
      (d.state = .slow ∧ f - tare < (d.order.target : Int) - d.order.inflight) ∨
      (d.state = .fast ∧ f - tare < (d.order.target : Int) - d.order.inflight - d.order.slowBand)) :
    doseSample s sc d f = stallWatch s sc d (f - tare) := by
  rcases hfeed with hstate | ⟨hstate, hbelow⟩ | ⟨hstate, hbelow⟩
  · simp only [doseSample, hstate, htare, Option.getD_some]
  · simp only [doseSample, hstate, htare, Option.getD_some, if_neg (Int.not_le.2 hbelow)]
  · have hcutoff : f - tare < (d.order.target : Int) - d.order.inflight := by omega
    simp only [doseSample, hstate, htare, Option.getD_some, if_neg (Int.not_le.2 hbelow), if_neg (Int.not_le.2 hcutoff)]

/-- The three endings of a judgement (R23), with the tasks that follow it. -/
theorem outcome_judgeDose {actual : Int} {mark : Settled} {first : Option Int} (f : Result → Result) :
    (actual - d.order.target < -(d.underTol : Int) → d.order.jogLimit ≤ d.jogs →
      outcome (f (judgeDose s sc d actual mark first)) = outcome (f (endDose s sc d .underWeight actual (some mark)))) ∧
    (-(d.underTol : Int) ≤ actual - d.order.target → (d.overTol : Int) < actual - d.order.target →
      outcome (f (judgeDose s sc d actual mark first)) = outcome (f (endDose s sc d .overWeight actual (some mark)))) ∧
    (-(d.underTol : Int) ≤ actual - d.order.target → actual - d.order.target ≤ d.overTol →
      outcome (f (judgeDose s sc d actual mark first)) = outcome (f (endDose s sc d .accepted actual (some mark)))) :=
  ⟨fun hunder hjogs => by rw [judgeDose_under hunder hjogs], fun hunder hover => by rw [judgeDose_over hunder hover],
    fun hunder hover => by rw [judgeDose_accepted hunder hover]⟩

/-- With the net of a whole window ago at hand, a rise by less than the stall mass ends the dose (R26). -/
theorem stallWatch_stall {n old : Int} (hwindow : 0 < d.order.stallWindow)
    (hold : d.nets[5 * d.order.stallWindow - 1]? = some old) (hrise : n - old < (d.order.stallMass : Int)) :
    stallWatch s sc d n = endDose s sc d .stall n none := by
  have hoff : 0 < 5 * d.order.stallWindow := Nat.mul_pos (by decide) hwindow
  have hget : ((n :: d.nets).take (5 * d.order.stallWindow + 1))[5 * d.order.stallWindow]? = some old := by
    rw [List.getElem?_take_of_lt (Nat.lt_succ_self _), List.getElem?_cons, if_neg hoff.ne', hold]
  simp only [stallWatch, hget, if_pos (And.intro hoff hrise)]
  rfl

theorem endOpenDose_of_dose (hdose : (s.chan sc).dose = some d) (htare : d.tare = some tare) (ending : DoseEnding) :
    endOpenDose s sc ending = endDose s sc d ending ((s.chan sc).gross - tare) none := by
  simp only [endOpenDose, hdose, netNow_of_dose hdose htare]

/-- An owner whose dose runs under its transfer has it ended PERMIT when the transfer is aborted (R28, R79). -/
theorem tellAborted_of_dosing {o : Owner} (ho : ownerScale o = some sc) (hdose : (s.chan sc).dose = some d)
    (hreq : requesterOwner d.order.requester = o) (hbin : d.order.bin.isSome = true) :
    tellAborted s o = endOpenDose s sc .permit := by
  simp only [tellAborted, ownerDosing, ho, hdose, hreq, hbin, and_self, if_true]

end endings

/-! ### Blocks that a posting leaves alone -/

theorem foldl_raise_weigh {α : Type} (f : α → Event) (l : List α) :
    ∀ u : State, (l.foldl (fun u x => u.raise (f x)) u).weigh = u.weigh := by
  induction l with
  | nil => exact fun _ => rfl
  | cons x l ih => exact fun u => ih (u.raise (f x))

theorem foldl_raise_inv {α : Type} (f : α → Event) (l : List α) :
    ∀ u : State, (l.foldl (fun u x => u.raise (f x)) u).inv = u.inv := by
  induction l with
  | nil => exact fun _ => rfl
  | cons x l ih => exact fun u => ih (u.raise (f x))

theorem topUp_weigh (s : State) (b : Nat) : (topUp s b).1.weigh = s.weigh :=
  foldl_raise_weigh (fun id => Event.reservationFilled id b) _ _

theorem topUp_inv (s : State) (b : Nat) : (topUp s b).1.inv =
    { s.inv with reservations := (topUpFrom b (s.freeMass b) s.inv.reservations).1 } :=
  foldl_raise_inv (fun id => Event.reservationFilled id b) _ _

/-- The mark events of a posting are occurrences, and so change the router alone (R47). -/
theorem markEvents_router (s : State) (b before : Nat) (cause : LowCause) (clamped : Bool) :
    ∃ r, markEvents s b before cause clamped = s.setRouter r := by
  unfold markEvents
  cases s.bin b with
  | none => exact ⟨s.router, rfl⟩
  | some v =>
    dsimp only
    split_ifs <;> exact ⟨_, rfl⟩

theorem markEvents_inv (s : State) (b before : Nat) (cause : LowCause) (clamped : Bool) :
    (markEvents s b before cause clamped).inv = s.inv := by
  obtain ⟨r, hr⟩ := markEvents_router s b before cause clamped
  rw [hr, State.setRouter_inv]

theorem markEvents_weigh (s : State) (b before : Nat) (cause : LowCause) (clamped : Bool) :
    (markEvents s b before cause clamped).weigh = s.weigh := by
  obtain ⟨r, hr⟩ := markEvents_router s b before cause clamped
  rw [hr, State.setRouter_weigh]

theorem finishPosting_weigh (s : State) (b before : Nat) (topping : Bool) (cause : LowCause) (clamped : Bool) :
    (finishPosting s b before topping cause clamped).1.weigh = s.weigh := by
  unfold finishPosting
  cases s.bin b with
  | none => rfl
  | some v =>
    dsimp only
    rw [markEvents_weigh]
    split_ifs
    · exact topUp_weigh _ _
    · rfl

theorem finishPosting_bins (s : State) (b before : Nat) (topping : Bool) (cause : LowCause) (clamped : Bool) :
    (finishPosting s b before topping cause clamped).1.inv.bins = s.inv.bins := by
  unfold finishPosting
  cases s.bin b with
  | none => rfl
  | some v =>
    dsimp only
    rw [markEvents_inv]
    split_ifs
    · rw [topUp_inv]
      rfl
    · rfl

/-! ### What a reservation says apart from its held mass -/

/-- A reservation's id, bin, holder and wanted mass. -/
def Reservation.terms (r : Reservation) : Nat × Nat × Holder × Nat := (r.id, r.bin, r.holder, r.wanted)

theorem find_terms (l : List Reservation) (id : Nat) : (l.find? (fun r => decide (r.id = id))).map Reservation.terms =
    (l.map Reservation.terms).find? (fun x => decide (x.1 = id)) := by
  rw [List.find?_map]
  rfl

theorem giveBackFrom_terms (b : Nat) (l : List Reservation) : ∀ n,
    (giveBackFrom b n l).map Reservation.terms = l.map Reservation.terms := by
  induction l with
  | nil => exact fun _ => rfl
  | cons r l ih =>
    intro n
    simp only [giveBackFrom]
    split_ifs <;> simp only [List.map_cons, ih, Reservation.terms]

theorem giveBack_terms (b onHand : Nat) (l : List Reservation) :
    (giveBack b onHand l).map Reservation.terms = l.map Reservation.terms := by
  rw [giveBack, List.map_reverse, giveBackFrom_terms, List.map_reverse, List.reverse_reverse]

theorem topUpFrom_terms (b : Nat) (l : List Reservation) : ∀ n,
    (topUpFrom b n l).1.map Reservation.terms = l.map Reservation.terms := by
  induction l with
  | nil => exact fun _ => rfl
  | cons r l ih =>
    intro n
    simp only [topUpFrom]
    split_ifs <;> simp only [List.map_cons, ih, Reservation.terms]

/-- The reservation that is read under an id stays when others are filtered out. -/
theorem find_filter_of_find {l : List Reservation} {id : Nat} {r : Reservation} {p : Reservation → Bool}
    (h : l.find? (fun x => decide (x.id = id)) = some r) (hp : p r = true) :
    (l.filter p).find? (fun x => decide (x.id = id)) = some r := by
  obtain ⟨hid, before, after, rfl, hbefore⟩ := List.find?_eq_some_iff_append.1 h
  refine List.find?_eq_some_iff_append.2 ⟨hid, before.filter p, after.filter p, ?_, fun x hx => ?_⟩
  · rw [List.filter_append, List.filter_cons_of_pos hp]
  · exact hbefore x (List.mem_filter.1 hx).1

/-- Give-back and closing keep the terms of a reservation that still wants mass (R55, R58). -/
theorem find_closeEmpty_giveBack {l : List Reservation} {id b onHand : Nat} {r : Reservation}
    (h : l.find? (fun x => decide (x.id = id)) = some r) (hr : r.bin ≠ b ∨ r.wanted ≠ 0) :
    ((closeEmpty b (giveBack b onHand l)).find? (fun x => decide (x.id = id))).map Reservation.terms = some r.terms := by
  have hgiven : ((giveBack b onHand l).find? (fun x => decide (x.id = id))).map Reservation.terms = some r.terms := by
    rw [find_terms, giveBack_terms, ← find_terms, h, Option.map_some]
  obtain ⟨q, hq, hterms⟩ := Option.map_eq_some_iff.1 hgiven
  simp only [Reservation.terms, Prod.mk.injEq] at hterms
  obtain ⟨hid, hbin, hholder, hwanted⟩ := hterms
  rw [closeEmpty, find_filter_of_find hq (decide_eq_true (by rwa [hbin, hwanted]))]
  simp only [Option.map_some, Reservation.terms, hid, hbin, hholder, hwanted]

/-- A posting changes no terms of a reservation that still wants mass: it can close one that wants none, and give and take
held mass (R39, R55, R56, R58). -/
theorem finishPosting_reservation {id b : Nat} {r : Reservation} (h : s.reservation id = some r)
    (hr : r.bin ≠ b ∨ r.wanted ≠ 0) (before : Nat) (topping : Bool) (cause : LowCause) (clamped : Bool) :
    ((finishPosting s b before topping cause clamped).1.reservation id).map Reservation.terms = some r.terms := by
  unfold finishPosting
  cases s.bin b with
  | none => simp only [State.done, h, Option.map_some]
  | some v =>
    have hkept := find_closeEmpty_giveBack (onHand := v.onHand) h hr
    simp only [State.reservation, markEvents_inv]
    split_ifs
    · rw [topUp_inv, find_terms, topUpFrom_terms, ← find_terms]
      exact hkept
    · exact hkept

/-! ### A draw -/

theorem takeLots_zero (lots : List Lot) : takeLots 0 lots = (lots, []) := by
  cases lots with
  | nil => rfl
  | cons l ls => rfl

theorem find_chargeReservation (l : List Reservation) (id : Option Nat) (b x key : Nat) :
    (chargeReservation l id b x).find? (fun r => decide (r.id = key)) =
      (l.find? (fun r => decide (r.id = key))).map (fun r => if some r.id = id ∧ r.bin = b then
        { r with held := r.held - min x r.held, wanted := r.wanted - min x r.wanted } else r) := by
  rw [chargeReservation, List.find?_map]
  congr 2
  funext r
  simp only [Function.comp]
  split_ifs <;> rfl

section draw

variable {b : Nat} {v : Bin}

theorem draw_weigh (s : State) (b x : Nat) (id : Option Nat) : (draw s b x id).result.1.weigh = s.weigh := by
  unfold draw
  cases s.bin b with
  | none => rfl
  | some v => exact finishPosting_weigh _ _ _ _ _ _

/-- A draw takes its mass from the on-hand and from the oldest lots, as far as they go (R41, R49). -/
theorem draw_bin (hv : s.bin b = some v) (x : Nat) (id : Option Nat) : (draw s b x id).result.1.bin b =
    some { v with onHand := v.onHand - min x v.onHand, lots := (takeLots (min x v.onHand) v.lots).1 } := by
  simp only [draw, hv]
  simp only [State.bin, finishPosting_bins]
  exact Table.get_set_self _ _ _

/-- The wanted mass of the reservation a draw is charged to falls by the draw (R54). -/
theorem draw_reservation {r : Reservation} {x : Nat} (hv : s.bin b = some v) (hr : s.reservation r.id = some r)
    (hbin : r.bin = b) (hx : x < r.wanted) :
    ((draw s b x (some r.id)).result.1.reservation r.id).map Reservation.terms =
      some (r.id, r.bin, r.holder, r.wanted - x) := by
  have hwanted : r.wanted - min x r.wanted = r.wanted - x := by omega
  have hcharged : (chargeReservation s.inv.reservations (some r.id) b x).find? (fun y => decide (y.id = r.id)) =
      some { r with held := r.held - min x r.held, wanted := r.wanted - min x r.wanted } := by
    rw [find_chargeReservation, show s.inv.reservations.find? _ = some r from hr, Option.map_some,
      if_pos (And.intro rfl hbin)]
  simp only [draw, hv]
  refine Eq.trans (finishPosting_reservation (by exact hcharged) (Or.inr ?_) _ _ _ _) ?_
  · simp only; omega
  · simp only [Reservation.terms, hwanted]

end draw

/-! ### What the end of a dose does to bins and reservations -/

theorem State.modBin_bin {b : Nat} {v : Bin} (hv : s.bin b = some v) (f : Bin → Bin) :
    (s.modBin b f).bin b = some (f v) := by
  simp only [State.modBin, hv]
  exact Table.get_set_self _ _ _

/-- A change of a bin changes no block but the Inventory Unit, and no reservation of it. -/
theorem State.modBin_frame (s : State) (b : Nat) (f : Bin → Bin) :
    ∃ bins, s.modBin b f = s.setInv { s.inv with bins := bins } := by
  unfold State.modBin
  cases s.bin b with
  | none => exact ⟨s.inv.bins, rfl⟩
  | some v => exact ⟨_, rfl⟩

theorem askDoseFeeder_of_hand {o : DoseOrder} (hb : o.bin = none) (value : Nat) : askDoseFeeder s o value = s := by
  simp only [askDoseFeeder, hb]

theorem askDoseFeeder_frame (s : State) (o : DoseOrder) (value : Nat) :
    ∃ bins, askDoseFeeder s o value = s.setInv { s.inv with bins := bins } := by
  unfold askDoseFeeder
  split
  · exact State.modBin_frame _ _ _
  · exact ⟨s.inv.bins, rfl⟩

theorem askDoseFeeder_bin {o : DoseOrder} {b : Nat} {v : Bin} (hb : o.bin = some b) (hv : s.bin b = some v)
    (value : Nat) : ∃ ask, (askDoseFeeder s o value).bin b = some { v with feederAsk := ask } ∧
      (o.feeder.isSome = true → ask = value) := by
  cases hf : o.feeder with
  | none => exact ⟨v.feederAsk, by simp only [askDoseFeeder, hb, hf, hv], fun h => absurd h Bool.false_ne_true⟩
  | some f =>
    refine ⟨value, ?_, fun _ => rfl⟩
    simp only [askDoseFeeder, hb, hf]
    exact State.modBin_bin hv _

section dose

variable {b : Nat} {v : Bin} {actual : Int}

theorem doseDraw_of_hand (hb : d.order.bin = none) (actual : Int) : doseDraw s d actual = ⟨s.done, 0, [], []⟩ := by
  simp only [doseDraw, hb]

theorem doseDraw_weigh (s : State) (d : OpenDose) (actual : Int) : (doseDraw s d actual).result.1.weigh = s.weigh := by
  unfold doseDraw
  split
  · split_ifs
    · exact draw_weigh _ _ _ _
    · rfl
  · rfl

/-- The draw of a dose takes its actual, 0 for one below 0, from the bin (R29). -/
theorem doseDraw_bin (hb : d.order.bin = some b) (hv : s.bin b = some v) (actual : Int) :
    (doseDraw s d actual).result.1.bin b = some { v with
      onHand := v.onHand - min actual.toNat v.onHand, lots := (takeLots (min actual.toNat v.onHand) v.lots).1 } := by
  simp only [doseDraw, hb]
  split_ifs with hpos
  · exact draw_bin hv _ _
  · have hzero : actual.toNat = 0 := by omega
    simp only [hzero, Nat.zero_min, takeLots_zero, Nat.sub_zero, State.done, hv]

theorem reservation_of_claim {h : Holder} {id : Nat} {r : Reservation} (hr : s.claim h id = some r) :
    s.reservation id = some r := (Option.filter_eq_some_iff.1 hr).1

theorem doseClaim_of_claim {o : DoseOrder} {r : Reservation} (ho : o.reservation = some r.id)
    (hr : s.claim (requesterHolder o.requester) r.id = some r) : doseClaim s o = some r.id := by
  simp only [doseClaim, ho, Option.filter_some, hr, Option.isSome_some, if_true]

/-- The reservation that a dose draws by wants the actual less (R54). -/
theorem doseDraw_reservation {r : Reservation} (hb : d.order.bin = some b) (hv : s.bin b = some v)
    (ho : d.order.reservation = some r.id) (hr : s.claim (requesterHolder d.order.requester) r.id = some r)
    (hbin : r.bin = b) (hless : actual.toNat < r.wanted) :
    ((doseDraw s d actual).result.1.reservation r.id).map Reservation.terms =
      some (r.id, r.bin, r.holder, r.wanted - actual.toNat) := by
  simp only [doseDraw, hb, doseClaim_of_claim ho hr]
  split_ifs with hpos
  · exact draw_reservation hv (reservation_of_claim hr) hbin hless
  · have hzero : actual.toNat = 0 := by omega
    simp only [State.done, reservation_of_claim hr, Option.map_some, Reservation.terms, hzero, Nat.sub_zero]

end dose

/-! ### In-flight adaptation -/

/-- Whether the end of a dose adapts its bin's in-flight (R30). -/
abbrev doseAdapts (cfg : ChannelConfig) (d : OpenDose) (ending : DoseEnding) (actual : Int)
    (settled : Option Settled) : Prop :=
  ending = .accepted ∧ d.order.adapt = true ∧ d.jogs = 0 ∧ settled = some .stability ∧
    (actual - d.order.target).natAbs ≤ cfg.window

/-- The in-flight of a dose's bin after its end: an error that adapts it adds its share, within 0 and Fmax (R30). -/
def endInflight (cfg : ChannelConfig) (d : OpenDose) (ending : DoseEnding) (actual : Int) (settled : Option Settled)
    (inflight : Nat) : Nat :=
  if doseAdapts cfg d ending actual settled then
    (clampInt 0 cfg.fmax ((inflight : Int) + rdiv ((actual - d.order.target) * cfg.gain) 8)).toNat
  else inflight

theorem endInflight_cast (cfg : ChannelConfig) (d : OpenDose) (ending : DoseEnding) (actual : Int) (settled : Option Settled)
    (inflight : Nat) : (endInflight cfg d ending actual settled inflight : Int) =
      if doseAdapts cfg d ending actual settled then
        max 0 (min (cfg.fmax : Int) ((inflight : Int) + rdiv ((actual - d.order.target) * cfg.gain) 8))
      else inflight := by
  unfold endInflight
  split_ifs
  · exact Int.toNat_of_nonneg (le_max_left _ _)
  · rfl

/-- The state with the in-flight adapted, after an ACCEPTED dose (R30). -/
def adaptAfter (s : State) (sc : Scale) (d : OpenDose) (ending : DoseEnding) (actual : Int) (settled : Option Settled) :
    State :=
  if ending = .accepted then adaptInflight s sc d actual settled else s

section adaptation

variable {ending : DoseEnding} {actual : Int} {settled : Option Settled} {b : Nat} {v : Bin}

theorem adaptAfter_of_adapts (hb : d.order.bin = some b) (h : doseAdapts (s.chan sc).cfg d ending actual settled) :
    adaptAfter s sc d ending actual settled = s.modBin b (fun v => { v with
      inflight := (clampInt 0 (s.chan sc).cfg.fmax
        ((v.inflight : Int) + rdiv ((actual - d.order.target) * (s.chan sc).cfg.gain) 8)).toNat }) := by
  obtain ⟨haccepted, hqualifies⟩ := h
  simp only [adaptAfter, if_pos haccepted, adaptInflight, hb]
  exact if_pos hqualifies

theorem adaptAfter_of_not (h : ¬doseAdapts (s.chan sc).cfg d ending actual settled) :
    adaptAfter s sc d ending actual settled = s := by
  unfold adaptAfter
  split_ifs with haccepted
  · unfold adaptInflight
    split
    · rfl
    · exact if_neg fun hqualifies => h ⟨haccepted, hqualifies⟩
  · rfl

theorem adaptAfter_frame (s : State) (sc : Scale) (d : OpenDose) (ending : DoseEnding) (actual : Int)
    (settled : Option Settled) : ∃ bins, adaptAfter s sc d ending actual settled = s.setInv { s.inv with bins := bins } := by
  by_cases h : doseAdapts (s.chan sc).cfg d ending actual settled
  · cases hb : d.order.bin with
    | none =>
      refine ⟨s.inv.bins, ?_⟩
      simp only [adaptAfter, adaptInflight, hb, ite_self]
      rfl
    | some b =>
      rw [adaptAfter_of_adapts hb h]
      exact State.modBin_frame _ _ _
  · exact ⟨s.inv.bins, adaptAfter_of_not h⟩

theorem adaptAfter_bin (hb : d.order.bin = some b) (hv : s.bin b = some v) :
    (adaptAfter s sc d ending actual settled).bin b =
      some { v with inflight := endInflight (s.chan sc).cfg d ending actual settled v.inflight } := by
  unfold endInflight
  split_ifs with h
  · rw [adaptAfter_of_adapts hb h]
    exact State.modBin_bin hv _
  · rw [adaptAfter_of_not h, hv]

end adaptation

/-! ### The end of a dose -/

section ended

variable {ending : DoseEnding} {actual : Int} {settled : Option Settled} {b : Nat} {v : Bin}

/-- The state in which the end of a dose has turned the feeder off, posted the draw and adapted the in-flight (R29, R30). -/
def dosePosted (s : State) (sc : Scale) (d : OpenDose) (ending : DoseEnding) (actual : Int) (settled : Option Settled) :
    State :=
  adaptAfter (doseDraw (askDoseFeeder s d.order 0) d actual).result.1 sc d ending actual settled

/-- The report that the end of a dose writes (R29). -/
def endReport (d : OpenDose) (ending : DoseEnding) (actual : Int) (settled : Option Settled) : DoseReport :=
  ⟨d.order.requester, d.order.bin, ending, d.order.target, actual, d.tare, d.order.inflight, d.jogs, settled,
    if d.order.bin.isSome then actual.toNat else 0⟩

theorem endDose_state (s : State) (sc : Scale) (d : OpenDose) (ending : DoseEnding) (actual : Int)
    (settled : Option Settled) : (endDose s sc d ending actual settled).1 =
      (dosePosted s sc d ending actual settled).setChan sc { (dosePosted s sc d ending actual settled).chan sc with
        dose := none, report := some (endReport d ending actual settled) } := rfl

/-- The end of a hand-add leaves the Inventory Unit alone. -/
theorem dosePosted_of_hand (hb : d.order.bin = none) : dosePosted s sc d ending actual settled = s := by
  simp only [dosePosted, askDoseFeeder_of_hand hb, doseDraw_of_hand hb, State.done, adaptAfter, adaptInflight, hb, ite_self]

theorem dosePosted_bin (hb : d.order.bin = some b) (hv : s.bin b = some v) :
    ∃ ask, (dosePosted s sc d ending actual settled).bin b = some { v with
        onHand := v.onHand - min actual.toNat v.onHand
        lots := (takeLots (min actual.toNat v.onHand) v.lots).1
        inflight := endInflight (s.chan sc).cfg d ending actual settled v.inflight
        feederAsk := ask } ∧
      (d.order.feeder.isSome = true → ask = 0) := by
  obtain ⟨ask, hasked, hoff⟩ := askDoseFeeder_bin hb hv 0
  obtain ⟨bins, hframe⟩ := askDoseFeeder_frame s d.order 0
  have hchan : (doseDraw (askDoseFeeder s d.order 0) d actual).result.1.chan sc = s.chan sc := by
    rw [State.chan, doseDraw_weigh, hframe, State.setInv_weigh, State.chan]
  refine ⟨ask, ?_, hoff⟩
  rw [dosePosted, adaptAfter_bin hb (doseDraw_bin hb hasked actual), hchan]

theorem dosePosted_reservation {r : Reservation} (hb : d.order.bin = some b) (hv : s.bin b = some v)
    (ho : d.order.reservation = some r.id) (hr : s.claim (requesterHolder d.order.requester) r.id = some r)
    (hbin : r.bin = b) (hless : actual.toNat < r.wanted) :
    ((dosePosted s sc d ending actual settled).reservation r.id).map Reservation.terms =
      some (r.id, r.bin, r.holder, r.wanted - actual.toNat) := by
  obtain ⟨ask, hasked, -⟩ := askDoseFeeder_bin hb hv 0
  obtain ⟨bins, hfeeder⟩ := askDoseFeeder_frame s d.order 0
  obtain ⟨bins', hadapt⟩ := adaptAfter_frame (doseDraw (askDoseFeeder s d.order 0) d actual).result.1 sc d ending actual
    settled
  rw [dosePosted, hadapt]
  refine doseDraw_reservation hb hasked ho ?_ hbin hless
  rw [hfeeder]
  exact hr

end ended

/-- Settles O41: each event leads to `endDose` with its ending, and the end of a dose is the feeder off, the draw, the
adaptation and the report (`endDose_state`). -/
theorem doseEndings_hold : Obligations.DoseEndings := by
  refine ⟨fun s channel sc d tare hsc hdose htare => ⟨?_, ?_, ?_, ?_, ?_⟩, ?_⟩
  · rintro e hstate rfl
    rw [exec_settleTimeout hsc, settleExpiry_settling hdose hstate htare]
    exact outcome_judgeDose id
  · intro count c hc hok
    rw [exec_channelSample hsc, takeSample_of_ok hdose hc hok]
    refine ⟨?_, fun old hfeed hwindow hold hrise => ?_⟩
    · rintro e hstate hstable rfl
      rw [doseSample_settled hstate htare (by rwa [State.setChan_chan])]
      exact outcome_judgeDose fun r => r.andThen fun t => (t, [.sampled sc])
    · rw [doseSample_feeding htare hfeed, stallWatch_stall hwindow hold hrise]
  · intro count valid taken c hc hfault hnew
    rw [exec_channelSample hsc, takeSample_of_fault hdose htare hc hfault hnew]
  · exact endOpenDose_of_dose hdose htare .stopped
  · intro o ho hreq hbin
    exact (tellAborted_of_dosing ho hdose hreq hbin).trans (endOpenDose_of_dose hdose htare .permit)
  · intro s t sc d ending actual settled tasks hend
    obtain rfl : (endDose s sc d ending actual settled).1 = t := congrArg Prod.fst hend
    rw [endDose_state, State.setChan_chan, State.setChan_inv]
    refine ⟨rfl, rfl, fun hb => by rw [dosePosted_of_hand hb], fun b v hb hv => ⟨fun r ho hr hbin hless => ?_, ?_⟩⟩
    · obtain ⟨q, hq, hterms⟩ := Option.map_eq_some_iff.1 (dosePosted_reservation hb hv ho hr hbin hless)
      simp only [Reservation.terms, Prod.mk.injEq] at hterms
      exact ⟨q, hq, hterms.2.2.1, hterms.2.2.2⟩
    · obtain ⟨ask, hposted, hoff⟩ := dosePosted_bin (sc := sc) (ending := ending) (actual := actual) (settled := settled)
        hb hv
      exact ⟨_, hposted, rfl, rfl, rfl, hoff, endInflight_cast _ _ _ _ _ _⟩

end

end Sys2Proof.Machine

/-! PROOFS. SPOUT_READY and its button on an assigned line with a free path: the order and its line, the transfer that flows at
once, and the compartment dose that is presented under it (R19, R20, R75 to R78, R186). -/

namespace Sys2Proof.Machine

section

variable {s : State}

/-! ### The current line -/

theorem Order.line_putLine {o : Order} {i : Nat} {l : OrderLine} (h : o.line i = some l) (x : OrderLine) :
    (o.putLine i x).line i = some x := by
  unfold Order.line at h ⊢
  split_ifs at h ⊢ with h0
  obtain ⟨hlt, -⟩ := List.getElem?_eq_some_iff.1 h
  exact List.getElem?_set_self hlt

theorem State.order_putOrder {n : Nat} {o x : Order} (h : s.order n = some o) (hx : x.number = o.number) :
    (s.putOrder x).order n = some x := by
  have hnumber : ∀ y : Order, (if y.number = x.number then x else y).number = y.number := fun y => by
    split_ifs with hy
    · exact hy.symm
    · rfl
  have hfind : (s.book.orders.map (fun y => if y.number = x.number then x else y)).find? (fun y => decide (y.number = n)) =
      (s.book.orders.find? (fun y => decide (y.number = n))).map (fun y => if y.number = x.number then x else y) := by
    simp only [List.find?_map, Function.comp_def, hnumber]
  refine hfind.trans ?_
  rw [show s.book.orders.find? _ = some o from h, Option.map_some, if_pos hx.symm]

theorem currentLine_of {t : Truck} {o : Order} {i : Nat} {l : OrderLine} (ht : s.book.loadout.truck = some t)
    (ho : s.order t.order = some o) (hi : t.current = some i) (hl : o.line i = some l) : s.currentLine = some (o, i, l) := by
  simp only [State.currentLine, ht, ho, hi, hl]

theorem currentLine_inv {o : Order} {i : Nat} {l : OrderLine} (h : s.currentLine = some (o, i, l)) :
    ∃ t, s.book.loadout.truck = some t ∧ s.order t.order = some o ∧ t.current = some i ∧ o.line i = some l := by
  unfold State.currentLine at h
  split at h
  · next t ht =>
    split at h
    · next p j ho hi =>
      split at h
      · next m hl =>
        obtain ⟨rfl, rfl, rfl⟩ : p = o ∧ j = i ∧ m = l := by simpa using h
        exact ⟨t, ht, ho, hi, hl⟩
      · cases h
    · cases h
  · cases h

/-- The current line takes a new form at its place in its order. -/
theorem currentLine_putLine {u : State} {o : Order} {i : Nat} {l x : OrderLine} (h : s.currentLine = some (o, i, l))
    (horders : u.book.orders = (s.putOrder (o.putLine i x)).book.orders)
    (htruck : u.book.loadout.truck = s.book.loadout.truck) : u.currentLine = some (o.putLine i x, i, x) := by
  obtain ⟨t, ht, ho, hi, hl⟩ := currentLine_inv h
  have hput : (s.putOrder (o.putLine i x)).order t.order = some (o.putLine i x) := State.order_putOrder ho rfl
  refine currentLine_of (htruck.trans ht) ?_ hi (Order.line_putLine hl x)
  rwa [State.order, horders]

/-! ### A transfer whose path is free -/

theorem legResources_of_free {b route : Nat} {fills : Bool} (hroute : s.route route = ⟨[], []⟩) :
    s.legResources [⟨b, fills, route⟩] = [] := by
  simp only [State.legResources, List.flatMap_cons, List.flatMap_nil, hroute, List.append_nil, List.dedup_nil]

theorem failingPermissive_of_free {x : Transfer} {b route : Nat} {fills : Bool} (hx : x.legs = [⟨b, fills, route⟩])
    (hroute : s.route route = ⟨[], []⟩) : s.failingPermissive x = none := by
  simp only [State.failingPermissive, State.transferPermissives, hx, List.flatMap_cons, List.flatMap_nil, hroute,
    List.map_nil, List.append_nil, List.find?_nil]

theorem grantable_of_free {x : Transfer} {b route : Nat} {fills : Bool} (hx : x.legs = [⟨b, fills, route⟩])
    (hroute : s.route route = ⟨[], []⟩) : grantable s x = true := by
  rw [grantable, hx, legResources_of_free hroute, List.all_nil]

/-- A transfer that empties a bin, granted over a route without permissives and resources, flows at once and holds nothing (R76
to R78). -/
theorem grant_of_free {x : Transfer} {b route slot : Nat} (hx : x.legs = [⟨b, false, route⟩])
    (hroute : s.route route = ⟨[], []⟩) : grant s slot x =
      (putTransfer (s.setArb { s.arb with waiting := s.arb.waiting.erase slot }) slot
        { x with held := [], state := .flowing, timer := none }, [.ownerFlowing x.owner]) := by
  have hheld : s.legResources x.legs = [] := by rw [hx, legResources_of_free hroute]
  simp only [grant, hheld]
  rw [failingPermissive_of_free (b := b) (fills := false) (by exact hx) (by exact hroute)]
  simp only [Option.isNone_none, if_true, enterFlowing, hx]
  rfl

theorem freeSlot_of_empty (h : s.arb.transfers = []) : freeSlot s = 1 := by
  rw [freeSlot, h]
  rfl

/-- A request to empty a bin over such a route, into an empty table: it takes slot 1 and flows at once, and its owner is told
(R75). -/
theorem openTransfer_of_free {owner : Owner} {b route : Nat} {gates : List Role} (htransfers : s.arb.transfers = [])
    (hwaiting : s.arb.waiting = []) (hroute : s.route route = ⟨[], []⟩) :
    openTransfer s owner [⟨b, false, route⟩] gates = (s.setArb { s.arb with
      transfers := [(1, ⟨owner, [⟨b, false, route⟩], gates, .flowing, [], none, false, none⟩)], waiting := [] },
      [.ownerFlowing owner]) := by
  have howned : s.transferOf owner = none := by rw [State.transferOf, htransfers, List.find?_nil]
  simp only [openTransfer, howned, freeSlot_of_empty htransfers]
  rw [if_pos (grantable_of_free (by rfl) (by exact hroute)), grant_of_free (by rfl) (by exact hroute)]
  simp only [putTransfer, State.setArb_arb, htransfers, hwaiting]
  rfl

theorem transferRefusal_of_free {owner : Owner} {b route : Nat} {v : Bin} (hstop : s.stopped = false)
    (htransfers : s.arb.transfers = []) (hv : s.bin b = some v) (hlocked : v.locked = false) :
    transferRefusal s owner [⟨b, false, route⟩] = none := by
  have howned : s.hasTransfer owner = false := by simp only [State.hasTransfer, State.transferOf, htransfers, List.find?_nil]
  simp [transferRefusal, hstop, howned, hv, hlocked]

/-! ### A dose order at a free channel -/

/-- The open dose that a dose order becomes (R20). -/
def presentedDose (cfg : ChannelConfig) (o : DoseOrder) : OpenDose where
  order := o
  state := .taring
  underTol := max o.underTol (2 * cfg.division)
  overTol := max o.overTol (2 * cfg.division)
  tare := none
  jogs := 0
  timer := some cfg.settleTime
  nets := []

theorem presentDose_of_free {sc : Scale} (hfree : (s.chan sc).dose = none) (hok : (s.chan sc).status = .ok) (o : DoseOrder) :
    (presentDose s sc o).result =
      (s.setChan sc { s.chan sc with dose := some (presentedDose (s.chan sc).cfg o) }, []) := by
  simp only [presentDose, hfree, hok, Option.isSome_none, Bool.false_eq_true, if_false, ne_eq, not_true_eq_false]
  rfl

/-! ### The start of loading -/

/-- The loadout waits at the spout on a line whose path is free (R186). -/
structure SpoutFree (s : State) (o : Order) (i b : Nat) (l : OrderLine) (v : Bin) : Prop where
  running : s.stopped = false
  waits : s.book.loadout.state = .spoutWait
  current : s.currentLine = some (o, i, l)
  assigned : l.bin = some b
  defined : s.bin b = some v
  unlocked : v.locked = false
  held : l.remaining ≤ s.heldBy (.orderLine o.number i) l.reservation
  target : 0 < loadTarget s l
  transfers : s.arb.transfers = []
  waiting : s.arb.waiting = []
  route : s.route v.cfg.outletRoute = ⟨[], []⟩
  free : (s.chan .truck).dose = none
  ok : (s.chan .truck).status = .ok

variable {o : Order} {i b : Nat} {l : OrderLine} {v : Bin}

theorem SpoutFree.setLink (h : SpoutFree s o i b l v) (k : Link) : SpoutFree (s.setLink k) o i b l v :=
  ⟨h.running, h.waits, h.current, h.assigned, h.defined, h.unlocked, h.held, h.target, h.transfers, h.waiting, h.route,
    h.free, h.ok⟩

theorem SpoutFree.takeOffered (h : SpoutFree s o i b l v) (e : PlantEvent) : SpoutFree (s.takeOffered e) o i b l v :=
  ⟨h.running, h.waits, h.current, h.assigned, h.defined, h.unlocked, h.held, h.target, h.transfers, h.waiting, h.route,
    h.free, h.ok⟩

theorem SpoutFree.not_refused (h : SpoutFree s o i b l v) : spoutRefusal s = none := by
  simp only [spoutRefusal, h.running, h.waits, h.current, Nat.not_lt.2 h.held, Bool.false_eq_true, if_false, ne_eq,
    not_true_eq_false]

/-- The line that is being loaded. -/
def loadingLine (l : OrderLine) : OrderLine := { l with status := .loading }

/-- The state in which the current line is being loaded and its transfer flows (R186). -/
def loadingFlows (s : State) (o : Order) (i b : Nat) (l : OrderLine) (v : Bin) : State :=
  ((s.putOrder (o.putLine i (loadingLine l))).setLoadout { s.book.loadout with
    state := .loading, retrying := false, clipped := decide (loadTarget s l < l.remaining) }).setArb { s.arb with
      transfers := [(1, ⟨.loadout, [⟨b, false, v.cfg.outletRoute⟩], [], .flowing, [], none, false, none⟩)], waiting := [] }

theorem SpoutFree.startLoading (h : SpoutFree s o i b l v) :
    startLoading s false = (loadingFlows s o i b l v, [.ownerFlowing .loadout]) := by
  have hlegs : ∀ u : State, u.inv = s.inv → loadLegs u l = [⟨b, false, v.cfg.outletRoute⟩] := fun u hu => by
    have hbin : u.bin b = some v := by rw [State.bin, hu]; exact h.defined
    simp only [loadLegs, h.assigned, Option.getD_some, hbin, Option.map_some]
  simp only [Sys2Proof.Machine.startLoading, h.current, if_neg h.target.ne']
  rw [hlegs ((s.putOrder _).setLoadout _) rfl,
    transferRefusal_of_free (s := (s.putOrder _).setLoadout _) h.running h.transfers h.defined h.unlocked]
  exact openTransfer_of_free h.transfers h.waiting h.route

/-- The dose order of the current line (R19, R186). -/
def loadOrder (s : State) (o : Order) (i b : Nat) (l : OrderLine) (v : Bin) : DoseOrder :=
  binOrder v (.loadout o.number i) (loadTarget s l) l.underTol l.overTol b l.reservation v.cfg.jogLimit
    (decide (l.delivered = 0 ∧ loadTarget s l = l.remaining))

/-- The state in which the compartment dose is open on TRUCK (R20, R186). -/
def loadingDosed (s : State) (o : Order) (i b : Nat) (l : OrderLine) (v : Bin) : State :=
  (loadingFlows s o i b l v).setChan .truck { s.chan .truck with
    dose := some (presentedDose (s.chan .truck).cfg (loadOrder s o i b l v)) }

theorem SpoutFree.currentLine_loadingFlows (h : SpoutFree s o i b l v) : (loadingFlows s o i b l v).currentLine =
    some (o.putLine i (loadingLine l), i, loadingLine l) :=
  currentLine_putLine h.current rfl rfl

/-- Word that the transfer flows presents the compartment dose (R78, R186). -/
theorem SpoutFree.presentLoad (h : SpoutFree s o i b l v) :
    presentLoad (loadingFlows s o i b l v) = (loadingDosed s o i b l v, []) := by
  have hassigned : (loadingLine l).bin.getD 0 = b := by
    rw [show (loadingLine l).bin = some b from h.assigned, Option.getD_some]
  have hbin : (loadingFlows s o i b l v).bin b = some v := h.defined
  have hflows : (loadingFlows s o i b l v).book.loadout.state = .loading ∧
      (loadingFlows s o i b l v).flowing .loadout = true ∧ ((loadingFlows s o i b l v).chan .truck).dose = none :=
    ⟨rfl, rfl, h.free⟩
  simp only [Sys2Proof.Machine.presentLoad, h.currentLine_loadingFlows, hassigned, hbin]
  rw [if_pos hflows]
  exact presentDose_of_free (s := (loadingFlows s o i b l v).setLoadout _) h.free h.ok _

/-- All that follows from the start of loading: the transfer flows, and the dose is open. -/
theorem SpoutFree.settle (h : SpoutFree s o i b l v) :
    Sys2Proof.Machine.settle (Sys2Proof.Machine.startLoading s false) = some (loadingDosed s o i b l v) := by
  rw [h.startLoading, Sys2Proof.Machine.settle, show Config.cascadeBound = 19999 + 1 from rfl, runTasks_cons,
    show handle (.ownerFlowing .loadout) _ = _ from h.presentLoad]
  exact runTasks_nil _ _

/-- The compartment dose that is open on TRUCK (R19, R20, R186). -/
theorem loadingDosed_dose (s : State) (o : Order) (i b : Nat) (l : OrderLine) (v : Bin) :
    ∃ d, ((loadingDosed s o i b l v).chan .truck).dose = some d ∧ d.state = .taring ∧
      d.order.requester = .loadout o.number i ∧ d.order.target = loadTarget s l ∧ d.order.bin = some b ∧
      d.order.reservation = l.reservation ∧ d.order.inflight = v.inflight ∧
      d.underTol = max l.underTol (2 * (s.chan .truck).cfg.division) ∧
      d.overTol = max l.overTol (2 * (s.chan .truck).cfg.division) ∧ d.timer = some (s.chan .truck).cfg.settleTime ∧
      d.order.adapt = (decide (l.delivered = 0) && decide (loadTarget s l = l.remaining)) :=
  ⟨_, rfl, rfl, rfl, rfl, rfl, rfl, rfl, rfl, rfl, rfl, Bool.decide_and _ _⟩

theorem SpoutFree.exec_button (h : SpoutFree s o i b l v) :
    exec .spoutReadyButtonPress s = .next (loadingDosed (s.takeOffered .spoutReadyButton) o i b l v) := by
  have hfree := h.takeOffered .spoutReadyButton
  show outcome (spoutButton (s.takeOffered .spoutReadyButton)) = _
  rw [spoutButton, hfree.not_refused]
  exact outcome_of_settle hfree.settle

theorem SpoutFree.exec_request (h : SpoutFree s o i b l v) {tag : Byte} (htakes : s.takes (.spoutReady tag) = true) :
    exec (.spoutReady tag) s = .next (answer (loadingDosed (dropFrame s) o i b l v) (replyTo (.spoutReady tag) .ok 0
      [.u32 (loadTarget s l), .u8 (flagCode (decide (loadTarget s l < l.remaining)))])) := by
  have hfree : SpoutFree (dropFrame s) o i b l v := h.setLink _
  have hitems : spoutItems (dropFrame s) =
      [.u32 (loadTarget s l), .u8 (flagCode (decide (loadTarget s l < l.remaining)))] := by
    simp only [spoutItems, hfree.current]
    rfl
  rw [← hitems]
  show execSpoutReady tag s = _
  exact serve_accept (items := fun _ => spoutItems (dropFrame s)) htakes (by simp only [hfree.not_refused]) hfree.settle

/-- Settles O57: the transfer is granted at once and flows, which presents the compartment dose (`SpoutFree.settle`). -/
theorem spoutReadyStartsLoading : Obligations.SpoutReadyStartsLoading := by
  intro s tag c o i b l v hc hstop hstate hcurrent hassigned hv hlocked hheld htarget htransfers hwaiting hroute hdose hok
  have h : SpoutFree s o i b l v :=
    ⟨hstop, hstate, hcurrent, hassigned, hv, hlocked, hheld, htarget, htransfers, hwaiting, hroute, hdose, hok⟩
  rcases hc with rfl | ⟨rfl, htakes⟩
  · exact ⟨_, h.exec_button, rfl, (h.takeOffered _).currentLine_loadingFlows, rfl, rfl, rfl, nofun,
      loadingDosed_dose _ o i b l v⟩
  · exact ⟨_, h.exec_request htakes, rfl, (h.setLink _).currentLine_loadingFlows, rfl, rfl, rfl, fun _ => rfl,
      loadingDosed_dose _ o i b l v⟩

end

end Sys2Proof.Machine

/-! PROOFS. What a command keeps: all but fifteen keep what `Keeps` lists, a request but for its frame and its reply; and every
command keeps the reservation ledger and the bins' stock (R33, R34, R40, R43, R52 to R58). -/

namespace Sys2Proof.Machine

section

variable {s t u : State} {c : Instr}

/-! ### What a command keeps -/

/-- The commands that change what `Keeps` lists: those of the Link Port, the store and the reset, of the levels and the floor, and of the
causes of a Line Stop. -/
def changesKept : Instr → Bool
  | .linkStatus _ _ | .settingsSave _ | .lineStop _ | .lineResume _ | .sourceLevelSet _ _ _ | .floorSet _ _
  | .unknownKind _ _ _ | .frameReceive _ | .receiveError | .linkBreak | .frameSent | .fullReset _ _ | .settingsSaveEnd _
  | .inputSample _ _ | .lineStopInputActive => true
  | _ => false

theorem execIdentify_keeps (tag : Byte) (h : execIdentify tag s = .next t) : RequestKeeps (.identify tag) s t :=
  serve_keeps (fun u => plain_keeps (Keeps.refl u)) h

theorem execRestart_keeps (tag : Byte) (h : execRestart tag s = .next t) : RequestKeeps (.restart tag) s t :=
  serve_keeps (fun u => checked_keeps (plain_keeps (Keeps.refl u)) _) h

theorem execOccurrenceOffer_keeps (h : execOccurrenceOffer s = .next t) : Keeps s t := by
  refine outcome_keeps ?_ h
  unfold offerNext
  split
  · exact Keeps.refl s
  · exact (Keeps.refl s).setWaiting _

/-- Every other command keeps what `Keeps` lists; a request does so but for its frame and its reply. -/
theorem exec_keeps (hc : changesKept c = false) (h : exec c s = .next t) : RequestKeeps c s t ∨ Keeps s t := by
  cases c with
  | linkStatus | settingsSave | lineStop | lineResume | sourceLevelSet | floorSet | unknownKind | frameReceive | receiveError
  | linkBreak | frameSent | fullReset | settingsSaveEnd | inputSample | lineStopInputActive => cases hc
  | identify => exact .inl (execIdentify_keeps _ h)
  | restart => exact .inl (execRestart_keeps _ h)
  | channelSet => exact .inl (execChannelSet_keeps _ _ _ h)
  | channelRead => exact .inl (execChannelRead_keeps _ _ h)
  | zero => exact .inl (execZero_keeps _ _ h)
  | calSpan => exact .inl (execCalSpan_keeps _ _ _ h)
  | inflightSet => exact .inl (execInflightSet_keeps _ _ _ h)
  | binDefine => exact .inl (execBinDefine_keeps _ _ _ h)
  | binRead => exact .inl (execBinRead_keeps _ _ h)
  | binCount => exact .inl (execBinCount_keeps _ _ _ _ h)
  | binReceive => exact .inl (execBinReceive_keeps _ _ _ h)
  | binLock => exact .inl (execBinLock_keeps _ _ h)
  | binUnlock => exact .inl (execBinUnlock_keeps _ _ h)
  | reservationRead => exact .inl (execReservationRead_keeps _ _ _ _ h)
  | inputDefine => exact .inl (execInputDefine_keeps _ _ _ _ _ _ h)
  | outputDefine => exact .inl (execOutputDefine_keeps _ _ _ h)
  | outputSet => exact .inl (execOutputSet_keeps _ _ h)
  | outputClear => exact .inl (execOutputClear_keeps _ _ h)
  | analogDefine => exact .inl (execAnalogDefine_keeps _ _ _ _ h)
  | analogSet => exact .inl (execAnalogSet_keeps _ _ _ h)
  | ioRead => exact .inl (execIoRead_keeps _ h)
  | routeDefine => exact .inl (execRouteDefine_keeps _ _ _ _ h)
  | arbiterSet => exact .inl (execArbiterSet_keeps _ _ h)
  | resourceRead => exact .inl (execResourceRead_keeps _ h)
  | formulaOpen => exact .inl (execFormulaOpen_keeps _ _ _ _ h)
  | formulaStep => exact .inl (execFormulaStep_keeps _ _ _ h)
  | formulaClose => exact .inl (execFormulaClose_keeps _ _ h)
  | formulaRead => exact .inl (execFormulaRead_keeps _ _ h)
  | batchlineSet => exact .inl (execBatchlineSet_keeps _ _ _ _ h)
  | batchQueue => exact .inl (execBatchQueue_keeps _ _ _ _ _ _ _ h)
  | batchRelease => exact .inl (execBatchRelease_keeps _ _ h)
  | handDone => exact .inl (execHandDone_keeps _ _ h)
  | stepResume => exact .inl (execStepResume_keeps _ _ _ _ h)
  | batchResume => exact .inl (execBatchResume_keeps _ _ h)
  | batchCancel => exact .inl (execBatchCancel_keeps _ _ h)
  | batchAbandon => exact .inl (execBatchAbandon_keeps _ _ h)
  | batchRead => exact .inl (execBatchRead_keeps _ _ h)
  | grindQueue => exact .inl (execGrindQueue_keeps _ _ _ _ _ _ h)
  | grindCancel => exact .inl (execGrindCancel_keeps _ _ h)
  | grindResume => exact .inl (execGrindResume_keeps _ _ h)
  | grindArm => exact .inl (execGrindArm_keeps _ _ _ h)
  | screenFitted => exact .inl (execScreenFitted_keeps _ _ h)
  | millSet => exact .inl (execMillSet_keeps _ _ h)
  | millResume => exact .inl (execMillResume_keeps _ h)
  | millStop => exact .inl (execMillStop_keeps _ h)
  | millRead => exact .inl (execMillRead_keeps _ h)
  | profileSet => exact .inl (execProfileSet_keeps _ _ _ h)
  | profileRead => exact .inl (execProfileRead_keeps _ _ h)
  | pressSet => exact .inl (execPressSet_keeps _ _ _ h)
  | runQueue => exact .inl (execRunQueue_keeps _ _ _ h)
  | runCancel => exact .inl (execRunCancel_keeps _ _ _ h)
  | pressStart => exact .inl (execPressStart_keeps _ _ h)
  | pressResume => exact .inl (execPressResume_keeps _ _ h)
  | pressStop => exact .inl (execPressStop_keeps _ _ h)
  | pressTrim => exact .inl (execPressTrim_keeps _ _ _ _ h)
  | changeoverNow => exact .inl (execChangeoverNow_keeps _ _ h)
  | pressRead => exact .inl (execPressRead_keeps _ _ h)
  | baggerSet => exact .inl (execBaggerSet_keeps _ _ _ h)
  | bagQueue => exact .inl (execBagQueue_keeps _ _ h)
  | bagRunStart => exact .inl (execBagRunStart_keeps _ h)
  | bagRunStop => exact .inl (execBagRunStop_keeps _ h)
  | baggerResume => exact .inl (execBaggerResume_keeps _ h)
  | bagCancel => exact .inl (execBagCancel_keeps _ _ h)
  | baggerRead => exact .inl (execBaggerRead_keeps _ h)
  | orderEnter => exact .inl (execOrderEnter_keeps _ _ _ _ h)
  | lineAssign => exact .inl (execLineAssign_keeps _ _ _ _ h)
  | lineClose => exact .inl (execLineClose_keeps _ _ _ h)
  | orderCancel => exact .inl (execOrderCancel_keeps _ _ h)
  | truckIn => exact .inl (execTruckIn_keeps _ _ _ h)
  | spoutReady => exact .inl (execSpoutReady_keeps _ h)
  | loadoutResume => exact .inl (execLoadoutResume_keeps _ _ h)
  | truckOut => exact .inl (execTruckOut_keeps _ _ h)
  | dispatchTake => exact .inl (execDispatchTake_keeps _ h)
  | orderRead => exact .inl (execOrderRead_keeps _ _ h)
  | slotArm => exact .inl (execSlotArm_keeps _ _ h)
  | slotDisarm => exact .inl (execSlotDisarm_keeps _ _ h)
  | slotRead => exact .inl (execSlotRead_keeps _ h)
  | channelSample => exact .inr (execChannelSample_keeps _ _ _ h)
  | tareTimeout => exact .inr (execTareTimeout_keeps _ h)
  | settleTimeout => exact .inr (execSettleTimeout_keeps _ h)
  | jogTimeout => exact .inr (execJogTimeout_keeps _ h)
  | handAddButtonPress => exact .inr (execHandAddButtonPress_keeps h)
  | spoutReadyButtonPress => exact .inr (execSpoutReadyButtonPress_keeps h)
  | baggerStartPress => exact .inr (execBaggerStartPress_keeps h)
  | baggerStopPress => exact .inr (execBaggerStopPress_keeps h)
  | bagPresentPress => exact .inr (execBagPresentPress_keeps h)
  | bagGonePress => exact .inr (execBagGonePress_keeps h)
  | pressButtonPress => exact .inr (execPressButtonPress_keeps _ h)
  | mixerEmptyActive => exact .inr (execMixerEmptyActive_keeps h)
  | millFeedbackFound => exact .inr (execMillFeedbackFound_keeps h)
  | millFeedbackLost => exact .inr (execMillFeedbackLost_keeps h)
  | pressFeedbackFound => exact .inr (execPressFeedbackFound_keeps _ h)
  | pressFeedbackLost => exact .inr (execPressFeedbackLost_keeps _ h)
  | highProbeCovered => exact .inr (execHighProbeCovered_keeps _ h)
  | lowProbeUncovered => exact .inr (execLowProbeUncovered_keeps _ h)
  | permitTimeout => exact .inr (execPermitTimeout_keeps _ h)
  | dischargeTimeout => exact .inr (execDischargeTimeout_keeps h)
  | mixTimeout => exact .inr (execMixTimeout_keeps h)
  | releaseTimeout => exact .inr (execReleaseTimeout_keeps h)
  | millLoopInterval => exact .inr (execMillLoopInterval_keeps _ h)
  | millOverload => exact .inr (execMillOverload_keeps h)
  | millNoFlow => exact .inr (execMillNoFlow_keeps h)
  | millStartTimeout => exact .inr (execMillStartTimeout_keeps h)
  | millWarmTimeout => exact .inr (execMillWarmTimeout_keeps h)
  | millDrainTimeout => exact .inr (execMillDrainTimeout_keeps h)
  | millIdleTimeout => exact .inr (execMillIdleTimeout_keeps h)
  | millRundownTimeout => exact .inr (execMillRundownTimeout_keeps h)
  | pressControlInterval => exact .inr (execPressControlInterval_keeps _ _ _ h)
  | pressChoke => exact .inr (execPressChoke_keeps _ h)
  | pressColdHold => exact .inr (execPressColdHold_keeps _ h)
  | pressStartTimeout => exact .inr (execPressStartTimeout_keeps _ h)
  | pressColdTimeout => exact .inr (execPressColdTimeout_keeps _ h)
  | starveTimeout => exact .inr (execStarveTimeout_keeps _ h)
  | changeoverDelayTimeout => exact .inr (execChangeoverDelayTimeout_keeps _ h)
  | pressRundownTimeout => exact .inr (execPressRundownTimeout_keeps _ h)
  | checkTimeout => exact .inr (execCheckTimeout_keeps h)
  | bagReleaseTimeout => exact .inr (execBagReleaseTimeout_keeps h)
  | occurrenceOffer => exact .inr (execOccurrenceOffer_keeps h)

/-! ### The ledger and the stock -/

/-- From `s` to `t` the reservation ledger and the bins' stock stay in their bounds. -/
structure StockKept (s t : State) : Prop where
  ledger : s.LedgerOk → t.LedgerOk
  stock : s.StockOk → t.StockOk

namespace StockKept

theorem trans (h : StockKept s t) (k : StockKept t u) : StockKept s u := ⟨k.ledger ∘ h.ledger, k.stock ∘ h.stock⟩

theorem of_same (hinv : t.inv = s.inv) (hstore : t.store = s.store) : StockKept s t := by
  refine ⟨fun h => ?_, fun h => ?_⟩
  · rwa [State.LedgerOk, hinv]
  · rwa [State.StockOk, hinv, hstore]

theorem refl (s : State) : StockKept s s := of_same rfl rfl

/-- From a state with the same bins and the same store. -/
theorem of_start (h : StockKept t u) (hinv : t.inv = s.inv) (hstore : t.store = s.store) : StockKept s u :=
  (of_same hinv hstore).trans h

theorem of_keeps (h : Keeps s t) : StockKept s t := by
  refine ⟨h.ledger, fun hs => ⟨h.stock hs.1, ?_⟩⟩
  rw [h.store]
  exact hs.2

theorem settle {r : Result} (h : StockKept s r.1) (hu : Sys2Proof.Machine.settle r = some u) : StockKept s u :=
  h.trans (of_keeps ((Keeps.refl r.1).settle hu))

theorem outcome {r : Result} (h : StockKept s r.1) (hu : Sys2Proof.Machine.outcome r = .next u) : StockKept s u :=
  h.settle (outcome_next hu)

theorem of_requestKeeps (h : RequestKeeps c s t) : StockKept s t := by
  rcases h with rfl | ⟨-, u, r, hu, rfl⟩
  · exact refl _
  · have htaken : StockKept s u := (of_keeps hu).of_start (s := s) rfl rfl
    exact htaken.trans (of_same rfl rfl)

/-- A request keeps ledger and stock when each execution that its judge accepts does. -/
theorem serve {judge : State → Verdict} (hj : ∀ u r items, judge u = .accept r items → StockKept u r.1)
    (h : Sys2Proof.Machine.serve c judge s = .next t) : StockKept s t := by
  rcases serve_next h with ⟨-, rfl⟩ | ⟨-, code, index, -, rfl⟩ | ⟨-, r, items, u, hr, hu, rfl⟩
  · exact refl _
  · exact of_same rfl rfl
  · have htaken : StockKept s u := ((hj _ r items hr).settle hu).of_start rfl rfl
    exact htaken.trans (of_same rfl rfl)

end StockKept

/-! ### The commands of the Link Port, the store and the levels -/

theorem checked_accept {v : Verdict} {r : Result} {items : State → List Item} :
    ∀ {l : List (Bool × ReplyCode)}, checked l v = .accept r items → v = .accept r items
  | [], h => h
  | (true, _) :: l, h => checked_accept (l := l) h
  | (false, _) :: _, h => by cases h

theorem execLinkStatus_stockKept {tag : Byte} {clear : Nat} (h : execLinkStatus tag clear s = .next t) : StockKept s t := by
  refine .serve (fun u r items hr => ?_) h
  split at hr
  · cases hr
  · cases hr; exact .refl u
  · cases hr; exact .of_same rfl rfl

theorem relevelNotice_inv (s : State) (source level : Nat) : (relevelNotice s source level).inv = s.inv := by
  unfold relevelNotice
  split <;> rfl

theorem relevelNotice_store (s : State) (source level : Nat) : (relevelNotice s source level).store = s.store := by
  unfold relevelNotice
  split <;> rfl

theorem execSourceLevelSet_stockKept {tag : Byte} {source level : Nat}
    (h : execSourceLevelSet tag source level s = .next t) : StockKept s t := by
  refine .serve (fun u r items hr => ?_) h
  cases checked_accept hr
  exact .of_same (relevelNotice_inv _ _ _) (relevelNotice_store _ _ _)

theorem execFloorSet_stockKept {tag : Byte} {floor : Nat} (h : execFloorSet tag floor s = .next t) : StockKept s t := by
  refine .serve (fun u r items hr => ?_) h
  cases checked_accept hr
  exact .of_same rfl rfl

theorem execUnknownKind_stockKept {tag kind : Byte} {body : List Byte} (h : execUnknownKind tag kind body s = .next t) :
    StockKept s t := by
  unfold execUnknownKind at h
  dsimp only at h
  split at h
  · cases h; exact .refl s
  · split at h
    all_goals cases h; exact .of_same rfl rfl

theorem takeChar_stockKept (s : State) (x : Byte) : StockKept s (takeChar s x) := by
  have hjudge : ∀ l bytes, StockKept s (judgeFrame s l bytes) := fun l bytes => by
    unfold judgeFrame
    dsimp only
    split_ifs
    all_goals exact .of_same rfl rfl
  unfold takeChar
  dsimp only
  split
  case h_7 => exact hjudge _ _
  all_goals repeat' split
  all_goals exact .of_same rfl rfl

theorem execFrameReceive_stockKept (chars : List Byte) (s : State) : StockKept s (chars.foldl takeChar s) := by
  induction chars generalizing s with
  | nil => exact .refl s
  | cons x chars ih => exact (takeChar_stockKept s x).trans (ih _)

theorem framingError_stockKept (s : State) : StockKept s (framingError s) := by
  unfold framingError
  split_ifs
  · exact .refl s
  · exact .of_same rfl rfl

/-- The copy that a save takes holds the marks of the bins' definitions (R218, R219). -/
theorem capture_marksOk (h : s.inv.StockOk) : marksOk (capture s).bins := by
  intro b d hd
  have hmap : (Table.get s.inv.bins b).map (fun v => (⟨v.cfg, v.inflight⟩ : StoredBin)) = some d :=
    (Table.get_map s.inv.bins _ b).symm.trans hd
  obtain ⟨v, hv, rfl⟩ := Option.map_eq_some_iff.1 hmap
  exact (h b v hv).2

theorem beginSave_stockKept (s : State) : StockKept s (beginSave s) := by
  refine ⟨id, fun h => ⟨h.1, fun x hx => ?_⟩⟩
  rcases hx with hx | hx
  · cases hx
  · cases hx
    exact capture_marksOk h.1

theorem execSettingsSave_stockKept {tag : Byte} (h : execSettingsSave tag s = .next t) : StockKept s t := by
  refine .serve (fun u r items hr => ?_) h
  cases checked_accept hr
  exact beginSave_stockKept u

/-- At the end of a save the copy becomes the image, or is lost (R219). -/
theorem endSave_stockKept (s : State) (ok : Bool) : StockKept s (endSave s ok) := by
  unfold endSave
  split
  · refine ⟨id, fun h => ⟨h.1, fun x hx => h.2 x (.inr ?_)⟩⟩
    cases ok with
    | true => exact hx.resolve_right nofun
    | false => exact absurd hx (by rintro (hx | hx) <;> cases hx)
  · exact .refl s

/-- A full reset leaves no reservation and every bin empty, its definition from the image (R34, R52, R220). -/
theorem fullReset_stockKept (s : State) (strapB strapA : Bool) : StockKept s (fullReset s strapB strapA) := by
  unfold fullReset
  cases himage : s.store.image with
  | none =>
    refine ⟨fun _ => bootInventory_ledgerOk, fun _ => ⟨bootInventory_stockOk nofun, fun x hx => ?_⟩⟩
    rcases hx with hx | hx <;> cases hx
  | some x =>
    refine ⟨fun _ => bootInventory_ledgerOk, fun h => ?_⟩
    have hmarks : marksOk x.bins := h.2 x (.inl himage)
    refine ⟨bootInventory_stockOk hmarks, fun y hy => ?_⟩
    rcases hy with hy | hy
    · cases hy; exact hmarks
    · cases hy

theorem chooseSend_stockKept (s : State) : StockKept s (chooseSend s) := by
  unfold chooseSend
  split
  · exact .of_same rfl rfl
  · split
    · exact .of_same rfl rfl
    · exact .refl s

theorem sendNext_stockKept (s : State) : StockKept s (sendNext s) := by
  unfold sendNext
  split
  · exact chooseSend_stockKept s
  · split_ifs
    · exact fullReset_stockKept _ _ _
    · exact (chooseSend_stockKept (s.setLink { s.link with tx := [] })).of_start rfl rfl
    · exact .of_same rfl rfl

/-! ### Input samples and the Line Stop -/

theorem offerLineStop_stockKept (old s : State) : StockKept s (offerLineStop old s) := by
  unfold offerLineStop
  split
  · exact .refl s
  · split_ifs
    · exact .of_same rfl rfl
    · exact .of_keeps ((Keeps.refl s).offer _)
    · exact .refl s
    · exact .refl s

theorem takeInputSample_stockKept (s : State) (levels : Nat) (analog : List Int) :
    StockKept s (takeInputSample s levels analog).1 := by
  have hsampled : Keeps s (setAnalogPins 0 analog (sampleInputs s levels)) :=
    Keeps.setAnalogPins analog 0 ((Keeps.refl s).sampleInputs levels)
  have hprobes := Keeps.foldResult (f := fun b u => sampleProbes s u b) (fun b u => (Keeps.refl u).sampleProbes s b)
    ((setAnalogPins 0 analog (sampleInputs s levels)).inv.bins.map (·.1)) (State.done _) hsampled
  have hoffers : ∀ v : State, Keeps v
      (offerMixerEmpty (offerMillFeedback (offerPressFeedback (offerPressFeedback v .one) .two))) := fun v =>
    ((((Keeps.refl v).offerPressFeedback .one).offerPressFeedback .two).offerMillFeedback).offerMixerEmpty
  exact ((StockKept.of_keeps (hprobes.offerEdges s)).trans (offerLineStop_stockKept s _)).trans
    (.of_keeps ((hoffers _).setIO _))

theorem bringLineStop_stockKept (s : State) (cause : StopCause) : StockKept s (bringLineStop s cause).1 := by
  unfold bringLineStop
  split
  · exact .of_same rfl rfl
  · have hdrop : Keeps s ((s.arb.transfers.map (·.2)).foldl dropOutputs s) :=
      Keeps.foldl (fun u x => (Keeps.refl u).dropOutputs x) _ (Keeps.refl s)
    exact (StockKept.of_keeps hdrop).trans (.of_same rfl rfl)

theorem execLineStop_stockKept {tag : Byte} (h : execLineStop tag s = .next t) : StockKept s t := by
  refine .serve (fun u r items hr => ?_) h
  cases hr
  exact bringLineStop_stockKept u .request

theorem execLineResume_stockKept {tag : Byte} (h : execLineResume tag s = .next t) : StockKept s t := by
  refine .serve (fun u r items hr => ?_) h
  split at hr
  · cases hr; exact .refl u
  · cases checked_accept hr
    exact .of_same rfl rfl

/-! ### Every command -/

theorem exec_stockKept (h : exec c s = .next t) : StockKept s t := by
  cases hc : changesKept c with
  | false => exact (exec_keeps hc h).elim .of_requestKeeps .of_keeps
  | true =>
    cases c with
    | linkStatus => exact execLinkStatus_stockKept h
    | settingsSave => exact execSettingsSave_stockKept h
    | lineStop => exact execLineStop_stockKept h
    | lineResume => exact execLineResume_stockKept h
    | sourceLevelSet => exact execSourceLevelSet_stockKept h
    | floorSet => exact execFloorSet_stockKept h
    | unknownKind => exact execUnknownKind_stockKept h
    | frameReceive chars => cases h; exact execFrameReceive_stockKept chars s
    | receiveError => cases h; exact framingError_stockKept s
    | linkBreak => cases h; exact .of_same rfl rfl
    | frameSent => cases h; exact sendNext_stockKept s
    | fullReset b a => cases h; exact fullReset_stockKept s b a
    | settingsSaveEnd ok => cases h; exact endSave_stockKept s ok
    | inputSample levels analog => exact (takeInputSample_stockKept s levels analog).outcome h
    | lineStopInputActive =>
      exact ((bringLineStop_stockKept (s.takeOffered .lineStopInput) .input).outcome h).of_start rfl rfl
    | _ => cases hc

/-- Settles O8: by `exec_stockKept`, and a tick touches neither bins nor store. -/
theorem stepKeepsInventoryOk : Obligations.StepKeepsInventoryOk := by
  intro s t h
  have hkept : StockKept s t := by
    unfold step at h
    split at h
    · cases h; exact .of_same rfl rfl
    · next c rest _ => exact (exec_stockKept h).of_start rfl rfl
  exact ⟨hkept.ledger, hkept.stock⟩

end

end Sys2Proof.Machine

/-! PROOFS. A draw from a lot list: whole lots from the oldest on, then a cut of one at most (R48, R49). -/

namespace Sys2Proof.Machine

section

variable {m : Nat} {l : Lot} {lots : List Lot}

/-! ### The three cases of a draw at the oldest lot -/

theorem takeLots_of_cut (hpos : m ≠ 0) (h : m < l.mass) :
    takeLots m (l :: lots) = ({ l with mass := l.mass - m } :: lots, [(l.tag, m)]) := by
  simp only [takeLots, if_neg hpos, if_pos h]

theorem takeLots_of_whole (hpos : m ≠ 0) (h : l.mass ≤ m) : takeLots m (l :: lots) =
    ((takeLots (m - l.mass) lots).1, (l.tag, l.mass) :: (takeLots (m - l.mass) lots).2) := by
  simp only [takeLots, if_neg hpos, if_neg (Nat.not_lt.2 h)]

/-! ### How far a draw goes -/

/-- A draw of `m` grams takes the oldest `n` lots whole and nothing else. -/
structure DrawsWhole (m : Nat) (lots : List Lot) (n : Nat) : Prop where
  mass : ((lots.take n).map (·.mass)).sum = m
  consumed : (takeLots m lots).2 = (lots.take n).map (fun l => (l.tag, l.mass))
  left : (takeLots m lots).1 = lots.drop n

/-- A draw of `m` grams takes the oldest `n` lots whole and cuts `cut` grams off the next, `l`. -/
structure DrawsCut (m : Nat) (lots : List Lot) (n cut : Nat) (l : Lot) : Prop where
  mass : ((lots.take n).map (·.mass)).sum + cut = m
  next : lots[n]? = some l
  pos : 0 < cut
  less : cut < l.mass
  consumed : (takeLots m lots).2 = (lots.take n).map (fun l => (l.tag, l.mass)) ++ [(l.tag, cut)]
  left : (takeLots m lots).1 = { l with mass := l.mass - cut } :: lots.drop (n + 1)

theorem drawsWhole_zero (lots : List Lot) : DrawsWhole 0 lots 0 :=
  ⟨rfl, by rw [takeLots_zero]; rfl, by rw [takeLots_zero]; rfl⟩

theorem DrawsWhole.cons {n : Nat} (h : DrawsWhole (m - l.mass) lots n) (hpos : m ≠ 0) (hl : l.mass ≤ m) :
    DrawsWhole m (l :: lots) (n + 1) := by
  have hmass := h.mass
  refine ⟨?_, ?_, ?_⟩
  · simp only [List.take_succ_cons, List.map_cons, List.sum_cons]; omega
  · simp only [takeLots_of_whole hpos hl, h.consumed, List.take_succ_cons, List.map_cons]
  · simp only [takeLots_of_whole hpos hl, h.left, List.drop_succ_cons]

theorem DrawsCut.cons {n cut : Nat} {x : Lot} (h : DrawsCut (m - l.mass) lots n cut x) (hpos : m ≠ 0) (hl : l.mass ≤ m) :
    DrawsCut m (l :: lots) (n + 1) cut x := by
  have hmass := h.mass
  refine ⟨?_, h.next, h.pos, h.less, ?_, ?_⟩
  · simp only [List.take_succ_cons, List.map_cons, List.sum_cons]; omega
  · simp only [takeLots_of_whole hpos hl, h.consumed, List.take_succ_cons, List.map_cons, List.cons_append]
  · simp only [takeLots_of_whole hpos hl, h.left, List.drop_succ_cons]

/-- A draw of all lots' mass or less ends between two lots, or inside one. -/
theorem takeLots_shape (h : m ≤ (lots.map (·.mass)).sum) :
    (∃ n, DrawsWhole m lots n) ∨ ∃ n cut l, DrawsCut m lots n cut l := by
  induction lots generalizing m with
  | nil =>
    obtain rfl : m = 0 := Nat.le_zero.1 h
    exact .inl ⟨0, drawsWhole_zero []⟩
  | cons l lots ih =>
    rw [List.map_cons, List.sum_cons] at h
    rcases Nat.eq_zero_or_pos m with rfl | hpos
    · exact .inl ⟨0, drawsWhole_zero _⟩
    · by_cases hcut : m < l.mass
      · have htake := takeLots_of_cut (lots := lots) hpos.ne' hcut
        exact .inr ⟨0, m, l, by simp, rfl, hpos, hcut, by rw [htake]; rfl, by rw [htake]; rfl⟩
      · have hwhole : l.mass ≤ m := Nat.not_lt.1 hcut
        rcases ih (m := m - l.mass) (by omega) with ⟨n, hn⟩ | ⟨n, cut, x, hn⟩
        · exact .inl ⟨n + 1, hn.cons hpos.ne' hwhole⟩
        · exact .inr ⟨n + 1, cut, x, hn.cons hpos.ne' hwhole⟩

/-! ### The masses of a draw -/

theorem mass_take_add_drop (lots : List Lot) (n : Nat) :
    ((lots.take n).map (·.mass)).sum + ((lots.drop n).map (·.mass)).sum = (lots.map (·.mass)).sum := by
  rw [← List.sum_append, ← List.map_append, List.take_append_drop]

theorem DrawsWhole.masses {n : Nat} (h : DrawsWhole m lots n) : ((takeLots m lots).2.map (·.2)).sum = m ∧
    ((takeLots m lots).1.map (·.mass)).sum + m = (lots.map (·.mass)).sum := by
  have htotal := mass_take_add_drop lots n
  have hmass := h.mass
  rw [h.consumed, h.left, List.map_map]
  exact ⟨hmass, by omega⟩

theorem DrawsCut.masses {n cut : Nat} (h : DrawsCut m lots n cut l) : ((takeLots m lots).2.map (·.2)).sum = m ∧
    ((takeLots m lots).1.map (·.mass)).sum + m = (lots.map (·.mass)).sum := by
  obtain ⟨hlt, rfl⟩ := List.getElem?_eq_some_iff.1 h.next
  have htotal := mass_take_add_drop lots n
  have hmass := h.mass
  have hless := h.less
  rw [List.drop_eq_getElem_cons hlt, List.map_cons, List.sum_cons] at htotal
  rw [h.consumed, h.left, List.map_append, List.map_map, List.sum_append]
  refine ⟨hmass, ?_⟩
  rw [List.map_cons, List.sum_cons]
  dsimp only
  omega

/-- Settles O23: by the shape of a draw (`takeLots_shape`), from which its masses follow. -/
theorem drawsTakeTheOldestLots : Obligations.DrawsTakeTheOldestLots := by
  intro lots m h _
  rcases takeLots_shape h with ⟨n, hn⟩ | ⟨n, cut, l, hn⟩
  · exact ⟨hn.masses.1, hn.masses.2, n, 0, hn.mass, .inl ⟨rfl, hn.consumed, hn.left⟩⟩
  · exact ⟨hn.masses.1, hn.masses.2, n, cut, hn.mass, .inr ⟨l, hn.next, hn.pos, hn.less, hn.consumed, hn.left⟩⟩

end

end Sys2Proof.Machine

/-! PROOFS. Give-back and top-up go through a bin's reservations by age, give-back from the youngest and top-up from the oldest on
(R55, R56). -/

namespace Sys2Proof.Machine

section

variable {b n : Nat} {r x : Reservation} {l : List Reservation}

/-- `q` is `r` but for its held mass, and is `r` itself unless `r` is of bin `b`. -/
structure HeldOnly (b : Nat) (r q : Reservation) : Prop where
  same : q = { r with held := q.held }
  other : r.bin ≠ b → q = r

theorem HeldOnly.refl (b : Nat) (r : Reservation) : HeldOnly b r r := ⟨rfl, fun _ => rfl⟩

theorem HeldOnly.of_bin (h : r.bin = b) (held : Nat) : HeldOnly b r { r with held := held } := ⟨rfl, fun hb => absurd h hb⟩

theorem HeldOnly.terms {q : Reservation} (h : HeldOnly b r q) :
    q.id = r.id ∧ q.wanted = r.wanted ∧ q.bin = r.bin ∧ q.holder = r.holder := by
  rw [h.same]
  exact ⟨rfl, rfl, rfl, rfl⟩

/-! ### Give-back -/

theorem giveBackFrom_of_bin (h : x.bin = b) (n : Nat) (l : List Reservation) : giveBackFrom b n (x :: l) =
    { x with held := x.held - min x.held n } :: giveBackFrom b (n - x.held) l := if_pos h

theorem giveBackFrom_of_other (h : x.bin ≠ b) (n : Nat) (l : List Reservation) :
    giveBackFrom b n (x :: l) = x :: giveBackFrom b n l := if_neg h

theorem giveBackFrom_zero (b : Nat) (l : List Reservation) : giveBackFrom b 0 l = l := by
  induction l with
  | nil => rfl
  | cons x l ih =>
    by_cases hx : x.bin = b
    · rw [giveBackFrom_of_bin hx, Nat.min_zero, Nat.sub_zero, Nat.zero_sub, ih]
    · rw [giveBackFrom_of_other hx, ih]

/-- A reservation loses held mass only, and only when those before it in the list hold nothing; the list is youngest first. -/
theorem giveBackFrom_at {i : Nat} (hr : l[i]? = some r) : ∃ q, (giveBackFrom b n l)[i]? = some q ∧ HeldOnly b r q ∧
    q.held ≤ r.held ∧ (q.held < r.held → ∀ (j : Nat) (y : Reservation), j < i →
      (giveBackFrom b n l)[j]? = some y → y.bin = b → y.held = 0) := by
  induction l generalizing n i with
  | nil => cases hr
  | cons x l ih =>
    by_cases hx : x.bin = b
    · rw [giveBackFrom_of_bin hx]
      cases i with
      | zero =>
        obtain rfl : x = r := Option.some.inj hr
        exact ⟨_, rfl, .of_bin hx _, Nat.sub_le _ _, fun _ j y hj => absurd hj (Nat.not_lt_zero j)⟩
      | succ i =>
        obtain ⟨q, hq, honly, hle, hyounger⟩ := ih (n := n - x.held) hr
        refine ⟨q, hq, honly, hle, fun hless j y hj hy hbin => ?_⟩
        cases j with
        | succ j => exact hyounger hless j y (Nat.lt_of_succ_lt_succ hj) hy hbin
        | zero =>
          have hmore : n - x.held ≠ 0 := fun h0 => by
            rw [h0, giveBackFrom_zero] at hq
            obtain rfl : r = q := Option.some.inj (hr.symm.trans hq)
            omega
          obtain rfl : _ = y := Option.some.inj hy
          dsimp only
          omega
    · rw [giveBackFrom_of_other hx]
      cases i with
      | zero =>
        obtain rfl : x = r := Option.some.inj hr
        exact ⟨x, rfl, .refl b x, le_rfl, fun _ j y hj => absurd hj (Nat.not_lt_zero j)⟩
      | succ i =>
        obtain ⟨q, hq, honly, hle, hyounger⟩ := ih (n := n) hr
        refine ⟨q, hq, honly, hle, fun hless j y hj hy hbin => ?_⟩
        cases j with
        | succ j => exact hyounger hless j y (Nat.lt_of_succ_lt_succ hj) hy hbin
        | zero =>
          obtain rfl : x = y := Option.some.inj hy
          exact absurd hbin hx

/-- The same of give-back, whose list is oldest first. -/
theorem giveBack_at {i onHand : Nat} (hr : l[i]? = some r) : ∃ q, (giveBack b onHand l)[i]? = some q ∧ HeldOnly b r q ∧
    q.held ≤ r.held ∧ (q.held < r.held → ∀ (j : Nat) (y : Reservation), i < j →
      (giveBack b onHand l)[j]? = some y → y.bin = b → y.held = 0) := by
  obtain ⟨hi, -⟩ := List.getElem?_eq_some_iff.1 hr
  have hlength : (giveBackFrom b (heldTotal l b - onHand) l.reverse).length = l.length := by
    rw [(giveBackFrom_stands _ _ _).length, List.length_reverse]
  have hback : ∀ j, j < l.length → (giveBack b onHand l)[j]? =
      (giveBackFrom b (heldTotal l b - onHand) l.reverse)[l.length - 1 - j]? := fun j hj => by
    rw [giveBack, List.getElem?_reverse (hlength.symm ▸ hj), hlength]
  have hrev : l.reverse[l.length - 1 - i]? = some r := by
    rw [List.getElem?_reverse (by omega), ← hr]
    congr 1
    omega
  obtain ⟨q, hq, honly, hle, hyounger⟩ := giveBackFrom_at (b := b) (n := heldTotal l b - onHand) hrev
  refine ⟨q, (hback i hi).trans hq, honly, hle, fun hless j y hj hy => ?_⟩
  have hjl : j < l.length := (giveBack_stands b onHand l).length ▸ (List.getElem?_eq_some_iff.1 hy).1
  exact hyounger hless _ y (by omega) ((hback j hjl).symm.trans hy)

/-! ### Top-up -/

theorem topUpFrom_of_short (hbin : x.bin = b) (hshort : x.held < x.wanted) (hn : 0 < n) (l : List Reservation) :
    (topUpFrom b n (x :: l)).1 = { x with held := x.held + min (x.wanted - x.held) n } ::
      (topUpFrom b (n - min (x.wanted - x.held) n) l).1 := by
  rw [topUpFrom, if_pos ⟨hbin, hshort, hn⟩]

theorem topUpFrom_of_not (h : ¬(x.bin = b ∧ x.held < x.wanted ∧ 0 < n)) (l : List Reservation) :
    (topUpFrom b n (x :: l)).1 = x :: (topUpFrom b n l).1 := by
  rw [topUpFrom, if_neg h]

theorem topUpFrom_zero (b : Nat) (l : List Reservation) : (topUpFrom b 0 l).1 = l := by
  induction l with
  | nil => rfl
  | cons x l ih => rw [topUpFrom_of_not (fun h => absurd h.2.2 (Nat.lt_irrefl 0)), ih]

/-- A reservation is given held mass only, and only when those before it in the list are full; the list is oldest first. -/
theorem topUpFrom_at {i : Nat} (hfit : ∀ r ∈ l, r.held ≤ r.wanted) (hr : l[i]? = some r) :
    ∃ q, (topUpFrom b n l).1[i]? = some q ∧ HeldOnly b r q ∧ r.held ≤ q.held ∧ q.held ≤ q.wanted ∧
      (r.held < q.held → ∀ (j : Nat) (y : Reservation), j < i → (topUpFrom b n l).1[j]? = some y → y.bin = b →
        y.held = y.wanted) := by
  induction l generalizing n i with
  | nil => cases hr
  | cons x l ih =>
    obtain ⟨hfitx, hfitl⟩ := List.forall_mem_cons.1 hfit
    by_cases hx : x.bin = b ∧ x.held < x.wanted ∧ 0 < n
    · obtain ⟨hbin, hshort, hn⟩ := hx
      rw [topUpFrom_of_short hbin hshort hn]
      cases i with
      | zero =>
        obtain rfl : x = r := Option.some.inj hr
        exact ⟨_, rfl, .of_bin hbin _, Nat.le_add_right _ _, by dsimp only; omega,
          fun _ j y hj => absurd hj (Nat.not_lt_zero j)⟩
      | succ i =>
        obtain ⟨q, hq, honly, hle, hfull, hfirst⟩ := ih (n := n - min (x.wanted - x.held) n) hfitl hr
        refine ⟨q, hq, honly, hle, hfull, fun hless j y hj hy hbin => ?_⟩
        cases j with
        | succ j => exact hfirst hless j y (Nat.lt_of_succ_lt_succ hj) hy hbin
        | zero =>
          have hmore : n - min (x.wanted - x.held) n ≠ 0 := fun h0 => by
            rw [h0, topUpFrom_zero] at hq
            obtain rfl : r = q := Option.some.inj (hr.symm.trans hq)
            omega
          obtain rfl : _ = y := Option.some.inj hy
          dsimp only
          omega
    · rw [topUpFrom_of_not hx]
      cases i with
      | zero =>
        obtain rfl : x = r := Option.some.inj hr
        exact ⟨x, rfl, .refl b x, le_rfl, hfitx, fun _ j y hj => absurd hj (Nat.not_lt_zero j)⟩
      | succ i =>
        obtain ⟨q, hq, honly, hle, hfull, hfirst⟩ := ih (n := n) hfitl hr
        refine ⟨q, hq, honly, hle, hfull, fun hless j y hj hy hbin => ?_⟩
        cases j with
        | succ j => exact hfirst hless j y (Nat.lt_of_succ_lt_succ hj) hy hbin
        | zero =>
          have hmore : n ≠ 0 := fun h0 => by
            rw [h0, topUpFrom_zero] at hq
            obtain rfl : r = q := Option.some.inj (hr.symm.trans hq)
            omega
          obtain rfl : x = y := Option.some.inj hy
          by_contra hne
          exact hx ⟨hbin, by omega, by omega⟩

/-- Free mass is left over only when every reservation of the bin is full. -/
theorem topUpFrom_full (hfit : ∀ r ∈ l, r.held ≤ r.wanted) (hleft : heldTotal (topUpFrom b n l).1 b < heldTotal l b + n) :
    ∀ r ∈ (topUpFrom b n l).1, r.bin = b → r.held = r.wanted := by
  induction l generalizing n with
  | nil => exact fun r hr => absurd hr List.not_mem_nil
  | cons x l ih =>
    obtain ⟨hfitx, hfitl⟩ := List.forall_mem_cons.1 hfit
    by_cases hx : x.bin = b ∧ x.held < x.wanted ∧ 0 < n
    · obtain ⟨hbin, hshort, hn⟩ := hx
      rw [topUpFrom_of_short hbin hshort hn] at hleft ⊢
      simp only [heldTotal_cons, hbin, if_true] at hleft
      refine List.forall_mem_cons.2 ⟨fun _ => ?_, ih hfitl (by omega)⟩
      have hmore : n - min (x.wanted - x.held) n ≠ 0 := fun h0 => by
        rw [h0, topUpFrom_zero] at hleft
        omega
      dsimp only
      omega
    · rw [topUpFrom_of_not hx] at hleft ⊢
      simp only [heldTotal_cons] at hleft
      refine List.forall_mem_cons.2 ⟨fun hbin => ?_, ih hfitl (by omega)⟩
      have hmore : n ≠ 0 := fun h0 => by
        rw [h0, topUpFrom_zero] at hleft
        omega
      by_contra hne
      exact hx ⟨hbin, by omega, by omega⟩

/-- Settles O24: each list is gone through from one end (`giveBack_at`, `topUpFrom_at`), and the totals follow. -/
theorem reservationsAreServedByAge : Obligations.ReservationsAreServedByAge := by
  refine ⟨fun l b onHand => ⟨(giveBack_held b onHand l).1, fun i r hr => ?_, (giveBack_stands b onHand l).length⟩,
    fun l b free hfit => ⟨(topUpFrom_held b l free).1, fun i r hr => ?_, topUpFrom_full hfit⟩⟩
  · obtain ⟨q, hq, honly, hle, hyounger⟩ := giveBack_at (b := b) (onHand := onHand) hr
    obtain ⟨hid, hwanted, hbin, hholder⟩ := honly.terms
    exact ⟨q, hq, hid, hwanted, hbin, hholder, hle, honly.other, hyounger⟩
  · obtain ⟨q, hq, honly, hle, hfull, hfirst⟩ := topUpFrom_at (b := b) (n := free) hfit hr
    obtain ⟨hid, hwanted, hbin, hholder⟩ := honly.terms
    exact ⟨q, hq, hid, hwanted, hbin, hholder, hle, hfull, honly.other, hfirst⟩

end

end Sys2Proof.Machine

/-! PROOFS. The creation of a reservation: the id it takes, and the free mass it gets (R52, R53). -/

namespace Sys2Proof.Machine

section

variable {s : State} {live : List Nat} {fuel n : Nat}

/-! ### The range of a fresh id -/

theorem firstTry_range (n : Nat) : 1 ≤ firstTry n ∧ firstTry n ≤ 65535 := by
  unfold firstTry
  simp only [max16]
  split_ifs <;> omega

theorem freshId_succ (live : List Nat) (fuel n : Nat) : freshId live (fuel + 1) n =
    if live.contains (firstTry n) then freshId live fuel (firstTry n + 1) else firstTry n := rfl

/-- Only the numbers 1 to 65,535 are tried, so that no other number among the live ones matters. -/
theorem freshId_cons_out_of_range {x : Nat} (hx : x = 0 ∨ 65535 < x) (live : List Nat) :
    ∀ fuel n, freshId (x :: live) fuel n = freshId live fuel n
  | 0, _ => rfl
  | fuel + 1, n => by
    have hrange := firstTry_range n
    have hne : (firstTry n == x) = false := beq_false_of_ne (by omega)
    rw [freshId_succ, freshId_succ, List.contains_cons, hne, Bool.false_or, freshId_cons_out_of_range hx live fuel]

theorem freshId_le (live : List Nat) : ∀ fuel n, n ≤ 65536 → freshId live fuel n ≤ 65536
  | 0, _, h => h
  | fuel + 1, n, _ => by
    have hrange := firstTry_range n
    rw [freshId_succ]
    split_ifs
    · exact freshId_le live fuel _ (by omega)
    · omega

/-- With two tries more than live ids, the search ends at an id in range: 0 and 65,536 count as two more live ones. -/
theorem freshId_range (h : live.length + 2 < fuel) (hf : fuel ≤ 65535) (hn : n ≤ 65535) :
    1 ≤ freshId live fuel n ∧ freshId live fuel n ≤ 65535 := by
  have hfresh := freshId_fresh (live := 0 :: 65536 :: live) (n := n) h hf
  rw [freshId_cons_out_of_range (.inl rfl), freshId_cons_out_of_range (.inr (Nat.lt_succ_self _)), List.mem_cons,
    List.mem_cons] at hfresh
  have hle := freshId_le live fuel n (by omega)
  omega

/-- Settles O38: the search for an id has as many tries as there can be live ids, and two more (`freshId_range`). -/
theorem creationTakesFreeMass : Obligations.CreationTakesFreeMass := by
  intro s b wanted h hroom hnext
  have hlive : (s.inv.reservations.map (·.id)).length < 192 := by rwa [List.length_map]
  have hrange := freshId_range (live := s.inv.reservations.map (·.id)) (fuel := 194) (by omega) (by omega) hnext
  have hfresh := freshId_fresh (live := s.inv.reservations.map (·.id)) (fuel := 194) (n := s.inv.nextId) (by omega) (by omega)
  exact ⟨_, rfl, hrange.1, hrange.2, fun r hr hid => hfresh (List.mem_map.2 ⟨r, hr, hid⟩), rfl⟩

end

end Sys2Proof.Machine

/-! PROOFS. Bins on which nothing waits: their definition and lock, their postings with the mark events, and their probes (R34, R35,
R37, R39, R40, R42 to R47). -/

namespace Sys2Proof

theorem Table.set_set {α : Type} (t : Table α) (k : Nat) (v w : α) :
    Table.set (Table.set t k v) k w = Table.set t k w := by
  induction t with
  | nil => simp [Table.set]
  | cons e t ih =>
    obtain ⟨j, x⟩ := e
    rcases lt_trichotomy j k with hlt | rfl | hgt
    · simp [Table.set, hlt.ne, hlt.not_gt, ih]
    · simp [Table.set]
    · simp [Table.set, hgt.ne', hgt]

end Sys2Proof

namespace Sys2Proof.Machine

section

variable {s : State} {b : Nat} {v : Bin} {tag : Byte}

/-! ### Bins under a definition -/

@[simp] theorem State.setBin_bin (s : State) (b : Nat) (v : Bin) : (s.setBin b v).bin b = some v := Table.get_set_self _ _ _

theorem State.setBin_setBin (s : State) (b : Nat) (v w : Bin) : (s.setBin b v).setBin b w = s.setBin b w :=
  congrArg (fun bins => s.setInv { s.inv with bins := bins }) (Table.set_set s.inv.bins b v w)

/-! ### What follows a posting -/

theorem giveBackFrom_unreserved {l : List Reservation} (h : ∀ r ∈ l, r.bin ≠ b) (n : Nat) : giveBackFrom b n l = l := by
  induction l with
  | nil => rfl
  | cons r l ih =>
    obtain ⟨hr, hl⟩ := List.forall_mem_cons.1 h
    rw [giveBackFrom_of_other hr, ih hl]

theorem giveBack_unreserved {l : List Reservation} (h : ∀ r ∈ l, r.bin ≠ b) (onHand : Nat) : giveBack b onHand l = l := by
  rw [giveBack, giveBackFrom_unreserved (fun r hr => h r (List.mem_reverse.1 hr)), List.reverse_reverse]

theorem closeEmpty_unreserved {l : List Reservation} (h : ∀ r ∈ l, r.bin ≠ b) : closeEmpty b l = l :=
  List.filter_eq_self.2 fun r hr => decide_eq_true (.inl (h r hr))

theorem topUpFrom_unreserved {l : List Reservation} (h : ∀ r ∈ l, r.bin ≠ b) (n : Nat) : topUpFrom b n l = (l, []) := by
  induction l with
  | nil => rfl
  | cons r l ih =>
    obtain ⟨hr, hl⟩ := List.forall_mem_cons.1 h
    rw [topUpFrom, if_neg fun hshort => hr hshort.1, ih hl]

theorem topUp_unreserved (h : ∀ r ∈ s.inv.reservations, r.bin ≠ b) : topUp s b = (s, []) := by
  simp only [topUp, topUpFrom_unreserved h]
  rfl

/-- A posting to a bin without reservations has no effect beyond the on-hand but its mark events (R39, R47). -/
theorem finishPosting_unreserved (hv : s.bin b = some v) (h : ∀ r ∈ s.inv.reservations, r.bin ≠ b) (before : Nat)
    (topping : Bool) (cause : LowCause) (clamped : Bool) :
    finishPosting s b before topping cause clamped = (markEvents s b before cause clamped, [.posted b]) := by
  have hsame : s.setInv { s.inv with reservations := s.inv.reservations } = s := rfl
  simp only [finishPosting, hv, giveBack_unreserved h, closeEmpty_unreserved h, hsame, topUp_unreserved h, State.done,
    ite_self, List.nil_append]

/-- A posting tells nobody but the batch in the mixer, when the mill grinds nothing and no press feeds on the bin (R39). -/
theorem handle_posted_unwatched (hgrind : s.currentGrind = none) (hpress : ∀ p, (s.pressAt p).cfg.surgeBin ≠ b) :
    handle (.posted b) s = (s, [.roomCheckAt b]) := by
  simp only [handle, millJudgePosting, hgrind, List.filter_cons, List.filter_nil, decide_eq_false (hpress _), State.done,
    Bool.false_eq_true, if_false, List.map_nil, List.nil_append]

theorem roomCheckAt_no_mixer (h : s.mixerBatch = none) (b : Nat) : handle (.roomCheckAt b) s = (s, []) := by
  simp only [handle, roomCheckAt, h, State.done]

theorem settle_roomCheckAt (h : s.mixerBatch = none) (b : Nat) : settle (s, [.roomCheckAt b]) = some s :=
  settle_inert (Nat.le_of_ble_eq_true rfl) fun t ht => by
    rw [List.mem_singleton.1 ht]
    exact roomCheckAt_no_mixer h b

/-! ### Quiet bins -/

theorem currentGrind_of_mill {t : State} (h : t.mill = s.mill) : t.currentGrind = s.currentGrind := by
  have hgrind : t.grind = s.grind := by funext n; rw [State.grind, State.grind, h]
  rw [State.currentGrind, State.currentGrind, h, hgrind]

theorem State.QuietBin.transport {t : State} (h : s.QuietBin b) (hres : t.inv.reservations = s.inv.reservations)
    (hmill : t.mill = s.mill) (hpress : t.press = s.press) (hline : t.line = s.line) : t.QuietBin b := by
  obtain ⟨hunreserved, hgrind, hsurge, hmixer⟩ := h
  refine ⟨by rwa [hres], ?_, ?_, ?_⟩
  · rwa [currentGrind_of_mill hmill]
  · simpa only [State.pressAt, hpress] using hsurge
  · rwa [State.mixerBatch, hline]

theorem State.QuietBin.markEvents (h : s.QuietBin b) (before : Nat) (cause : LowCause) (clamped : Bool) :
    (Sys2Proof.Machine.markEvents s b before cause clamped).QuietBin b := by
  obtain ⟨r, hr⟩ := markEvents_router s b before cause clamped
  rw [hr]
  exact h.transport rfl rfl rfl rfl

theorem State.QuietBin.settle_posted (h : s.QuietBin b) : settle (s, [.posted b]) = some s := by
  obtain ⟨-, hgrind, hsurge, hmixer⟩ := h
  rw [settle, show Config.cascadeBound = 19998 + 1 + 1 from rfl, runTasks_cons, handle_posted_unwatched hgrind hsurge]
  rw [List.append_nil, runTasks_cons, roomCheckAt_no_mixer hmixer]
  exact runTasks_nil _ _

/-- A posting to a quiet bin ends in its mark events (R39, R47). -/
theorem State.QuietBin.settle_finishPosting (h : s.QuietBin b) (hv : s.bin b = some v) (before : Nat) (topping : Bool)
    (cause : LowCause) (clamped : Bool) :
    settle (finishPosting s b before topping cause clamped) = some (Sys2Proof.Machine.markEvents s b before cause clamped) := by
  rw [finishPosting_unreserved hv h.1]
  exact (h.markEvents before cause clamped).settle_posted

theorem State.QuietBin.setBin (h : s.QuietBin b) (v : Bin) : (s.setBin b v).QuietBin b := h.transport rfl rfl rfl rfl

theorem State.QuietBin.setLink (h : s.QuietBin b) (l : Link) : (s.setLink l).QuietBin b := h.transport rfl rfl rfl rfl

theorem State.QuietBin.takeOffered (h : s.QuietBin b) (e : PlantEvent) : (s.takeOffered e).QuietBin b :=
  h.transport rfl rfl rfl rfl

/-! ### Counts and receipts -/

/-- The bin after a count (R43). -/
def countedBin (v : Bin) (mass tag : Nat) : Bin :=
  { v with
    onHand := mass
    counted := true
    lots := if keepsLots v.cfg.kind = true ∧ 0 < mass then [⟨tag, v.cfg.code, mass, false⟩] else [] }

theorem State.QuietBin.settle_countBin (h : s.QuietBin b) (hv : s.bin b = some v) (mass tag : Nat) :
    settle (countBin s b mass tag) =
      some (Sys2Proof.Machine.markEvents (s.setBin b (countedBin v mass tag)) b v.onHand .drawOrCount false) := by
  simp only [countBin, hv, Bool.and_eq_true, decide_eq_true_eq]
  exact (h.setBin _).settle_finishPosting (State.setBin_bin _ _ _) _ _ _ _

theorem execBinCount_accepted {mass : Nat} {lot : Option Nat} (hroom : s.replyRoom = true) (h : s.QuietBin b)
    (hlow : 1 ≤ b) (hhigh : b ≤ 48) (hv : s.bin b = some v) (hlot : lot.getD 0 ≤ 65535) (hmass : mass ≤ v.cfg.capacity) :
    execBinCount tag b mass lot s = accepted s (.binCount tag b mass lot)
      (fun u => markEvents (u.setBin b (countedBin v mass (lot.getD 0))) b v.onHand .drawOrCount false)
      (fun _ => [.u32 v.onHand]) := by
  have hrange : ¬(b = 0 ∨ Config.binCount < b ∨ max16 < lot.getD 0) := by simp only [Config.binCount, max16]; omega
  refine serve_accepted hroom fun l => ⟨countBin (s.setLink l) b mass (lot.getD 0), fun _ => [.u32 v.onHand], ?_, ?_, rfl⟩
  · simp only [if_neg hrange, State.setLink_bin, hv, if_neg (Nat.not_lt.2 hmass)]
  · exact (h.setLink l).settle_countBin (by exact hv) _ _

theorem execBinCount_refused {mass : Nat} (hroom : s.replyRoom = true) (hlow : 1 ≤ b) (hhigh : b ≤ 48)
    (hv : s.bin b = some v) (hmass : v.cfg.capacity < mass) :
    execBinCount tag b mass none s = refusedWith s (.binCount tag b mass none) .outOfRange 0 := by
  have hrange : ¬(b = 0 ∨ Config.binCount < b ∨ max16 < (none : Option Nat).getD 0) := by
    simp only [Config.binCount, max16, Option.getD_none]; omega
  exact serve_refused hroom fun l => by simp only [if_neg hrange, State.setLink_bin, hv, if_pos hmass]

theorem addPieces_nil (lots : List Lot) (room : Nat) : addPieces lots room [] = lots := rfl

/-- The bin after a receipt: its on-hand rises to its capacity at most, and no lot joins (R40, R42). -/
def receivedBin (v : Bin) (mass : Nat) : Bin := { v with onHand := min (v.onHand + mass) v.cfg.capacity }

theorem fill_of_receipt {mass : Nat} (hv : s.bin b = some v) (hpos : 1 ≤ mass) (hfits : v.onHand ≤ v.cfg.capacity) :
    fill s b mass [] = ⟨finishPosting (s.setBin b (receivedBin v mass)) b v.onHand
        (decide (0 < min mass (v.cfg.capacity - v.onHand))) .drawOrCount (decide (v.cfg.capacity < v.onHand + mass)),
      min mass (v.cfg.capacity - v.onHand), decide (v.cfg.capacity < v.onHand + mass)⟩ := by
  have hsum : v.onHand + min mass (v.cfg.capacity - v.onHand) = min (v.onHand + mass) v.cfg.capacity := by omega
  have hclamped : (v.cfg.capacity - v.onHand < mass) = (v.cfg.capacity < v.onHand + mass) := by
    rw [eq_iff_iff]; omega
  simp only [fill, hv, if_neg (Nat.one_le_iff_ne_zero.1 hpos), addPieces_nil, ite_self, hsum, hclamped]
  rfl

theorem markEvents_bin (s : State) (b before : Nat) (cause : LowCause) (clamped : Bool) :
    (markEvents s b before cause clamped).bin b = s.bin b := by
  rw [State.bin, markEvents_inv, State.bin]

theorem execBinReceive_accepted {mass : Nat} (hroom : s.replyRoom = true) (h : s.QuietBin b) (hlow : 1 ≤ b)
    (hhigh : b ≤ 48) (hv : s.bin b = some v) (hpos : 1 ≤ mass) (hmass : mass ≤ max32)
    (hkind : v.cfg.kind = .raw ∨ v.cfg.kind = .micro) (hfits : v.onHand ≤ v.cfg.capacity) :
    execBinReceive tag b mass s = accepted s (.binReceive tag b mass)
      (fun u => markEvents (u.setBin b (receivedBin v mass)) b v.onHand .drawOrCount
        (decide (v.cfg.capacity < v.onHand + mass)))
      (fun _ => [.u32 (min mass (v.cfg.capacity - v.onHand)), .u8 (flagCode (decide (v.cfg.capacity < v.onHand + mass))),
        .u32 (min (v.onHand + mass) v.cfg.capacity)]) := by
  have hrange : ¬(mass = 0 ∨ max32 < mass) := by omega
  have hreceives : ¬(v.cfg.kind ≠ .raw ∧ v.cfg.kind ≠ .micro) := by tauto
  refine serve_accepted hroom fun l => ?_
  have hfill := fill_of_receipt (s := s.setLink l) (by exact hv) hpos hfits
  refine ⟨(fill (s.setLink l) b mass []).result, fun u => [.u32 (fill (s.setLink l) b mass []).accepted,
    .u8 (flagCode (fill (s.setLink l) b mass []).clamped), .u32 (((u.bin b).map (·.onHand)).getD 0)], ?_, ?_, ?_⟩
  · simp only [if_neg hrange]
    rw [withBin_defined (s := s.setLink l) (v := v) _ hlow hhigh hv, if_neg hreceives]
  · rw [hfill]
    exact ((h.setLink l).setBin _).settle_finishPosting (State.setBin_bin _ _ _) _ _ _ _
  · simp only [hfill, markEvents_bin, State.setBin_bin, Option.map_some, Option.getD_some, receivedBin]

theorem execBinReceive_refused {mass : Nat} (hroom : s.replyRoom = true) (hlow : 1 ≤ b) (hhigh : b ≤ 48)
    (hv : s.bin b = some v) (hpos : 1 ≤ mass) (hmass : mass ≤ max32) (hraw : v.cfg.kind ≠ .raw)
    (hmicro : v.cfg.kind ≠ .micro) :
    execBinReceive tag b mass s = refusedWith s (.binReceive tag b mass) .wrongState 0 := by
  have hrange : ¬(mass = 0 ∨ max32 < mass) := by omega
  refine serve_refused hroom fun l => ?_
  simp only [if_neg hrange]
  rw [withBin_defined (s := s.setLink l) (v := v) _ hlow hhigh hv, if_pos ⟨hraw, hmicro⟩]

/-! ### Mark events -/

/-- The mark event of a fall below the low mark (R47). -/
def lowMarks (v : Bin) (b before : Nat) (cause : LowCause) : List Event :=
  if v.cfg.lowMark ≤ before ∧ v.onHand < v.cfg.lowMark then [.binLow b cause] else []

/-- The mark event of a clamp, or of a rise above the high mark (R47). -/
def highMarks (v : Bin) (b before : Nat) (clamped : Bool) : List Event :=
  if clamped then [.binHigh b .clamped]
  else if before ≤ v.cfg.highMark ∧ v.cfg.highMark < v.onHand then [.binHigh b .markCrossed] else []

theorem markEvents_waiting (hv : s.bin b = some v) (before : Nat) (cause : LowCause) (clamped : Bool) :
    (markEvents s b before cause clamped).router.waiting =
      s.router.waiting ++ lowMarks v b before cause ++ highMarks v b before clamped := by
  simp only [markEvents, hv, lowMarks, highMarks]
  split_ifs <;> simp only [State.raise_waiting, List.append_nil]

/-- Settles O26: a count and a receipt are postings to a quiet bin, which end in their mark events. -/
theorem countAndReceive : Obligations.CountAndReceive := by
  refine ⟨fun s tag bin mass v hroom hquiet hlow hhigh hv => ⟨?_, ?_, ?_, ?_⟩, fun s bin before v cause clamped hv => ?_⟩
  · exact fun lot hlot hmass => execBinCount_accepted hroom hquiet hlow hhigh hv hlot hmass
  · exact fun hmass => execBinCount_refused hroom hlow hhigh hv hmass
  · exact fun hpos hmass hkind hfits => execBinReceive_accepted hroom hquiet hlow hhigh hv hpos hmass hkind hfits
  · exact fun hpos hmass hraw hmicro => execBinReceive_refused hroom hlow hhigh hv hpos hmass hraw hmicro
  · exact ⟨_, _, markEvents_waiting hv before cause clamped, rfl, rfl⟩

/-! ### Probes -/

theorem handle_highCovered_unground (h : s.currentGrind = none) (b : Nat) : handle (.highCovered b) s = (s, []) := by
  simp only [handle, millJudgeProbe, h, State.done]

theorem exec_highProbe_unfilled (hgrind : s.currentGrind = none) (hv : s.bin b = some v)
    (hunfilled : s.beingFilled b = false) : exec (.highProbeCovered b) s =
      .next ((s.takeOffered (.highProbe b)).setBin b { v with highCovered := some true }) := by
  have hbin : (s.takeOffered (.highProbe b)).bin b = some v := hv
  have hcover : highCover (s.takeOffered (.highProbe b)) b =
      ((s.takeOffered (.highProbe b)).setBin b { v with highCovered := some true }, []) := by
    simp only [highCover, State.modBin, hbin]
    exact if_neg (ne_true_of_eq_false hunfilled)
  show outcome ((highCover (s.takeOffered (.highProbe b)) b).andThen fun t => (t, [.highCovered b])) = _
  rw [hcover]
  refine outcome_of_settle (settle_inert (Nat.le_of_ble_eq_true rfl) fun t ht => ?_)
  rw [List.mem_singleton.1 ht]
  exact handle_highCovered_unground (by exact hgrind) b

theorem drawingPress_of_not_surge (h : v.cfg.kind ≠ .surge) : drawingPress s v = none := if_neg h

theorem lowUncover_empty (hv : s.bin b = some v) (hkind : v.cfg.kind ≠ .surge) (hempty : v.onHand = 0) :
    lowUncover s b = (s.setBin b { v with lowCovered := some false }, []) := by
  simp only [lowUncover, hv, drawingPress_of_not_surge hkind, hempty, Nat.lt_irrefl, if_false, State.done]

/-- The bin after its on-hand is written off at an uncovered low probe (R46). -/
def writtenOff (v : Bin) : Bin :=
  { v with
    lowCovered := some false
    onHand := 0
    lots := []
    counted := false
    writeOff := min (v.writeOff + v.onHand) max32 }

theorem lowUncover_stocked (hv : s.bin b = some v) (hkind : v.cfg.kind ≠ .surge) (hpos : 0 < v.onHand) :
    lowUncover s b = finishPosting (s.setBin b (writtenOff v)) b v.onHand false .writeOff false := by
  simp only [lowUncover, hv, drawingPress_of_not_surge hkind, hpos, if_true, writeOff, State.setBin_bin,
    State.setBin_setBin]
  rfl

/-- Settles O27: the probe of a quiet bin shows its state, and a write-off is a posting that ends in its mark events. -/
theorem probeEvents : Obligations.ProbeEvents := by
  intro s b v hquiet hv
  refine ⟨fun hunfilled => exec_highProbe_unfilled hquiet.2.1 hv hunfilled, fun hkind hpos => ?_, fun hkind hempty => ?_⟩
  · show outcome (lowUncover (s.takeOffered (.lowProbe b)) b) = _
    rw [lowUncover_stocked (by exact hv) hkind hpos]
    exact outcome_of_settle (((hquiet.takeOffered _).setBin _).settle_finishPosting (State.setBin_bin _ _ _) _ _ _ _)
  · show outcome (lowUncover (s.takeOffered (.lowProbe b)) b) = _
    rw [lowUncover_empty (by exact hv) hkind hempty, outcome_done]

/-! ### Definition and lock -/

theorem feederFree_speed {output : Nat} (h : ∀ c w, (c, w) ∈ s.inv.bins → w.cfg.feeder ≠ .speed output) (b : Nat) :
    feederFree s b (.speed output) = true := by
  simp only [feederFree, Bool.and_true, List.all_eq_true, decide_eq_true_eq]
  exact fun e he => .inr (h e.1 e.2 he)

/-- The checks 2 to 7 of a definition pass for a new bin whose probes and speed feeder are free (R35). -/
theorem checked_defineChecks_new {d : BinDef} {output : Nat} {verdict : Verdict} (hsave : s.saving = false)
    (hnew : s.bin b = none) (hrework : d.kind = .rework → s.reworkBin = none) (hprobes : probesFree s b d = true)
    (hspeed : d.feeder = .speed output) (hfeeder : ∀ c w, (c, w) ∈ s.inv.bins → w.cfg.feeder ≠ .speed output) :
    checked (defineChecks s b d) verdict = verdict := by
  have hkind : decide (d.kind ≠ .rework ∨ s.reworkBin = none ∨ s.reworkBin = some b) = true :=
    decide_eq_true ((Decidable.em (d.kind = .rework)).elim (fun h => .inr (.inl (hrework h))) .inl)
  have hfree : feederFree s b d.feeder = true := hspeed ▸ feederFree_speed hfeeder b
  simp only [defineChecks, hnew, hsave, hkind, hprobes, hfree]
  rfl

theorem defineBin_new {d : BinDef} {output : Nat} (hnew : s.bin b = none) (hspeed : d.feeder = .speed output) :
    defineBin s b d = s.setBin b (bootBin d d.inflight) := by
  simp only [defineBin, hnew, Option.map_none, hspeed, takeFeeder, redefined]

theorem execBinDefine_new {f : BinFields} {kind : BinKind} {outlet : Outlet} {output : Nat} (hroom : s.replyRoom = true)
    (hmixer : s.mixerBatch = none) (hlow : 1 ≤ b) (hhigh : b ≤ 48) (hsave : s.saving = false) (hnew : s.bin b = none)
    (hnone : f.kind ≠ 6) (hkind : binKindOf f.kind = some kind) (houtlet : outletOf f.outlet = some outlet)
    (hspeed : feederOf f.feederType f.feederNumber = some (.speed output))
    (hchecks : ∀ ok ∈ binChecks f (some kind) (some outlet) ((outletScale outlet).map (fun sc => (s.chan sc).cfg.fmax)),
      ok = true)
    (hrework : kind = .rework → s.reworkBin = none)
    (hprobes : probesFree s b (binDefOf f kind outlet (.speed output)) = true)
    (hfeeder : ∀ c w, (c, w) ∈ s.inv.bins → w.cfg.feeder ≠ .speed output) :
    execBinDefine tag b f s = accepted s (.binDefine tag b f)
      (fun u => u.setBin b (bootBin (binDefOf f kind outlet (.speed output)) f.inflight)) (fun _ => []) := by
  have hnumber : decide (1 ≤ b ∧ b ≤ Config.binCount) = true := decide_eq_true ⟨hlow, hhigh⟩
  refine serve_accepted hroom fun l => ⟨(defineBin (s.setLink l) b (binDefOf f kind outlet (.speed output)),
    [.roomCheckAt b]), fun _ => [], ?_, ?_, rfl⟩
  · simp only [judgeDefine]
    rw [if_neg hnone]
    simp only [hkind, houtlet, hspeed, hnumber, Option.bind_some, State.setLink_chan, firstFailing_of_all hchecks]
    exact checked_defineChecks_new (s := s.setLink l) (output := output) hsave hnew hrework hprobes rfl hfeeder
  · rw [defineBin_new (s := s.setLink l) (output := output) hnew rfl]
    exact settle_roomCheckAt (s := (s.setLink l).setBin b _) hmixer b

theorem withBin_undefined (f : Bin → Verdict) (hlow : 1 ≤ b) (hhigh : b ≤ Config.binCount) (hnew : s.bin b = none) :
    withBin s b f = .refuse .noSuch 0 := by
  unfold withBin
  rw [if_neg (by omega), hnew]

theorem execBinLock_accepted (hroom : s.replyRoom = true) (hmixer : s.mixerBatch = none) (hlow : 1 ≤ b) (hhigh : b ≤ 48)
    (hv : s.bin b = some v) : execBinLock tag b s = accepted s (.binLock tag b)
      (fun u => u.setBin b { v with locked := true }) (fun _ => [.u8 (flagCode v.locked)]) :=
  serve_accepted hroom fun l => ⟨((s.setLink l).setBin b { v with locked := true }, [.roomCheckAt b]), _,
    withBin_defined (s := s.setLink l) (v := v) _ hlow hhigh hv, settle_roomCheckAt (by exact hmixer) b, rfl⟩

theorem execBinUnlock_accepted (hroom : s.replyRoom = true) (hmixer : s.mixerBatch = none) (hlow : 1 ≤ b) (hhigh : b ≤ 48)
    (hv : s.bin b = some v) : execBinUnlock tag b s = accepted s (.binUnlock tag b)
      (fun u => u.setBin b { v with locked := false }) (fun _ => [.u8 (flagCode v.locked)]) :=
  serve_accepted hroom fun l => ⟨((s.setLink l).setBin b { v with locked := false }, [.roomCheckAt b]), _,
    withBin_defined (s := s.setLink l) (v := v) _ hlow hhigh hv, settle_roomCheckAt (by exact hmixer) b, rfl⟩

/-- Settles O25: every check passes, and the room check that follows finds no batch in the mixer. -/
theorem binDefineAndLock : Obligations.BinDefineAndLock := by
  intro s tag b hroom hmixer hlow hhigh
  refine ⟨fun f kind outlet output hsave hnew hnone hkind houtlet hspeed hchecks hrework hprobes hfeeder =>
    execBinDefine_new hroom hmixer hlow hhigh hsave hnew hnone hkind houtlet hspeed hchecks hrework hprobes hfeeder,
    fun v hv => ⟨execBinLock_accepted hroom hmixer hlow hhigh hv, execBinUnlock_accepted hroom hmixer hlow hhigh hv⟩,
    fun hnew => ⟨?_, ?_⟩⟩
  · show execBinLock tag b s = _
    exact serve_refused hroom fun l => withBin_undefined (s := s.setLink l) _ hlow hhigh hnew
  · show execBinUnlock tag b s = _
    exact serve_refused hroom fun l => withBin_undefined (s := s.setLink l) _ hlow hhigh hnew

end

end Sys2Proof.Machine

/-! PROOFS. What the operator does about a held batch, and the timers of a batch in the mixer (R40, R48, R102, R104 to R109, R113). -/

namespace Sys2Proof.Machine

section

variable {s : State} {b : Batch} {tag : Byte} {number : Nat}

/-! ### Live batches -/

theorem batch_number {n : Nat} (h : s.batch n = some b) : b.number = n := by
  simpa using List.find?_some h

theorem State.batch_putBatch {x : Batch} {n : Nat} (h : s.batch n = some b) (hx : x.number = b.number) :
    (s.putBatch x).batch n = some x := by
  have hnumber : ∀ y : Batch, (if y.number = x.number then x else y).number = y.number := fun y => by
    split_ifs with hy
    · exact hy.symm
    · rfl
  have hfind : (s.line.batches.map (fun y => if y.number = x.number then x else y)).find? (fun y => decide (y.number = n)) =
      (s.line.batches.find? (fun y => decide (y.number = n))).map (fun y => if y.number = x.number then x else y) := by
    simp only [List.find?_map, Function.comp_def, hnumber]
  refine hfind.trans ?_
  rw [show s.line.batches.find? _ = some b from h, Option.map_some, if_pos hx.symm]

theorem State.putBatch_only {x : Batch} (h : s.line.batches = [b]) (hx : x.number = b.number) :
    s.putBatch x = s.setLine { s.line with batches := [x] } := by
  simp only [State.putBatch, State.mapBatches, h, List.map_cons, List.map_nil, hx, if_true]

theorem State.putBatch_only_batches {x : Batch} (h : s.line.batches = [b]) (hx : x.number = b.number) :
    (s.putBatch x).line.batches = [x] := by
  rw [State.putBatch_only h hx]
  rfl

theorem State.putBatch_putBatch_only {x y : Batch} (h : s.line.batches = [b]) (hx : x.number = b.number)
    (hy : y.number = b.number) : (s.putBatch x).putBatch y = s.putBatch y := by
  rw [State.putBatch_only (State.putBatch_only_batches h hx) (hy.trans hx.symm), State.putBatch_only h hx, State.putBatch_only h hy]
  rfl

/-! ### HAND_DONE -/

theorem handWaits_of_dose {d : OpenDose} {i : Nat} (hdose : (s.chan .micro).dose = some d) (hstate : d.state = .handWait)
    (hreq : d.order.requester = .batchMicro number i) : handWaits s number = true := by
  simp only [handWaits, State.batchDoseOn, hdose, hreq, hstate, decide_true, Bool.and_self]

theorem handWaits_of_not (h : s.batchDoseOn number .micro = false) : handWaits s number = false := by
  simp only [handWaits, h, Bool.false_and]

theorem execHandDone_accepted {d : OpenDose} {i : Nat} (hroom : s.replyRoom = true) (hb : s.batch number = some b)
    (hdose : (s.chan .micro).dose = some d) (hstate : d.state = .handWait) (hhand : d.order.bin = none)
    (hreq : d.order.requester = .batchMicro number i) :
    execHandDone tag number s = accepted s (.handDone tag number)
      (fun u => u.setChan .micro { u.chan .micro with dose := some { d with
        state := .settling, timer := some (s.chan .micro).cfg.settleTime, nets := [] } }) (fun _ => []) := by
  refine serve_plainly hroom fun l => ?_
  rw [withBatch_live (s := s.setLink l) _ hb, handWaits_of_dose (s := s.setLink l) hdose hstate hreq, checked_pass,
    checked_nil, handReady_waiting (s := s.setLink l) hdose hstate, enterSettling_of_hand hhand]
  rfl

theorem execHandDone_refused (hroom : s.replyRoom = true) (hb : s.batch number = some b)
    (hno : s.batchDoseOn number .micro = false) :
    execHandDone tag number s = refusedWith s (.handDone tag number) .wrongState 0 := by
  refine serve_refused hroom fun l => ?_
  rw [withBatch_live (s := s.setLink l) _ hb, handWaits_of_not (s := s.setLink l) hno, checked_fail]

/-! ### STEP_RESUME -/

/-- Step `i` of the live batch `number` is the held entry `e`, and no Line Stop is in force. -/
structure HeldStep (s : State) (number : Nat) (b : Batch) (i : Nat) (e : StepEntry) (reason : StepReason) : Prop where
  live : s.batch number = some b
  low : 1 ≤ i
  high : i ≤ 24
  entry : b.steps[i - 1]? = some e
  held : e.status = .held reason
  running : s.stopped = false

/-- Another step than `i` of a batch is held too. -/
def OtherHeld (b : Batch) (i : Nat) : Prop :=
  ∃ j f, 1 ≤ j ∧ i ≠ j ∧ b.steps[j - 1]? = some f ∧ f.isHeld = true

variable {i : Nat} {e : StepEntry} {reason : StepReason} {act : StepAction}

theorem resolveStep_number (b : Batch) (i : Nat) (e : StepEntry) (act : StepAction) :
    (resolveStep b i e act).number = b.number := by cases act <;> rfl

theorem resolveStep_steps (b : Batch) (i : Nat) (e : StepEntry) (act : StepAction) :
    ∃ x, (resolveStep b i e act).steps = b.steps.set (i - 1) x := by cases act <;> exact ⟨_, rfl⟩

/-- A step that is resolved leaves the other steps as they are. -/
theorem resolveStep_anyHeld (hlow : 1 ≤ i) (h : OtherHeld b i) (e : StepEntry) (act : StepAction) :
    (resolveStep b i e act).steps.any StepEntry.isHeld = true := by
  obtain ⟨j, f, hj, hne, hf, hheld⟩ := h
  obtain ⟨x, hx⟩ := resolveStep_steps b i e act
  have hstays : (b.steps.set (i - 1) x)[j - 1]? = some f := by
    rw [List.getElem?_set_ne (by omega), hf]
  exact List.any_eq_true.2 ⟨f, List.mem_of_getElem? (hx ▸ hstays), hheld⟩

theorem leaveStepHold_held (hb : s.batch number = some b) (h : b.steps.any StepEntry.isHeld = true) :
    leaveStepHold s number = (s, []) := by
  simp only [leaveStepHold, hb, h, if_true, State.done]

theorem closeHeld_dead {o : Holder} {id : Option Nat} (h : ∀ n, id = some n → s.claim o n = none) :
    closeHeld s o id = (s, []) := by
  cases id with
  | none => rfl
  | some n => simp only [closeHeld, closeClaim, h n rfl, Option.isSome_none, Bool.false_eq_true, if_false, State.done]

/-- While another step is held the batch stays HELD, and nothing follows (R103, R104). -/
theorem resumeStep_otherHeld (hb : s.batch b.number = some b) (hlow : 1 ≤ i) (h : OtherHeld b i)
    (hdead : act ≠ .retry → ∀ id, e.reservation = some id → s.claim (.batchStep b.number i) id = none) :
    resumeStep s b i e act = (s.putBatch (resolveStep b i e act), []) := by
  have hclosed : (if act = .retry then (s.putBatch (resolveStep b i e act)).done
      else closeHeld (s.putBatch (resolveStep b i e act)) (.batchStep b.number i) e.reservation) =
      (s.putBatch (resolveStep b i e act), []) := by
    split_ifs with hretry
    · rfl
    · exact closeHeld_dead (hdead hretry)
  simp only [resumeStep, hclosed, Result.andThen, List.nil_append]
  rw [leaveStepHold_held (State.batch_putBatch hb (resolveStep_number b i e act)) (resolveStep_anyHeld hlow h e act)]

theorem HeldStep.isHeld (h : HeldStep s number b i e reason) : e.isHeld = true := by
  simp only [StepEntry.isHeld, h.held]

theorem HeldStep.accepted {action : Nat} (h : HeldStep s number b i e reason) (hroom : s.replyRoom = true)
    (hact : stepActionOf action = some act) (hover : reason ≠ .overWeight ∨ act = .accept)
    (hless : act ≠ .retry ∨ e.actual < e.target) (hother : OtherHeld b i)
    (hdead : act ≠ .retry → ∀ id, e.reservation = some id → s.claim (.batchStep b.number i) id = none) :
    execStepResume tag number i action s = Sys2Proof.Machine.accepted s (.stepResume tag number i action)
      (fun u => u.putBatch (resolveStep b i e act)) (fun _ => []) := by
  have hrange : decide (1 ≤ i ∧ i ≤ Config.stepCap) = true := decide_eq_true ⟨h.low, h.high⟩
  have hover' : decide (e.status ≠ .held .overWeight ∨ act = .accept) = true :=
    decide_eq_true (hover.imp_left fun hne hstatus => hne (StepStatus.held.inj (h.held.symm.trans hstatus)))
  have hless' : decide (act ≠ .retry ∨ 1 ≤ e.target - e.actual) = true :=
    decide_eq_true (hless.imp_right fun hlt => by omega)
  refine serve_plainly hroom fun l => ?_
  simp only [hact, hrange, checked_pass, checked_nil]
  rw [withBatch_live (s := s.setLink l) _ h.live]
  simp only [h.entry, State.setLink_stopped, h.running, h.isHeld, hover', hless', Bool.not_false, checked_pass, checked_nil]
  rw [resumeStep_otherHeld (s := s.setLink l) (by rw [batch_number h.live]; exact h.live) h.low hother hdead]
  rfl

/-- A step held OVER_WEIGHT can only be accepted (R104). -/
theorem HeldStep.refused {action : Nat} (h : HeldStep s number b i e .overWeight) (hroom : s.replyRoom = true)
    (hact : stepActionOf action = some act) (hne : act ≠ .accept) :
    execStepResume tag number i action s = refusedWith s (.stepResume tag number i action) .wrongState 0 := by
  have hrange : decide (1 ≤ i ∧ i ≤ Config.stepCap) = true := decide_eq_true ⟨h.low, h.high⟩
  have hover : decide (e.status ≠ .held .overWeight ∨ act = .accept) = false :=
    decide_eq_false (not_or.2 ⟨not_not.2 h.held, hne⟩)
  refine serve_refused hroom fun l => ?_
  simp only [hact, hrange, checked_pass, checked_nil]
  rw [withBatch_live (s := s.setLink l) _ h.live]
  simp only [h.entry, State.setLink_stopped, h.running, h.isHeld, hover, Bool.not_false, checked_pass, checked_fail]

/-! ### BATCH_ABANDON -/

theorem abandoned_of_over (hover : ∀ e ∈ b.steps, e.status = .done ∨ e.status = .skipped) (rework : Nat) :
    abandoned b rework = { b with abandoned := true, destination := rework } := by
  have hopen : ∀ e ∈ b.steps, decide (e.status ≠ .done ∧ e.status ≠ .skipped) = false := fun e he =>
    decide_eq_false fun h => (hover e he).elim h.1 h.2
  have hnone : b.steps.filter (fun e => decide (e.status ≠ .done ∧ e.status ≠ .skipped)) = [] :=
    List.filter_eq_nil_iff.2 fun e he => ne_true_of_eq_false (hopen e he)
  have hsame : b.steps.map (fun e => if decide (e.status ≠ .done ∧ e.status ≠ .skipped) = true
      then { e with status := .skipped } else e) = b.steps :=
    (List.map_congr_left fun e he => if_neg (ne_true_of_eq_false (hopen e he))).trans (List.map_id _)
  simp only [abandoned, hnone, hsame, List.map_nil, List.sum_nil, Nat.add_zero]

theorem dosingStep_of_over (hover : ∀ e ∈ b.steps, e.status = .done ∨ e.status = .skipped) (sc : Scale) :
    b.dosingStep sc = none := by
  refine List.find?_eq_none.2 fun x hx hdosing => ?_
  have hmem : x.2 ∈ b.steps := (List.of_mem_zip hx).2
  have hstatus : x.2.status = .dosing := (of_decide_eq_true hdosing).2
  rcases hover x.2 hmem with h | h <;> rw [h] at hstatus <;> cases hstatus

theorem endStepTransfers_of_over (hover : ∀ e ∈ b.steps, e.status = .done ∨ e.status = .skipped) :
    endStepTransfers s b = (s, []) := by
  simp only [endStepTransfers, List.foldl_cons, List.foldl_nil, dosingStep_of_over hover, State.done]

theorem closeAll_dead {claims : List (Holder × Nat)} (h : ∀ c ∈ claims, s.claim c.1 c.2 = none) :
    closeAll s claims = (s, []) := by
  induction claims with
  | nil => rfl
  | cons c claims ih =>
    obtain ⟨hc, hclaims⟩ := List.forall_mem_cons.1 h
    have hclosed : closeClaim s c.1 c.2 = (s, []) := by
      simp only [closeClaim, hc, Option.isSome_none, Bool.false_eq_true, if_false, State.done]
    rw [closeAll, List.foldl_cons]
    simp only [State.done, Result.andThen, hclosed, List.nil_append]
    exact ih hclaims

/-- The batch as it goes to rework, its steps over (R113). -/
def toRework (b : Batch) (rework : Nat) : Batch := { b with abandoned := true, destination := rework }

theorem goOnAbandoned_discharging {reason : BatchReason} (hstate : b.state = .held .discharging reason) :
    goOnAbandoned s b = resumeMixer s b .discharging := by
  simp only [goOnAbandoned, hstate]

/-- A batch held in DISCHARGING, its steps over and its claims gone, goes on discharging, bound for rework (R113). -/
theorem abandonBatch_discharging {reason : BatchReason} (hstate : b.state = .held .discharging reason)
    (hover : ∀ e ∈ b.steps, e.status = .done ∨ e.status = .skipped) (hdead : ∀ c ∈ b.claims, s.claim c.1 c.2 = none)
    (rework : Nat) : abandonBatch s b rework =
      (askGates (((s.putBatch (toRework b rework)).ask .mixerMotor true).putBatch { toRework b rework with
        state := .discharging, timer := some (.discharge s.line.times.discharge) }) b true, []) := by
  have hclosed : closeAll (s.putBatch (abandoned b rework)) b.claims = (s.putBatch (abandoned b rework), []) :=
    closeAll_dead hdead
  rw [abandonBatch, endStepTransfers_of_over hover]
  simp only [Result.andThen, hclosed, List.nil_append]
  rw [abandoned_of_over hover, goOnAbandoned_discharging (by exact hstate)]
  rfl

theorem execBatchAbandon_discharging {reason : BatchReason} {rework : Nat} (hroom : s.replyRoom = true)
    (hb : s.batch number = some b) (hstate : b.state = .held .discharging reason) (hrunning : s.stopped = false)
    (hrework : s.reworkBin = some rework) (hdose : s.batchDoseOpen number = false)
    (hover : ∀ e ∈ b.steps, e.status = .done ∨ e.status = .skipped) (hdead : ∀ c ∈ b.claims, s.claim c.1 c.2 = none) :
    execBatchAbandon tag number s = accepted s (.batchAbandon tag number)
      (fun u => askGates (((u.putBatch (toRework b rework)).ask .mixerMotor true).putBatch { toRework b rework with
        state := .discharging, timer := some (.discharge s.line.times.discharge) }) b true)
      (fun _ => [.u32 b.total]) := by
  refine serve_plainly hroom fun l => ?_
  have hdose' : (s.setLink l).batchDoseOpen number = false := hdose
  rw [withBatch_live (s := s.setLink l) _ hb]
  simp only [hstate, State.setLink_stopped, hrunning, hdose', Bool.not_false, checked_pass, checked_nil,
    State.setLink_reworkBin, hrework]
  rw [abandonBatch_discharging (s := s.setLink l) hstate hover hdead, abandoned_of_over hover]
  rfl

/-! ### The end of a transfer under other updates -/

@[simp] theorem transferEnded_line (s : State) (o : Owner) : (transferEnded s o).line = s.line := by rw [transferEnded_eq]; rfl
@[simp] theorem transferEnded_mill (s : State) (o : Owner) : (transferEnded s o).mill = s.mill := by rw [transferEnded_eq]; rfl
@[simp] theorem transferEnded_press (s : State) (o : Owner) : (transferEnded s o).press = s.press := by
  rw [transferEnded_eq]; rfl

theorem transferEnded_reservations (s : State) (o : Owner) :
    (transferEnded s o).inv.reservations = s.inv.reservations := by
  rw [transferEnded_eq]
  exact Inventory.ended_reservations _ _ _

theorem transferEnded_waiting (h : s.arb.waiting = []) (o : Owner) : (transferEnded s o).arb.waiting = [] := by
  rw [transferEnded_eq]
  exact Arbiter.ended_waiting o h

theorem transferEnded_takeOffered (s : State) (x : PlantEvent) (o : Owner) :
    transferEnded (s.takeOffered x) o = (transferEnded s o).takeOffered x := by
  have hof : (s.takeOffered x).transferOf o = s.transferOf o := rfl
  unfold transferEnded
  rw [hof]
  cases s.transferOf o with
  | none => rfl
  | some t =>
    simp only [dropOutputs_eq]
    rfl

theorem markEvents_takeOffered (s : State) (x : PlantEvent) (bin before : Nat) (cause : LowCause) (clamped : Bool) :
    markEvents (s.takeOffered x) bin before cause clamped = (markEvents s bin before cause clamped).takeOffered x := by
  have hbin : (s.takeOffered x).bin bin = s.bin bin := rfl
  unfold markEvents
  rw [hbin]
  cases s.bin bin with
  | none => rfl
  | some v =>
    dsimp only
    split_ifs <;> rfl

/-! ### A hold in the mixer -/

/-- The batch held in the mixer, its transfer ended (R109). -/
def mixerHeld (s : State) (b : Batch) (phase : BatchPhase) (reason : BatchReason) : State :=
  ((transferEnded s .batchRelease).putBatch { b with
    state := .held phase reason, timer := none, waitCause := none }).raise (.batchHeld b.number reason phase)

theorem outcome_holdMixer (hwaiting : s.arb.waiting = []) (b : Batch) (phase : BatchPhase) (reason : BatchReason) :
    outcome (holdMixer s b phase reason) = .next (mixerHeld s b phase reason) := by
  have hfst : (holdMixer s b phase reason).1 = mixerHeld s b phase reason := by
    rw [holdMixer, endTransfer_fst]
    rfl
  refine outcome_of_settle ?_
  rw [show holdMixer s b phase reason = ((holdMixer s b phase reason).1, (endTransfer s .batchRelease).2) from rfl, hfst]
  exact settle_ended (transferEnded_waiting hwaiting _)

theorem find_only {p : Batch → Bool} (hline : s.line.batches = [b]) (hp : p b = true) :
    s.line.batches.find? p = some b := by
  rw [hline, List.find?_cons_of_pos hp]

theorem askGates_waiting (s : State) (b : Batch) (on : Bool) : (askGates s b on).arb.waiting = s.arb.waiting := by
  unfold askGates
  dsimp only
  split_ifs <;> rfl

theorem exec_dischargeTimeout_only {left : Tenths} (hline : s.line.batches = [b]) (hwaiting : s.arb.waiting = [])
    (hstate : b.state = .discharging) (htimer : b.timer = some (.discharge left)) :
    exec .dischargeTimeout s = .next (mixerHeld (askGates s b false) b .discharging .discharge) := by
  show outcome (dischargeExpiry s) = _
  rw [dischargeExpiry, find_only hline (decide_eq_true hstate)]
  simp only [htimer]
  exact outcome_holdMixer ((askGates_waiting s b false).trans hwaiting) b _ _

/-! ### The end of mixing -/

/-- The batch in MIXED, as the room check leaves it (R106, R107). -/
def mixedFor (b : Batch) (cause : Option WaitCause) : Batch :=
  { b with state := .mixed, timer := none, mixLeft := 0, waitCause := cause }

/-- The only batch, newly MIXED, waits for what the room check finds (R107). -/
theorem roomCheck_newlyMixed {cause : WaitCause} (hline : s.line.batches = [mixedFor b none])
    (hcause : roomCause s (mixedFor b none) = some cause) :
    roomCheck s = (s.putBatch (mixedFor b (some cause)), []) := by
  have hmixer : s.mixerBatch = some (mixedFor b none) := find_only hline rfl
  have hmixed : (mixedFor b none).state = .mixed ∧ (mixedFor b none).waitCause ≠ some .transfer := ⟨rfl, nofun⟩
  simp only [roomCheck, hmixer, roomCheckOf, if_pos hmixed, hcause]
  rfl

theorem exec_mixTimeout_only {left : Tenths} {cause : WaitCause} (hline : s.line.batches = [b]) (hstate : b.state = .mixing)
    (htimer : b.timer = some (.mix left))
    (hcause : roomCause (s.putBatch (mixedFor b none)) (mixedFor b none) = some cause) :
    exec .mixTimeout s = .next (s.putBatch (mixedFor b (some cause))) := by
  have hexpiry : mixExpiry s = (s.putBatch (mixedFor b none), [.roomCheck]) := by
    rw [mixExpiry, find_only hline (decide_eq_true hstate)]
    simp only [htimer]
    rfl
  show outcome (mixExpiry s) = _
  refine outcome_of_settle ?_
  rw [hexpiry, settle, show Config.cascadeBound = 19999 + 1 from rfl, runTasks_cons,
    show handle .roomCheck _ = _ from roomCheck_newlyMixed (State.putBatch_only_batches hline rfl) hcause]
  refine (runTasks_nil _ _).trans (congrArg some ?_)
  exact State.putBatch_putBatch_only hline rfl rfl

theorem roomCause_noDestination (hrunning : s.stopped = false) (hbin : s.bin b.destination = none) :
    roomCause s b = some .noDestination := by
  simp only [roomCause, hrunning, Bool.false_eq_true, if_false, hbin]

theorem roomCause_room {v : Bin} (hrunning : s.stopped = false) (hbin : s.bin b.destination = some v)
    (hlocked : v.locked = false) (hkind : v.cfg.kind = .surge ∨ v.cfg.kind = .rework)
    (hroom : v.cfg.capacity - v.onHand < b.total) : roomCause s b = some .room := by
  have hmismatch : ¬(v.cfg.kind ≠ .surge ∧ v.cfg.kind ≠ .rework ∧ v.cfg.kind ≠ .finished) := fun h =>
    hkind.elim h.1 h.2.1
  have hfinished : ¬(v.cfg.kind = .finished ∧ v.cfg.code ≠ b.product) := fun h => by
    rcases hkind with hk | hk <;> rw [hk] at h <;> cases h.1
  simp only [roomCause, hrunning, Bool.false_eq_true, if_false, hbin, hlocked, if_neg hmismatch, if_neg hfinished,
    if_pos hroom]

/-! ### The end of a release -/

/-- The destination after the fill of a release that its room takes whole (R40, R48). -/
def releasedInto (b : Batch) (w : Bin) : Bin :=
  { w with
    onHand := w.onHand + b.total
    lots := if keepsLots w.cfg.kind then addPiece w.lots ⟨b.lotTag, b.product, b.total⟩ else w.lots }

/-- The completion record of a release that its destination takes whole (R108). -/
def wholeCompletion (b : Batch) : Completion :=
  ⟨b.number, b.formula, b.lotTag, b.destination, b.total, b.total, false, b.abandoned,
    b.steps.map (fun e => (e.status, e.actual))⟩

/-- The state after a release into the bin `w`, from the state `v` in which its transfer has ended (R108). -/
def releasedFrom (v : State) (b : Batch) (w : Bin) : State :=
  ((((markEvents (v.setBin b.destination (releasedInto b w)) b.destination w.onHand .drawOrCount false).setLine
    { v.line with completion := some (wholeCompletion b) }).raise (.batchDone b.number b.lotTag)).dropBatch b.number).ask
      .mixerMotor false

theorem addPieces_one (lots : List Lot) (p : Piece) : addPieces lots p.mass [p] = addPiece lots p := by
  simp only [addPieces, cutPieces, Nat.min_self, List.foldl_cons, List.foldl_nil]

theorem fill_of_release {v : State} {w : Bin} (hw : v.bin b.destination = some w) (hpos : 0 < b.total)
    (hfits : w.onHand + b.total ≤ w.cfg.capacity) (hres : ∀ r ∈ v.inv.reservations, r.bin ≠ b.destination) :
    fill v b.destination b.total [⟨b.lotTag, b.product, b.total⟩] =
      ⟨(markEvents (v.setBin b.destination (releasedInto b w)) b.destination w.onHand .drawOrCount false,
        [.posted b.destination]), b.total, false⟩ := by
  have htaken : min b.total (w.cfg.capacity - w.onHand) = b.total := by omega
  have hclamped : decide (w.cfg.capacity - w.onHand < b.total) = false := decide_eq_false (by omega)
  have hlots : addPieces w.lots b.total [⟨b.lotTag, b.product, b.total⟩] = addPiece w.lots ⟨b.lotTag, b.product, b.total⟩ :=
    addPieces_one w.lots ⟨b.lotTag, b.product, b.total⟩
  simp only [fill, hw, if_neg hpos.ne', htaken, hclamped, hlots]
  rw [finishPosting_unreserved (State.setBin_bin _ _ _) (by exact hres)]
  rfl

theorem finishRelease_whole {v : State} {w : Bin} (hline : v.line.batches = [b]) (hw : v.bin b.destination = some w)
    (hpos : 0 < b.total) (hfits : w.onHand + b.total ≤ w.cfg.capacity)
    (hres : ∀ r ∈ v.inv.reservations, r.bin ≠ b.destination) :
    finishRelease v b.number = (releasedFrom v b w, [.posted b.destination, .tryDischarge]) := by
  have hb : v.batch b.number = some b := find_only hline (decide_eq_true rfl)
  have hmarked : ∀ u : State, (markEvents u b.destination w.onHand .drawOrCount false).line = u.line := fun u => by
    obtain ⟨r, hr⟩ := markEvents_router u b.destination w.onHand .drawOrCount false
    rw [hr, State.setRouter_line]
  simp only [finishRelease, hb, fill_of_release hw hpos hfits hres, hmarked]
  rfl

theorem releasedFrom_batches {v : State} (hline : v.line.batches = [b]) (w : Bin) :
    (releasedFrom v b w).line.batches = [] := by
  show v.line.batches.filter (fun x => decide (x.number ≠ b.number)) = []
  simp [hline]

/-- With no batch left, no batch follows into the mixer (R96). -/
theorem tryDischarge_empty (h : s.line.batches = []) : tryDischarge s = (s, []) := by
  simp only [tryDischarge, State.mixerBatch, h, List.find?_nil, State.done, ite_self]

/-- What follows a release into a bin on which neither mill nor press waits runs to nothing. -/
theorem runTasks_released {fuel : Nat} {bin : Nat} (hgrind : s.currentGrind = none)
    (hpress : ∀ p, (s.pressAt p).cfg.surgeBin ≠ bin) (hline : s.line.batches = []) :
    runTasks (fuel + 3) [.posted bin, .tryDischarge] s = some s := by
  have hmixer : s.mixerBatch = none := by rw [State.mixerBatch, hline, List.find?_nil]
  rw [runTasks_cons, handle_posted_unwatched hgrind hpress, List.singleton_append, runTasks_cons,
    roomCheckAt_no_mixer hmixer, List.nil_append, runTasks_cons, show handle .tryDischarge s = _ from tryDischarge_empty hline]
  exact runTasks_nil _ _

theorem markEvents_mill (s : State) (bin before : Nat) (cause : LowCause) (clamped : Bool) :
    (markEvents s bin before cause clamped).mill = s.mill := by
  obtain ⟨r, hr⟩ := markEvents_router s bin before cause clamped
  rw [hr, State.setRouter_mill]

theorem markEvents_press (s : State) (bin before : Nat) (cause : LowCause) (clamped : Bool) :
    (markEvents s bin before cause clamped).press = s.press := by
  obtain ⟨r, hr⟩ := markEvents_router s bin before cause clamped
  rw [hr, State.setRouter_press]

theorem releasedFrom_mill (v : State) (b : Batch) (w : Bin) : (releasedFrom v b w).mill = v.mill :=
  markEvents_mill (v.setBin _ _) _ _ _ _

theorem releasedFrom_press (v : State) (b : Batch) (w : Bin) : (releasedFrom v b w).press = v.press :=
  markEvents_press (v.setBin _ _) _ _ _ _

/-- A release completes: its transfer ends, and the fill, the record and the end of the batch follow (R108). -/
theorem outcome_completeRelease {w : Bin} (hline : s.line.batches = [b]) (hwaiting : s.arb.waiting = [])
    (hw : (transferEnded s .batchRelease).bin b.destination = some w) (hpos : 0 < b.total)
    (hfits : w.onHand + b.total ≤ w.cfg.capacity) (hres : ∀ r ∈ s.inv.reservations, r.bin ≠ b.destination)
    (hgrind : s.currentGrind = none) (hpress : ∀ p, (s.pressAt p).cfg.surgeBin ≠ b.destination) :
    outcome (completeRelease s b) = .next (releasedFrom (transferEnded s .batchRelease) b w) := by
  have hended : (transferEnded s .batchRelease).line.batches = [b] := by rw [transferEnded_line, hline]
  have hfinish := finishRelease_whole hended hw hpos hfits (by rwa [transferEnded_reservations])
  have hgrind' : (releasedFrom (transferEnded s .batchRelease) b w).currentGrind = none := by
    rw [currentGrind_of_mill ((releasedFrom_mill _ _ _).trans (transferEnded_mill s _)), hgrind]
  have hpress' : ∀ p, ((releasedFrom (transferEnded s .batchRelease) b w).pressAt p).cfg.surgeBin ≠ b.destination := by
    simpa only [State.pressAt, releasedFrom_press, transferEnded_press] using hpress
  have hrun : runTasks 19999 [.finishRelease b.number] (transferEnded s .batchRelease) =
      some (releasedFrom (transferEnded s .batchRelease) b w) := by
    rw [show 19999 = 19998 + 1 from rfl, runTasks_cons, show handle (.finishRelease b.number) _ = _ from hfinish]
    exact runTasks_released (fuel := 19995) hgrind' hpress' (releasedFrom_batches hended w)
  refine outcome_of_settle ?_
  rw [completeRelease, endTransfer_fst, settle]
  exact runTasks_ended (fuel := 19999) (transferEnded_waiting hwaiting _) hrun

theorem releasedFrom_takeOffered (v : State) (x : PlantEvent) (b : Batch) (w : Bin) :
    releasedFrom (v.takeOffered x) b w = (releasedFrom v b w).takeOffered x := by
  have hmarks := markEvents_takeOffered (v.setBin b.destination (releasedInto b w)) x b.destination w.onHand .drawOrCount false
  rw [releasedFrom, show (v.takeOffered x).setBin b.destination _ = (v.setBin b.destination _).takeOffered x from rfl, hmarks]
  rfl

theorem exec_releaseTimeout_hold {left : Tenths} (hline : s.line.batches = [b]) (hwaiting : s.arb.waiting = [])
    (hstate : b.state = .releasing) (htimer : b.timer = some (.release left false)) :
    exec .releaseTimeout s = .next (mixerHeld s b .releasing .discharge) := by
  show outcome (releaseExpiry s) = _
  rw [releaseExpiry, find_only hline (decide_eq_true hstate)]
  simp only [htimer]
  exact outcome_holdMixer hwaiting b _ _

theorem exec_releaseTimeout_complete {left : Tenths} (hline : s.line.batches = [b]) (hstate : b.state = .releasing)
    (htimer : b.timer = some (.release left true)) : exec .releaseTimeout s = outcome (completeRelease s b) := by
  show outcome (releaseExpiry s) = _
  rw [releaseExpiry, find_only hline (decide_eq_true hstate)]
  simp only [htimer]

theorem exec_mixerEmpty (hline : s.line.batches = [b]) (hstate : b.state = .releasing) :
    exec .mixerEmptyActive s = outcome (completeRelease (s.takeOffered .mixerEmpty) b) := by
  show outcome (mixerEmptied (s.takeOffered .mixerEmpty)) = _
  rw [mixerEmptied, find_only (s := s.takeOffered .mixerEmpty) hline (decide_eq_true hstate)]

/-- Settles O39: the requests pass their checks and change the batch as the model names it; the timers lead to the hold in the
mixer, to the room check and to the completion of the release. -/
theorem batchHoldsAndTimers : Obligations.BatchHoldsAndTimers := by
  refine ⟨fun s tag number b hroom hb => ⟨?_, ?_, ?_, ?_, ?_, ?_⟩, fun s b left hline hwaiting => ⟨?_, ?_, ?_, ?_⟩⟩
  · exact fun d i hdose hstate hhand hreq => execHandDone_accepted hroom hb hdose hstate hhand hreq
  · exact fun hno => execHandDone_refused hroom hb hno
  · intro i j e f reason hlow hhigh he hheld hreason hless hrunning hne hj hf hfheld
    have h : HeldStep s number b i e reason := ⟨hb, hlow, hhigh, he, hheld, hrunning⟩
    exact h.accepted hroom (act := .retry) rfl (.inl hreason) (.inr hless) ⟨j, f, hj, hne, hf, hfheld⟩ (absurd rfl)
  · intro i j e f reason hlow hhigh he hheld hrunning hne hj hf hfheld hdead
    have h : HeldStep s number b i e reason := ⟨hb, hlow, hhigh, he, hheld, hrunning⟩
    have hother : OtherHeld b i := ⟨j, f, hj, hne, hf, hfheld⟩
    exact ⟨h.accepted hroom (act := .accept) rfl (.inr rfl) (.inl nofun) hother fun _ => hdead,
      fun hreason => h.accepted hroom (act := .skip) rfl (.inl hreason) (.inl nofun) hother fun _ => hdead⟩
  · intro i e hlow hhigh he hheld hrunning
    have h : HeldStep s number b i e .overWeight := ⟨hb, hlow, hhigh, he, hheld, hrunning⟩
    exact ⟨h.refused hroom (act := .retry) rfl nofun, h.refused hroom (act := .skip) rfl nofun⟩
  · exact fun reason rework hstate hrunning hrework hdose hover hdead =>
      execBatchAbandon_discharging hroom hb hstate hrunning hrework hdose hover hdead
  · exact fun hstate htimer => exec_dischargeTimeout_only hline hwaiting hstate htimer
  · refine fun hstate htimer hrunning => ⟨fun hbin => ?_, fun v hbin hlocked hkind hfull hfits => ?_⟩
    · exact exec_mixTimeout_only hline hstate htimer (roomCause_noDestination (by exact hrunning) (by exact hbin))
    · exact exec_mixTimeout_only hline hstate htimer
        (roomCause_room (by exact hrunning) (by exact hbin) hlocked hkind (show _ < b.total by omega))
  · exact fun hstate htimer => exec_releaseTimeout_hold hline hwaiting hstate htimer
  · rintro _ _ w rfl hstate hw hpos hfits hres hgrind hpress rfl
    refine ⟨fun htimer => ?_, ?_⟩
    · rw [exec_releaseTimeout_complete hline hstate htimer,
        outcome_completeRelease hline hwaiting hw hpos hfits hres hgrind hpress, releasedFrom, transferEnded_line]
      rfl
    · have hoffered := outcome_completeRelease (s := s.takeOffered .mixerEmpty) hline hwaiting
        (by rw [transferEnded_takeOffered]; exact hw) hpos hfits hres hgrind hpress
      rw [exec_mixerEmpty hline hstate, hoffered, transferEnded_takeOffered, releasedFrom_takeOffered, releasedFrom,
        transferEnded_line]
      rfl

end

end Sys2Proof.Machine

/-! PROOFS. What every command keeps of the waiting commands, the settings store, the Line Stop and the transfers (R75, R76, R81, R84,
R218 to R220). -/

namespace Sys2Proof.Machine

section

variable {s t u : State} {c : Instr} {saves clears : Prop}

/-! ### What is kept -/

/-- From `s` to `t` the waiting commands stay and the bounds of the transfers hold on; the store stays unless `saves`, and a Line Stop
in force stays so unless `clears`. -/
structure ArbiterKept (saves clears : Prop) (s t : State) : Prop where
  pending : t.pending = s.pending
  waits : s.StopOk → t.StopOk
  resources : s.ResourcesOk → t.ResourcesOk
  store : saves ∨ t.store = s.store
  stopped : clears ∨ (s.stopped = true → t.stopped = true)

namespace ArbiterKept

theorem trans (h : ArbiterKept saves clears s t) (k : ArbiterKept saves clears t u) : ArbiterKept saves clears s u :=
  ⟨k.pending.trans h.pending, k.waits ∘ h.waits, k.resources ∘ h.resources,
    h.store.elim .inl fun hst => k.store.imp_right fun htu => htu.trans hst,
    h.stopped.elim .inl fun hst => k.stopped.imp_right fun htu => htu ∘ hst⟩

theorem of_arb (hpending : t.pending = s.pending) (harb : t.arb = s.arb) (hstore : saves ∨ t.store = s.store) :
    ArbiterKept saves clears s t := by
  refine ⟨hpending, fun h => ?_, fun h => ?_, hstore, .inr fun h => ?_⟩
  · rwa [State.StopOk, harb]
  · rwa [State.ResourcesOk, harb]
  · rwa [State.stopped, harb]

/-- The transfers, the waiting commands and the store are the same. -/
theorem of_same (hpending : t.pending = s.pending) (harb : t.arb = s.arb) (hstore : t.store = s.store) :
    ArbiterKept saves clears s t := of_arb hpending harb (.inr hstore)

theorem refl (s : State) : ArbiterKept saves clears s s := of_same rfl rfl rfl

theorem of_keeps (h : Keeps s t) : ArbiterKept saves clears s t :=
  ⟨h.pending, h.waits, h.resources, .inr h.store, .inr fun hs => (stopped_of_arb h.stop).trans hs⟩

/-- From a state that differs from the first in other blocks only. -/
theorem of_start (h : ArbiterKept saves clears t u) (hpending : t.pending = s.pending) (harb : t.arb = s.arb)
    (hstore : t.store = s.store) : ArbiterKept saves clears s u :=
  (of_same hpending harb hstore).trans h

theorem settle {r : Result} (h : ArbiterKept saves clears s r.1) (hu : Sys2Proof.Machine.settle r = some u) :
    ArbiterKept saves clears s u :=
  h.trans (of_keeps ((Keeps.refl r.1).settle hu))

theorem outcome {r : Result} (h : ArbiterKept saves clears s r.1) (hu : Sys2Proof.Machine.outcome r = .next u) :
    ArbiterKept saves clears s u :=
  h.settle (outcome_next hu)

/-- A request keeps all this when each execution that its judge accepts does. -/
theorem serve {judge : State → Verdict} (hj : ∀ u r items, judge u = .accept r items → ArbiterKept saves clears u r.1)
    (h : Sys2Proof.Machine.serve c judge s = .next t) : ArbiterKept saves clears s t := by
  rcases serve_next h with ⟨-, rfl⟩ | ⟨-, code, index, -, rfl⟩ | ⟨-, r, items, u, hr, hu, rfl⟩
  · exact refl _
  · exact of_same rfl rfl rfl
  · have htaken : ArbiterKept saves clears s u := ((hj _ r items hr).settle hu).of_start rfl rfl rfl
    exact htaken.trans (of_same rfl rfl rfl)

theorem of_requestKeeps (h : RequestKeeps c s t) : ArbiterKept saves clears s t := by
  rcases h with rfl | ⟨-, u, r, hu, rfl⟩
  · exact refl _
  · have htaken : ArbiterKept saves clears s u := (of_keeps hu).of_start (s := s) rfl rfl rfl
    exact htaken.trans (of_same rfl rfl rfl)

end ArbiterKept

/-! ### The commands of the Link Port, the store and the levels -/

theorem execLinkStatus_arbiterKept {tag : Byte} {clear : Nat} (h : execLinkStatus tag clear s = .next t) :
    ArbiterKept saves clears s t := by
  refine .serve (fun u r items hr => ?_) h
  split at hr
  · cases hr
  · cases hr; exact .refl u
  · cases hr; exact .of_same rfl rfl rfl

theorem relevelNotice_arb (s : State) (source level : Nat) : (relevelNotice s source level).arb = s.arb := by
  unfold relevelNotice
  split <;> rfl

theorem relevelNotice_pending (s : State) (source level : Nat) : (relevelNotice s source level).pending = s.pending := by
  unfold relevelNotice
  split <;> rfl

theorem execSourceLevelSet_arbiterKept {tag : Byte} {source level : Nat}
    (h : execSourceLevelSet tag source level s = .next t) : ArbiterKept saves clears s t := by
  refine .serve (fun u r items hr => ?_) h
  cases checked_accept hr
  exact .of_same (relevelNotice_pending _ _ _) (relevelNotice_arb _ _ _) (relevelNotice_store _ _ _)

theorem execFloorSet_arbiterKept {tag : Byte} {floor : Nat} (h : execFloorSet tag floor s = .next t) :
    ArbiterKept saves clears s t := by
  refine .serve (fun u r items hr => ?_) h
  cases checked_accept hr
  exact .of_same rfl rfl rfl

theorem execUnknownKind_arbiterKept {tag kind : Byte} {body : List Byte} (h : execUnknownKind tag kind body s = .next t) :
    ArbiterKept saves clears s t := by
  unfold execUnknownKind at h
  dsimp only at h
  split at h
  · cases h; exact .refl s
  · split at h
    all_goals cases h; exact .of_same rfl rfl rfl

theorem judgeFrame_arbiterKept (s : State) (l : Link) (bytes : List Byte) :
    ArbiterKept saves clears s (judgeFrame s l bytes) := by
  unfold judgeFrame
  dsimp only
  split_ifs
  all_goals exact .of_same rfl rfl rfl

theorem takeChar_arbiterKept (s : State) (x : Byte) : ArbiterKept saves clears s (takeChar s x) := by
  unfold takeChar
  dsimp only
  split
  case h_7 => exact judgeFrame_arbiterKept _ _ _
  all_goals repeat' split
  all_goals exact .of_same rfl rfl rfl

theorem receive_arbiterKept (chars : List Byte) (s : State) : ArbiterKept saves clears s (chars.foldl takeChar s) := by
  induction chars generalizing s with
  | nil => exact .refl s
  | cons x chars ih => exact (takeChar_arbiterKept s x).trans (ih _)

theorem framingError_arbiterKept (s : State) : ArbiterKept saves clears s (framingError s) := by
  unfold framingError
  split_ifs
  · exact .refl s
  · exact .of_same rfl rfl rfl

theorem execSettingsSave_arbiterKept {tag : Byte} (hsaves : saves) (h : execSettingsSave tag s = .next t) :
    ArbiterKept saves clears s t := by
  refine .serve (fun u r items hr => ?_) h
  cases checked_accept hr
  exact .of_arb rfl rfl (.inl hsaves)

theorem endSave_arbiterKept (hsaves : saves) (s : State) (ok : Bool) : ArbiterKept saves clears s (endSave s ok) := by
  unfold endSave
  split
  · exact .of_arb rfl rfl (.inl hsaves)
  · exact .refl s

/-- A full reset leaves no transfer and no Line Stop (R74, R220). -/
theorem fullReset_arbiterKept (hsaves : saves) (hclears : clears) (s : State) (strapB strapA : Bool) :
    ArbiterKept saves clears s (fullReset s strapB strapA) := by
  unfold fullReset
  split
  all_goals exact ⟨rfl, fun _ => bootArbiter_stopOk, fun _ => bootArbiter_resourcesOk, .inl hsaves, .inl hclears⟩

theorem chooseSend_arbiterKept (s : State) : ArbiterKept saves clears s (chooseSend s) := by
  unfold chooseSend
  split
  · exact .of_same rfl rfl rfl
  · split
    · exact .of_same rfl rfl rfl
    · exact .refl s

/-- Only the end of the reply to RESTART brings a full reset (R220). -/
theorem sendNext_arbiterKept (s : State)
    (hrestart : ∀ f rest, s.link.tx = f :: rest → isRestartReply f = true → saves ∧ clears) :
    ArbiterKept saves clears s (sendNext s) := by
  unfold sendNext
  split
  · exact chooseSend_arbiterKept s
  · next f rest htx =>
    split_ifs with hreply
    · obtain ⟨hsaves, hclears⟩ := hrestart f rest htx hreply
      exact fullReset_arbiterKept hsaves hclears _ _ _
    · exact (chooseSend_arbiterKept (s.setLink { s.link with tx := [] })).of_start rfl rfl rfl
    · exact .of_same rfl rfl rfl

/-! ### Input samples and the Line Stop -/

theorem addCause_inForce (l : LineStop) (cause : StopCause) : (addCause l cause).inForce = l.inForce := by
  cases cause <;> rfl

/-- A further cause of a Line Stop changes no more of the arbiter than the record of causes (R81). -/
theorem addCause_arbiterKept (s : State) (cause : StopCause) :
    ArbiterKept saves clears s (s.setArb { s.arb with stop := addCause s.arb.stop cause }) := by
  refine ⟨rfl, fun h hstop => h ?_, fun h => h, .inr rfl, .inr fun h => ?_⟩
  · exact (addCause_inForce _ cause).symm.trans hstop
  · exact (addCause_inForce _ cause).trans h

theorem offerLineStop_arbiterKept (old s : State) : ArbiterKept saves clears s (offerLineStop old s) := by
  unfold offerLineStop
  split
  · exact .refl s
  · split_ifs
    · exact addCause_arbiterKept s .input
    · exact .of_keeps ((Keeps.refl s).offer _)
    · exact .refl s
    · exact .refl s

theorem takeInputSample_arbiterKept (s : State) (levels : Nat) (analog : List Int) :
    ArbiterKept saves clears s (takeInputSample s levels analog).1 := by
  have hsampled : Keeps s (setAnalogPins 0 analog (sampleInputs s levels)) :=
    Keeps.setAnalogPins analog 0 ((Keeps.refl s).sampleInputs levels)
  have hprobes := Keeps.foldResult (f := fun b u => sampleProbes s u b) (fun b u => (Keeps.refl u).sampleProbes s b)
    ((setAnalogPins 0 analog (sampleInputs s levels)).inv.bins.map (·.1)) (State.done _) hsampled
  have hoffers : ∀ v : State, Keeps v
      (offerMixerEmpty (offerMillFeedback (offerPressFeedback (offerPressFeedback v .one) .two))) := fun v =>
    ((((Keeps.refl v).offerPressFeedback .one).offerPressFeedback .two).offerMillFeedback).offerMixerEmpty
  exact ((ArbiterKept.of_keeps (hprobes.offerEdges s)).trans (offerLineStop_arbiterKept s _)).trans
    (.of_keeps ((hoffers _).setIO _))

theorem stopTransfer_state (x : Transfer) : (stopTransfer x).state = .aborted := by
  unfold stopTransfer
  split_ifs with h
  · exact h
  · rfl

theorem stopTransfer_held {x : Transfer} {n : Nat} (h : n ∈ (stopTransfer x).held) : n ∈ x.held := by
  unfold stopTransfer at h
  split_ifs at h
  · exact h
  · exact absurd h List.not_mem_nil

/-- Transfers whose resources shrink slot by slot keep one holder for each (R76). -/
theorem resourcesOk_map {a : Arbiter} {f : Transfer → Transfer} (hf : ∀ x n, n ∈ (f x).held → n ∈ x.held) (w : List Nat)
    (stop : LineStop) (h : a.ResourcesOk) :
    Arbiter.ResourcesOk { a with transfers := a.transfers.map (fun e => (e.1, f e.2)), waiting := w, stop := stop } := by
  intro e he g hg hne n hn hm
  obtain ⟨x, hx, rfl⟩ := List.mem_map.1 he
  obtain ⟨y, hy, rfl⟩ := List.mem_map.1 hg
  exact h x hx y hy hne n (hf _ n hn) (hf _ n hm)

/-- A Line Stop leaves every transfer ABORTED, the waiting list empty, and no resource with a new holder (R81). -/
theorem bringLineStop_arbiterKept (s : State) (cause : StopCause) :
    ArbiterKept saves clears s (bringLineStop s cause).1 := by
  unfold bringLineStop
  split
  · exact addCause_arbiterKept s cause
  · have hdrop : Keeps s ((s.arb.transfers.map (·.2)).foldl dropOutputs s) :=
      Keeps.foldl (fun u x => (Keeps.refl u).dropOutputs x) _ (Keeps.refl s)
    refine (ArbiterKept.of_keeps hdrop).trans ⟨rfl, fun _ _ => ⟨rfl, fun e he => ?_⟩, fun h => ?_, .inr rfl, .inr fun _ => ?_⟩
    · obtain ⟨x, -, rfl⟩ := List.mem_map.1 he
      exact stopTransfer_state x.2
    · exact resourcesOk_map (fun _ _ => stopTransfer_held) _ _ h
    · exact addCause_inForce _ cause

theorem execLineStop_arbiterKept {tag : Byte} (h : execLineStop tag s = .next t) : ArbiterKept saves clears s t := by
  refine .serve (fun u r items hr => ?_) h
  cases hr
  exact bringLineStop_arbiterKept u .request

theorem clearLineStop_arbiterKept (hclears : clears) (s : State) : ArbiterKept saves clears s (clearLineStop s).1 :=
  ⟨rfl, fun _ hstop => absurd hstop Bool.false_ne_true, fun h => h, .inr rfl, .inl hclears⟩

theorem execLineResume_arbiterKept {tag : Byte} (hclears : clears) (h : execLineResume tag s = .next t) :
    ArbiterKept saves clears s t := by
  refine .serve (fun u r items hr => ?_) h
  split at hr
  · cases hr; exact .refl u
  · cases checked_accept hr
    exact clearLineStop_arbiterKept hclears u

/-! ### Every command -/

/-- The commands that bring a full reset: power-on, the RESET pin, and the end of the reply to RESTART (R220). -/
def resets (c : Instr) (s : State) : Prop :=
  (∃ b a, c = .fullReset b a) ∨ (c = .frameSent ∧ ∃ f rest, s.link.tx = f :: rest ∧ isRestartReply f = true)

theorem exec_arbiterKept (h : exec c s = .next t) :
    ArbiterKept ((∃ tag, c = .settingsSave tag) ∨ (∃ ok, c = .settingsSaveEnd ok) ∨ resets c s)
      ((∃ tag, c = .lineResume tag) ∨ resets c s) s t := by
  cases hc : changesKept c with
  | false => exact (exec_keeps hc h).elim .of_requestKeeps .of_keeps
  | true =>
    cases c with
    | linkStatus => exact execLinkStatus_arbiterKept h
    | settingsSave => exact execSettingsSave_arbiterKept (.inl ⟨_, rfl⟩) h
    | lineStop => exact execLineStop_arbiterKept h
    | lineResume => exact execLineResume_arbiterKept (.inl ⟨_, rfl⟩) h
    | sourceLevelSet => exact execSourceLevelSet_arbiterKept h
    | floorSet => exact execFloorSet_arbiterKept h
    | unknownKind => exact execUnknownKind_arbiterKept h
    | frameReceive chars => cases h; exact receive_arbiterKept chars s
    | receiveError => cases h; exact framingError_arbiterKept s
    | linkBreak => cases h; exact .of_same rfl rfl rfl
    | frameSent =>
      cases h
      refine sendNext_arbiterKept s fun f rest htx hreply => ?_
      have hreset : resets .frameSent s := .inr ⟨rfl, f, rest, htx, hreply⟩
      exact ⟨.inr (.inr hreset), .inr hreset⟩
    | fullReset b a =>
      cases h
      have hreset : resets (.fullReset b a) s := .inl ⟨b, a, rfl⟩
      exact fullReset_arbiterKept (.inr (.inr hreset)) (.inr hreset) s b a
    | settingsSaveEnd ok => cases h; exact endSave_arbiterKept (.inr (.inl ⟨ok, rfl⟩)) s ok
    | inputSample levels analog => exact (takeInputSample_arbiterKept s levels analog).outcome h
    | lineStopInputActive =>
      exact ((bringLineStop_arbiterKept (s.takeOffered .lineStopInput) .input).outcome h).of_start rfl rfl rfl
    | _ => cases hc

/-- Settles O4: by `exec_arbiterKept`. -/
theorem onlyTheirCommandsChangeStoreAndStop : Obligations.OnlyTheirCommandsChangeStoreAndStop := by
  intro c s t reset h hreset
  obtain ⟨hpending, -, -, hstore, hstopped⟩ := exec_arbiterKept h
  rw [hreset]
  refine ⟨hpending, fun hne => hstore.resolve_right hne, fun hs ht => hstopped.resolve_right fun hkept => ?_⟩
  exact Bool.false_ne_true (ht.symm.trans (hkept hs))

theorem tick_stopOk (h : s.StopOk) : s.tick.StopOk := by
  intro hstop
  obtain ⟨hwaiting, haborted⟩ := h hstop
  refine ⟨hwaiting, fun e he => ?_⟩
  obtain ⟨x, hx, rfl⟩ := List.mem_map.1 he
  exact haborted x hx

theorem tick_resourcesOk (h : s.ResourcesOk) : s.tick.ResourcesOk :=
  resourcesOk_map (f := fun x => { x with timer := x.timer.map (· - 1) }) (fun _ _ hn => hn) _ _ h

/-- Settles O9: by `exec_arbiterKept`, and a tick touches no transfer's state and no holder. -/
theorem stepKeepsArbiterOk : Obligations.StepKeepsArbiterOk := by
  intro s t h
  unfold step at h
  split at h
  · cases h
    exact ⟨tick_stopOk, tick_resourcesOk⟩
  · next c rest _ =>
    have hkept := exec_arbiterKept h
    exact ⟨hkept.waits, hkept.resources⟩

end

end Sys2Proof.Machine

/-! PROOFS. The outputs in a Line Stop, and the requests of Plant I/O and the Route Arbiter (R62, R65, R66, R68, R69, R72, R73, R82). -/

namespace Sys2Proof.Machine

section

variable {s : State} {tag : Byte} {n : Nat}

/-! ### Outputs in a Line Stop -/

theorem feederDriven_of_stopped (h : s.stopped = true) (b : Nat) : s.feederDriven b = 0 := by
  unfold State.feederDriven
  split
  · rw [h, Bool.true_or, if_pos rfl]
  · rfl

theorem roleDriven_of_stopped (h : s.stopped = true) (r : Role) : s.roleDriven r = false := by
  rw [State.roleDriven, h, Bool.not_true, Bool.and_false, Bool.false_and]

/-- Settles O5: an output is driven by a bin's feeder, by a role or as a free output, and each is off in a Line Stop. -/
theorem lineStopHoldsEveryOutputOff : Obligations.LineStopHoldsEveryOutputOff := by
  intro s n h
  refine ⟨?_, ?_⟩
  · unfold State.outputOn
    split
    · rw [feederDriven_of_stopped h]
      rfl
    · split
      · exact roleDriven_of_stopped h _
      · rw [h, Bool.not_true, Bool.and_false]
  · unfold State.speedOut
    split
    · exact feederDriven_of_stopped h _
    · rfl

/-! ### INPUT_DEFINE, OUTPUT_DEFINE and ROUTE_DEFINE -/

theorem execInputDefine_accepted {polarity time type use : Nat} {cfg : InputConfig} (hroom : s.replyRoom = true)
    (hsave : s.saving = false) (hn : n < 64) (hcfg : inputConfigOf polarity time type use = some cfg)
    (hfree : useFree s n cfg.use = true) (hprobe : cfg.use = .none ∨ s.probeBin n = none)
    (hroute : cfg.use = .permissive ∨ routeNames s n = false) :
    execInputDefine tag n polarity time type use s =
      accepted s (.inputDefine tag n polarity time type use) (fun u => u.setPin n ⟨cfg, none, 0⟩) (fun _ => []) := by
  refine serve_plainly hroom fun l => ?_
  have hpin : decide (n < Config.pinCount) = true := decide_eq_true hn
  have huse : useFree (s.setLink l) n cfg.use = true := hfree
  have hnoProbe : (decide (cfg.use = .none) || (s.probeBin n).isNone) = true := by
    rcases hprobe with h | h <;> simp [h]
  have hnoRoute : (decide (cfg.use = .permissive) || !routeNames (s.setLink l) n) = true := by
    have : routeNames (s.setLink l) n = routeNames s n := rfl
    rcases hroute with h | h <;> simp [h, this]
  simp only [hcfg, hpin, State.setLink_saving, hsave, huse, State.setLink_probeBin, hnoProbe, hnoRoute, Bool.not_false,
    checked_pass, checked_nil]

/-- An output that is no feeder and no gate in use takes a role (R65 checks 3 to 5). -/
theorem execOutputDefine_given {role : Nat} {r : Role} (hroom : s.replyRoom = true) (hsave : s.saving = false) (hn : n < 64)
    (hfeeder : s.feederBin (.discrete n) = none) (hgate : s.gateInUse n = false) (hr : roleOf role = some r)
    (hfree : s.roleOutput r = none ∨ s.roleOutput r = some n) :
    execOutputDefine tag n role s = accepted s (.outputDefine tag n role)
      (fun u => u.setIO { u.io with
        roles := Table.set (Table.del u.io.roles n) n r, freeOn := Table.del u.io.freeOn n }) (fun _ => []) := by
  refine serve_plainly hroom fun l => ?_
  have hpin : decide (n < Config.pinCount) = true := decide_eq_true hn
  have hrole : decide ((s.setLink l).roleOutput r = none ∨ (s.setLink l).roleOutput r = some n) = true := decide_eq_true hfree
  have hgates : (s.setLink l).gateInUse n = false := hgate
  have hgive : giveRole (s.setLink l) n (some r) = (s.setLink l).setIO { s.io with
      roles := Table.set (Table.del s.io.roles n) n r, freeOn := Table.del s.io.freeOn n } := by
    simp [giveRole]
  simp [hr, hpin, State.setLink_saving, hsave, hrole, hfeeder, hgates, hgive]

/-- An output that leaves its role is off and free (R65); the role FREE is coded 19 (notes/assumptions/6.md). -/
theorem execOutputDefine_freed {r : Role} (hroom : s.replyRoom = true) (hsave : s.saving = false) (hn : n < 64)
    (hfeeder : s.feederBin (.discrete n) = none) (hgate : s.gateInUse n = false) (hr : Table.get s.io.roles n = some r) :
    execOutputDefine tag n 19 s = accepted s (.outputDefine tag n 19)
      (fun u => u.setIO { u.io with roles := Table.del u.io.roles n, freeOn := Table.del u.io.freeOn n })
      (fun _ => []) := by
  refine serve_plainly hroom fun l => ?_
  have hpin : decide (n < Config.pinCount) = true := decide_eq_true hn
  have hrole : roleOf 19 = none := rfl
  have hgates : (s.setLink l).gateInUse n = false := hgate
  have howned : s.outputOwned n = true := by rw [State.outputOwned, hr, Option.isSome_some, Bool.or_true]
  have hgive : giveRole (s.setLink l) n none = (s.setLink l).setIO { s.io with
      roles := Table.del s.io.roles n, freeOn := Table.del s.io.freeOn n } := by
    simp [giveRole, howned]
  simp [hrole, hpin, State.setLink_saving, hsave, hfeeder, hgates, hgive]

theorem execRouteDefine_accepted {route : Nat} {ps : List PermissiveField} {rs : List Nat} (hroom : s.replyRoom = true)
    (hsave : s.saving = false) (hrange : routeInRange route ps rs = true)
    (hpins : ∀ p ∈ ps, (s.pin p.input).cfg.use = .permissive) (huse : routeInUse s route = false) :
    execRouteDefine tag route ps rs s = accepted s (.routeDefine tag route ps rs)
      (fun u => u.setArb { u.arb with routes := Table.put ⟨[], []⟩ u.arb.routes route ⟨permissivesOf ps, rs⟩ })
      (fun _ => []) := by
  refine serve_plainly hroom fun l => ?_
  have hall : ps.all (fun p => decide (((s.setLink l).pin p.input).cfg.use = .permissive)) = true :=
    List.all_eq_true.2 fun p hp => decide_eq_true (hpins p hp)
  have hunused : routeInUse (s.setLink l) route = false := huse
  simp only [hrange, State.setLink_saving, hsave, hall, hunused, Bool.not_false, checked_pass, checked_nil]
  rfl

/-- Settles O28: each request passes its checks, and an output that had a role was owned. -/
theorem plantDefinitions : Obligations.PlantDefinitions := by
  intro s tag hroom hsave
  refine ⟨fun n polarity time type use cfg hn hcfg hfree hprobe hroute =>
      execInputDefine_accepted hroom hsave hn hcfg hfree hprobe hroute,
    fun n role hn hfeeder hgate => ⟨fun r hr hfree => ?_, fun r hr => ?_⟩, fun route ps rs hrange hpins huse => ?_⟩
  · exact execOutputDefine_given hroom hsave hn hfeeder hgate hr hfree
  · exact execOutputDefine_freed hroom hsave hn hfeeder hgate hr
  · exact execRouteDefine_accepted hroom hsave hrange hpins huse

/-! ### OUTPUT_SET and OUTPUT_CLEAR -/

/-- Free outputs of a list are switched one by one, the others left alone (R66). -/
theorem getD_switch (owned : Nat → Bool) (mask : Nat) (on : Bool) (l : List Nat) (t : Table Bool) (n : Nat) :
    Table.getD false (l.foldl (fun t k => if mask.testBit k && !owned k then Table.put false t k on else t) t) n =
      if n ∈ l ∧ mask.testBit n = true ∧ owned n = false then on else Table.getD false t n := by
  induction l generalizing t with
  | nil => simp
  | cons k l ih =>
    rw [List.foldl_cons, ih]
    by_cases hfree : (mask.testBit k && !owned k) = true
    · rw [if_pos hfree, Table.getD_put]
      simp only [Bool.and_eq_true, Bool.not_eq_true'] at hfree
      by_cases hk : k = n
      · subst hk
        simp [hfree]
      · simp [hk, Ne.symm hk]
    · rw [if_neg hfree]
      simp only [Bool.and_eq_true, Bool.not_eq_true'] at hfree
      by_cases hk : k = n
      · subst hk
        simp [hfree]
      · simp [Ne.symm hk]

theorem switchFree_freeOn (s : State) (mask : Nat) (on : Bool) (n : Nat) :
    Table.getD false (switchFree s mask on).io.freeOn n =
      if n < 64 ∧ mask.testBit n = true ∧ s.outputOwned n = false then on else Table.getD false s.io.freeOn n := by
  have hpin : n ∈ List.range Config.pinCount ↔ n < 64 := List.mem_range
  rw [switchFree, State.setIO_io, getD_switch s.outputOwned mask on]
  simp only [hpin]

/-! ### ANALOG_DEFINE and ANALOG_SET -/

theorem execAnalogDefine_accepted {bottom top : Int} (hroom : s.replyRoom = true) (hsave : s.saving = false) (hn : n < 8)
    (hbottom : -32768 ≤ bottom ∧ bottom ≤ 32767) (htop : -32768 ≤ top ∧ top ≤ 32767) :
    execAnalogDefine tag n bottom top s = accepted s (.analogDefine tag n bottom top)
      (fun u => u.setIO { u.io with spans := Table.put (0, 1000) u.io.spans n (bottom, top) }) (fun _ => []) := by
  have hrange : decide (n < 8 ∧ -32768 ≤ bottom ∧ bottom ≤ 32767 ∧ -32768 ≤ top ∧ top ≤ 32767) = true :=
    decide_eq_true ⟨hn, hbottom.1, hbottom.2, htop⟩
  refine serve_plainly hroom fun l => ?_
  simp only [hrange, State.setLink_saving, hsave, Bool.not_false, checked_pass, checked_nil]
  rfl

theorem execAnalogSet_accepted {value : Nat} (hroom : s.replyRoom = true) (hn : n = 2 ∨ n = 3) :
    execAnalogSet tag n value s = accepted s (.analogSet tag n value)
      (fun u => u.setIO { u.io with analogOut := Table.put 0 u.io.analogOut n (min value 1000) })
      (fun _ => [.u16 (min value 1000), .u8 (flagCode (decide (1000 < value)))]) := by
  have hrange : decide (n < 4) = true := decide_eq_true (by omega)
  have hfree : decide (2 ≤ n) = true := decide_eq_true (by omega)
  refine serve_plainly hroom fun l => ?_
  simp only [hrange, hfree, checked_pass, checked_nil]
  rfl

theorem execAnalogSet_inUse (value : Nat) (hroom : s.replyRoom = true) (hn : n < 2) :
    execAnalogSet tag n value s = refusedWith s (.analogSet tag n value) .inUse 0 := by
  have hrange : decide (n < 4) = true := decide_eq_true (by omega)
  have hmill : decide (2 ≤ n) = false := decide_eq_false (by omega)
  exact serve_refused hroom fun l => by simp only [hrange, hmill, checked_pass, checked_fail]

theorem execAnalogSet_outOfRange (value : Nat) (hroom : s.replyRoom = true) (hn : 4 ≤ n) :
    execAnalogSet tag n value s = refusedWith s (.analogSet tag n value) .outOfRange 0 := by
  have hrange : decide (n < 4) = false := decide_eq_false (by omega)
  exact serve_refused hroom fun l => by simp only [hrange, checked_fail]

/-- Settles O29: each request by its checks, and the switched outputs by `switchFree_freeOn`. -/
theorem outputAndAnalogRequests : Obligations.OutputAndAnalogRequests := by
  intro s tag hroom
  refine ⟨fun mask hrun => ?_, fun mask hstop => ?_, fun mask => ?_, fun mask on => ⟨rfl, switchFree_freeOn s mask on⟩,
    fun n bottom top hsave hn hb hb' ht ht' => execAnalogDefine_accepted hroom hsave hn ⟨hb, hb'⟩ ⟨ht, ht'⟩,
    fun n value hn => execAnalogSet_accepted hroom hn, fun n value hn => execAnalogSet_inUse value hroom hn,
    fun n value hn => execAnalogSet_outOfRange value hroom hn⟩
  · show execOutputSet tag mask s = _
    exact serve_accepted hroom fun l => ⟨(switchFree (s.setLink l) mask true).done, fun u => outputItems u mask,
      by simp only [State.setLink_stopped, hrun, Bool.not_false, checked_pass, checked_nil], rfl, rfl⟩
  · show execOutputSet tag mask s = _
    exact serve_refused hroom fun l => by simp only [State.setLink_stopped, hstop, Bool.not_true, checked_fail]
  · show execOutputClear tag mask s = _
    exact serve_accepted hroom fun l => ⟨(switchFree (s.setLink l) mask false).done, fun u => outputItems u mask, rfl, rfl, rfl⟩

/-! ### The permit time -/

/-- The default permit time is 30.0 s (R73, R218). -/
theorem fullReset_permitTime (strapB strapA : Bool) (h : s.store.image = none) :
    (fullReset s strapB strapA).arb.permitTime = 300 := by
  simp only [fullReset, h]
  rfl

theorem execArbiterSet_outOfRange {time : Nat} (hroom : s.replyRoom = true) (h : time = 0 ∨ 6000 < time) :
    execArbiterSet tag time s = refusedWith s (.arbiterSet tag time) .outOfRange 0 := by
  have hrange : decide (1 ≤ time ∧ time ≤ 6000) = false := decide_eq_false (by omega)
  exact serve_refused hroom fun l => by simp only [hrange, checked_fail]

theorem execArbiterSet_busy {time : Nat} (hroom : s.replyRoom = true) (hlow : 1 ≤ time) (hhigh : time ≤ 6000)
    (hsave : s.saving = true) : execArbiterSet tag time s = refusedWith s (.arbiterSet tag time) .busy 0 := by
  have hrange : decide (1 ≤ time ∧ time ≤ 6000) = true := decide_eq_true ⟨hlow, hhigh⟩
  exact serve_refused hroom fun l => by
    simp only [hrange, State.setLink_saving, hsave, Bool.not_true, checked_pass, checked_fail]

theorem execArbiterSet_accepted {time : Nat} (hroom : s.replyRoom = true) (hlow : 1 ≤ time) (hhigh : time ≤ 6000)
    (hsave : s.saving = false) : execArbiterSet tag time s = accepted s (.arbiterSet tag time)
      (fun u => u.setArb { u.arb with permitTime := time }) (fun _ => []) := by
  have hrange : decide (1 ≤ time ∧ time ≤ 6000) = true := decide_eq_true ⟨hlow, hhigh⟩
  exact serve_plainly hroom fun l => by
    simp only [hrange, State.setLink_saving, hsave, Bool.not_false, checked_pass, checked_nil]

/-- A granted transfer with a permissive out of its state waits for its permits, the permit time of that moment long (R77). -/
theorem grant_waits {slot : Nat} {x : Transfer}
    (h : (s.failingPermissive { x with held := s.legResources x.legs }).isSome = true) :
    grant s slot x = (putTransfer (s.setArb { s.arb with waiting := s.arb.waiting.erase slot }) slot { x with
      held := s.legResources x.legs, state := .permitWait, timer := some s.arb.permitTime }, []) := by
  obtain ⟨e, he⟩ := Option.isSome_iff_exists.1 h
  simp only [grant, he, Option.isNone_some, Bool.false_eq_true, if_false]

/-- Settles O30: the default, the request's checks, and the timer with which a permit wait begins. -/
theorem permitTimeSetting : Obligations.PermitTimeSetting := by
  refine ⟨fun s b a himage => ⟨_, rfl, fullReset_permitTime b a himage⟩, fun s tag time hroom => ⟨?_, ?_, ?_⟩,
    fun s slot x h => ?_⟩
  · exact fun h => execArbiterSet_outOfRange hroom h
  · exact fun hlow hhigh hsave => execArbiterSet_busy hroom hlow hhigh hsave
  · exact fun hlow hhigh hsave => execArbiterSet_accepted hroom hlow hhigh hsave
  · rw [grant_waits h]
    exact Table.get_set_self _ _ _

end

end Sys2Proof.Machine

/-! PROOFS. An input sample on a part whose inputs have no use: debouncing and the analog positions (R60, R68). -/

namespace Sys2Proof.Machine

section

variable {s : State} {n : Nat}

/-! ### Debouncing -/

theorem rawState_eq (cfg : InputConfig) (level : Bool) : rawState cfg level = (level != cfg.inverted) := by
  unfold rawState
  cases cfg.inverted <;> cases level <;> rfl

@[simp] theorem debounce_cfg (p : InputPin) (level : Bool) : (debounce p level).cfg = p.cfg := by
  unfold debounce
  dsimp only
  split
  · rfl
  · split_ifs <;> rfl

section debounce

variable {p : InputPin} {level raw : Bool} (hraw : rawState p.cfg level = raw)
include hraw

/-- The first sample, and one that reads the debounced state, give the raw state and end the count. -/
theorem debounce_same (h : p.active = none ∨ p.active = some raw) :
    (debounce p level).active = some raw ∧ (debounce p level).count = 0 := by
  rcases h with h | h
  · simp only [debounce, h, hraw, and_self]
  · simp only [debounce, h, hraw, if_true, and_self]

/-- A sample that reads the other state is counted until the debounce time is reached. -/
theorem debounce_counts (h : p.active = some (!raw)) (hless : p.count + 1 < max 1 (p.cfg.debounce / 10)) :
    (debounce p level).active = some (!raw) ∧ (debounce p level).count = p.count + 1 := by
  have hother : raw ≠ !raw := by cases raw <;> decide
  simp only [debounce, h, hraw, if_neg hother, if_neg (Nat.not_le.2 hless), and_self]

/-- The sample that reaches the debounce time changes the debounced state. -/
theorem debounce_changes (h : p.active = some (!raw)) (hreached : max 1 (p.cfg.debounce / 10) ≤ p.count + 1) :
    (debounce p level).active = some raw ∧ (debounce p level).count = 0 := by
  have hother : raw ≠ !raw := by cases raw <;> decide
  simp only [debounce, h, hraw, if_neg hother, if_pos hreached, and_self]

end debounce

/-! ### The sample of all inputs -/

theorem State.setPin_pin (s : State) (k : Nat) (p : InputPin) (n : Nat) :
    (s.setPin k p).pin n = if k = n then p else s.pin n := Table.getD_put _ _ _ _ _

/-- Debouncing in turn the inputs of a list without repetition debounces each of them once. -/
theorem foldl_debounce_pin (levels : Nat) : ∀ (l : List Nat) (s : State), l.Nodup →
    (l.foldl (fun t k => t.setPin k (debounce (t.pin k) (levels.testBit k))) s).pin n =
      if n ∈ l then debounce (s.pin n) (levels.testBit n) else s.pin n
  | [], s, _ => by simp
  | k :: l, s, h => by
    obtain ⟨hk, hl⟩ := List.nodup_cons.1 h
    rw [List.foldl_cons, foldl_debounce_pin levels l _ hl]
    simp only [State.setPin_pin, List.mem_cons]
    by_cases hn : k = n
    · subst hn
      simp [hk]
    · simp [hn, Ne.symm hn]

theorem sampleInputs_pin (s : State) (levels : Nat) (h : n < 64) :
    (sampleInputs s levels).pin n = debounce (s.pin n) (levels.testBit n) := by
  rw [sampleInputs, foldl_debounce_pin levels _ s List.nodup_range, if_pos (List.mem_range.2 h)]

theorem pin_unused (h : ∀ e ∈ s.io.inputs, e.2.cfg.use = .none) (n : Nat) : (s.pin n).cfg.use = .none := by
  unfold State.pin Table.getD
  cases hn : Table.get s.io.inputs n with
  | none => rfl
  | some p => exact h _ (Table.mem_of_get hn)

theorem foldl_debounce_frame (levels : Nat) : ∀ (l : List Nat) (s : State),
    l.foldl (fun t k => t.setPin k (debounce (t.pin k) (levels.testBit k))) s = s.setIO { s.io with
      inputs := (l.foldl (fun t k => t.setPin k (debounce (t.pin k) (levels.testBit k))) s).io.inputs }
  | [], _ => rfl
  | k :: l, s => foldl_debounce_frame levels l (s.setPin k (debounce (s.pin k) (levels.testBit k)))

theorem sampleInputs_frame (s : State) (levels : Nat) :
    sampleInputs s levels = s.setIO { s.io with inputs := (sampleInputs s levels).io.inputs } :=
  foldl_debounce_frame levels _ s

theorem foldl_debounce_unused (levels : Nat) : ∀ (l : List Nat) (s : State), (∀ e ∈ s.io.inputs, e.2.cfg.use = .none) →
    ∀ e ∈ (l.foldl (fun t k => t.setPin k (debounce (t.pin k) (levels.testBit k))) s).io.inputs, e.2.cfg.use = .none
  | [], _, h => h
  | k :: l, s, h => by
    refine foldl_debounce_unused levels l _ fun e he => ?_
    rcases Table.mem_put he with rfl | he
    · exact (congrArg InputConfig.use (debounce_cfg _ _)).trans (pin_unused h k)
    · exact h e he

theorem sampleInputs_unused (levels : Nat) (h : ∀ e ∈ s.io.inputs, e.2.cfg.use = .none) :
    ∀ e ∈ (sampleInputs s levels).io.inputs, e.2.cfg.use = .none := foldl_debounce_unused levels _ s h

/-! ### The analog positions -/

theorem setAnalogPins_frame : ∀ (l : List Int) (k : Nat) (s : State),
    setAnalogPins k l s = s.setIO { s.io with analogPins := (setAnalogPins k l s).io.analogPins }
  | [], _, _ => rfl
  | p :: l, k, s => setAnalogPins_frame l (k + 1) (s.setAnalogPin k p)

theorem setAnalogPins_below {j : Nat} : ∀ (l : List Int) (k : Nat) (s : State), j < k →
    Table.getD 0 (setAnalogPins k l s).io.analogPins j = Table.getD 0 s.io.analogPins j
  | [], _, _, _ => rfl
  | p :: l, k, s, h => by
    rw [setAnalogPins, setAnalogPins_below l (k + 1) _ (by omega)]
    exact (Table.getD_put _ _ _ _ _).trans (if_neg (by omega))

theorem setAnalogPins_at {j : Nat} {p : Int} : ∀ (l : List Int) (k : Nat) (s : State), l[j]? = some p →
    Table.getD 0 (setAnalogPins k l s).io.analogPins (k + j) = p := by
  induction j with
  | zero =>
    intro l k s h
    cases l with
    | nil => cases h
    | cons q l =>
      obtain rfl : q = p := Option.some.inj h
      rw [setAnalogPins, setAnalogPins_below l _ _ (show k + 0 < k + 1 by omega)]
      exact (Table.getD_put _ _ _ _ _).trans (if_pos rfl)
  | succ j ih =>
    intro l k s h
    cases l with
    | nil => cases h
    | cons q l =>
      have hnext := ih l (k + 1) (s.setAnalogPin k q) h
      rwa [show k + 1 + j = k + (j + 1) by omega] at hnext

/-! ### Inputs without a use -/

theorem inputWith_unused (h : ∀ e ∈ s.io.inputs, e.2.cfg.use = .none) {use : InputUse} (huse : use ≠ .none) :
    s.inputWith use = none := by
  rw [State.inputWith, Option.map_eq_none_iff, List.find?_eq_none]
  intro e he
  rw [h e he]
  simpa using huse.symm

theorem offerEdges_unused (old : State) (h : ∀ e ∈ s.io.inputs, e.2.cfg.use = .none) : offerEdges old s = s := by
  have hedge : ∀ k, edgeEvent (s.pin k).cfg.use = none := fun k => by rw [pin_unused h k]; rfl
  unfold offerEdges
  generalize List.range Config.pinCount = l
  induction l with
  | nil => rfl
  | cons k l ih =>
    rw [List.foldl_cons, hedge]
    dsimp only
    rwa [ite_self]

theorem offerLineStop_unused (old : State) (h : s.inputWith .lineStop = none) : offerLineStop old s = s := by
  rw [offerLineStop, h]

theorem offerPressFeedback_unused {p : PressId} (h : s.inputWith (pressRunning p) = none) : offerPressFeedback s p = s := by
  simp only [offerPressFeedback, h]

theorem offerMillFeedback_unused (h : s.inputWith .millRunning = none) : offerMillFeedback s = s := by
  rw [offerMillFeedback, h]

theorem offerMixerEmpty_unused (h : s.inputWith .mixerEmpty = none) : offerMixerEmpty s = s := by
  rw [offerMixerEmpty, State.useActive, h]
  exact if_neg fun hand => Bool.false_ne_true hand.1

/-- The input table and the analog positions that a sample leaves: each input debounced once, each position taken. -/
structure SampleTaken (s : State) (levels : Nat) (analog : List Int) (inputs : Table InputPin) (pins : Table Int) : Prop where
  pin : ∀ n < 64, Table.getD defaultPin inputs n = debounce (s.pin n) (levels.testBit n)
  position : ∀ k p, analog[k]? = some p → Table.getD 0 pins k = p
  unused : (∀ e ∈ s.io.inputs, e.2.cfg.use = .none) → ∀ e ∈ inputs, e.2.cfg.use = .none

theorem sampled_eq (s : State) (levels : Nat) (analog : List Int) :
    ∃ inputs pins, setAnalogPins 0 analog (sampleInputs s levels) =
      s.setIO { s.io with inputs := inputs, analogPins := pins } ∧ SampleTaken s levels analog inputs pins := by
  refine ⟨(sampleInputs s levels).io.inputs, (setAnalogPins 0 analog (sampleInputs s levels)).io.analogPins, ?_,
    fun n hn => sampleInputs_pin s levels hn, fun k p hk => ?_, fun h => sampleInputs_unused levels h⟩
  · have hframe := setAnalogPins_frame analog 0 (sampleInputs s levels)
    have hsampled := sampleInputs_frame s levels
    generalize setAnalogPins 0 analog (sampleInputs s levels) = u at *
    generalize sampleInputs s levels = v at *
    exact hframe.trans (congrArg (fun x : State => x.setIO { x.io with analogPins := u.io.analogPins }) hsampled)
  · have hat := setAnalogPins_at analog 0 (sampleInputs s levels) hk
    rwa [Nat.zero_add] at hat

/-- On a part without bins, transfers and uses of inputs, nothing follows a sample. -/
theorem takeInputSample_unused (levels : Nat) (analog : List Int) (hbins : s.inv.bins = []) (htransfers : s.arb.transfers = [])
    (h : ∀ e ∈ s.io.inputs, e.2.cfg.use = .none) : ∃ inputs pins, SampleTaken s levels analog inputs pins ∧
      takeInputSample s levels analog =
        (s.setIO { s.io with inputs := inputs, analogPins := pins, firstSample := false }, []) := by
  obtain ⟨inputs, pins, hsampled, htaken⟩ := sampled_eq s levels analog
  refine ⟨inputs, pins, htaken, ?_⟩
  have hunused : ∀ e ∈ (s.setIO { s.io with inputs := inputs, analogPins := pins }).io.inputs, e.2.cfg.use = .none :=
    htaken.unused h
  have huse : ∀ use : InputUse, use ≠ .none →
      (s.setIO { s.io with inputs := inputs, analogPins := pins }).inputWith use = none := fun _ => inputWith_unused hunused
  simp only [takeInputSample, hsampled, State.setIO_inv, hbins, List.map_nil, List.foldl_nil, State.done,
    offerEdges_unused s hunused, offerLineStop_unused s (huse .lineStop (by decide)),
    offerPressFeedback_unused (p := .one) (huse .press1Running (by decide)),
    offerPressFeedback_unused (p := .two) (huse .press2Running (by decide)),
    offerMillFeedback_unused (huse .millRunning (by decide)), offerMixerEmpty_unused (huse .mixerEmpty (by decide)),
    State.setIO_arb, htransfers, List.append_nil, State.setIO_twice, State.setIO_io]

/-- Settles O33: nothing follows the sample (`takeInputSample_unused`), and each input is debounced once. -/
theorem inputSampleDebounces : Obligations.InputSampleDebounces := by
  intro s levels analog hbins htransfers hunused _
  obtain ⟨inputs, pins, htaken, hsample⟩ := takeInputSample_unused levels analog hbins htransfers hunused
  refine ⟨s.setIO { s.io with inputs := inputs, analogPins := pins, firstSample := false }, ?_, rfl, rfl, rfl, rfl, rfl, rfl,
    rfl, rfl, rfl, rfl, rfl, rfl, rfl, htaken.position, fun n hn => ?_⟩
  · show outcome (takeInputSample s levels analog) = _
    rw [hsample, outcome_done]
  · have hraw := rawState_eq (s.pin n).cfg (levels.testBit n)
    have hpin : (s.setIO { s.io with inputs := inputs, analogPins := pins, firstSample := false }).pin n =
        debounce (s.pin n) (levels.testBit n) := htaken.pin n hn
    rw [hpin]
    exact ⟨debounce_cfg _ _, debounce_same hraw, debounce_counts hraw, debounce_changes hraw⟩

end

end Sys2Proof.Machine

/-! PROOFS. How a list of tasks runs when each of them has its own effect and nothing follows; and the Line Stop and its end on a part
at rest (R81, R83, R84, R163, R172). -/

namespace Sys2Proof.Machine

section

variable {s t u v : State} {x : Task} {l : List Task} {tag : Byte}

/-! ### Courses of tasks -/

/-- A task leads from `s` to `u`: that is its effect, and the one or two tasks that may follow change nothing. -/
def Leads (x : Task) (s u : State) : Prop :=
  ∃ more, handle x s = (u, more) ∧ more.length ≤ 2 ∧ ∀ t ∈ more, Inert t u

theorem Leads.of_eq (h : handle x s = (u, [])) : Leads x s u := ⟨[], h, Nat.zero_le _, fun _ ht => absurd ht List.not_mem_nil⟩

theorem Leads.of_inert (h : Inert x s) : Leads x s s := .of_eq h

theorem leads_raise (s : State) (e : Event) : Leads (.raise e) s (s.raise e) := .of_eq rfl

/-- An effect that ends a transfer is followed at most by a grant scan. -/
theorem Leads.of_ended {o : Owner} (h : handle x s = (u, (endTransfer v o).2)) (hgrant : grantScan u = (u, [])) :
    Leads x s u := by
  refine ⟨_, h, ?_, ?_⟩
  all_goals rcases endTransfer_snd v o with hmore | hmore <;> rw [hmore]
  · exact Nat.zero_le _
  · exact Nat.le_of_ble_eq_true rfl
  · exact fun t ht => absurd ht List.not_mem_nil
  · intro t ht
    rw [List.mem_singleton.1 ht]
    exact hgrant

/-- Tasks that lead one after another from a state to a state. -/
inductive Course : List Task → State → State → Prop
  | nil (s : State) : Course [] s s
  | cons {x : Task} {l : List Task} {s u v : State} (h : Leads x s u) (hl : Course l u v) : Course (x :: l) s v

theorem Course.append {more : List Task} (h : Course l s u) (hmore : Course more u t) : Course (l ++ more) s t := by
  induction h with
  | nil => exact hmore
  | cons hx _ ih => exact .cons hx (ih hmore)

theorem runTasks_more_add {fuel : Nat} (h : runTasks fuel l s = some t) : ∀ n, runTasks (fuel + n) l s = some t
  | 0 => h
  | n + 1 => runTasks_more (runTasks_more_add h n)

theorem runTasks_inert_append {fuel : Nat} (h : runTasks fuel l s = some t) : ∀ {more : List Task},
    (∀ y ∈ more, Inert y s) → runTasks (fuel + more.length) (more ++ l) s = some t
  | [], _ => h
  | y :: more, hi => by
    obtain ⟨hy, hmore⟩ := List.forall_mem_cons.1 hi
    rw [List.length_cons, ← Nat.add_assoc, List.cons_append, runTasks_cons, show handle y s = (s, []) from hy]
    exact runTasks_inert_append h hmore

theorem Course.runTasks (h : Course l s t) : Sys2Proof.Machine.runTasks (3 * l.length) l s = some t := by
  induction h with
  | nil s => rfl
  | @cons x l s u v h _ ih =>
    obtain ⟨more, hx, hlength, hmore⟩ := h
    have hl := runTasks_more_add (runTasks_inert_append ih hmore) (2 - more.length)
    rw [List.length_cons, show 3 * (l.length + 1) = 3 * l.length + more.length + (2 - more.length) + 1 by omega,
      runTasks_cons, hx]
    exact hl

theorem Course.settle (h : Course l s t) (hl : l.length ≤ 20 := by exact Nat.le_of_ble_eq_true rfl) : settle (s, l) = some t := by
  have hbound : Config.cascadeBound = 3 * l.length + (20000 - 3 * l.length) := by
    rw [show Config.cascadeBound = 20000 from rfl]
    omega
  rw [Sys2Proof.Machine.settle, hbound]
  exact runTasks_more_add h.runTasks _

theorem Course.outcome (h : Course l s t) (hl : l.length ≤ 20 := by exact Nat.le_of_ble_eq_true rfl) : outcome (s, l) = .next t :=
  outcome_of_settle (h.settle hl)

/-! ### Jobs at rest in a Line Stop -/

theorem stopDose_free {sc : Scale} (h : (s.chan sc).dose = none) : Inert (.stopDose sc) s := by
  simp only [Inert, handle, endOpenDose, h, State.done]

theorem stopBatches_none (h : s.line.batches = []) : Inert .stopBatches s := by
  simp only [Inert, handle, stopBatches, h, List.foldl_nil, State.done]

theorem stopMill_stopped (h : s.mill.state = .stopped) : Inert .stopMill s := by
  simp only [Inert, handle, stopMill, h, State.done]

theorem stopPress_idle {p : PressId} (h : (s.pressAt p).state = .idle) : Inert (.stopPress p) s := by
  simp only [Inert, handle, stopPress, h, State.done]

theorem stopLoadout_noTruck (h : s.book.loadout.state = .noTruck) : Inert .stopLoadout s := by
  simp only [Inert, handle, stopLoadout, h, State.done]

/-- A Line Stop clears the start mark also of a bagger without runs (R163, R172). -/
theorem leads_stopBagger_none (h : s.bag.queue = []) :
    Leads .stopBagger s (s.setBag { s.bag with startMark := false }) := by
  have hhead : (s.setBag { s.bag with startMark := false }).headRun = none := by
    rw [State.headRun, State.setBag_bag, h, List.head?_nil]
  exact .of_eq (by simp only [handle, stopBagger, hhead, State.done])

/-! ### The coming of a Line Stop -/

/-- The part as a Line Stop comes into force: outputs off, every transfer as `stopTransfer` leaves it, the waiting list empty (R81,
R82). -/
def lineStopped (s : State) (cause : StopCause) : State :=
  let dropped := (s.arb.transfers.map (·.2)).foldl dropOutputs s
  (dropped.setIO { dropped.io with freeOn := [] }).setArb { dropped.arb with
    transfers := dropped.arb.transfers.map (fun e => (e.1, stopTransfer e.2))
    waiting := []
    stop := addCause ⟨true, s.useActive .lineStop, false⟩ cause }

/-- The jobs that a Line Stop is told to, in their order (R81, notes/assumptions/60.md). -/
abbrev stopJobs : List Task := [.stopBatches, .stopMill, .stopPress .one, .stopPress .two, .stopBagger, .stopLoadout]

/-- The doses end, then the jobs hear of the Line Stop, then it is raised (R81, notes/assumptions/60.md). -/
theorem bringLineStop_running (h : s.stopped = false) (cause : StopCause) : bringLineStop s cause =
    (lineStopped s cause, [.stopDose .main, .stopDose .micro, .stopDose .bagger, .stopDose .truck, .stopBatches, .stopMill,
      .stopPress .one, .stopPress .two, .stopBagger, .stopLoadout, .raise (.lineStop cause (abortCount s))]) :=
  if_neg (ne_true_of_eq_false h)

theorem bringLineStop_stopped (h : s.stopped = true) (cause : StopCause) :
    bringLineStop s cause = (s.setArb { s.arb with stop := addCause s.arb.stop cause }, []) := if_pos h

theorem foldl_dropOutputs_frame (l : List Transfer) : ∀ s : State,
    ∃ inv io, l.foldl dropOutputs s = (s.setInv inv).setIO io := by
  induction l with
  | nil => exact fun s => ⟨s.inv, s.io, rfl⟩
  | cons x l ih =>
    intro s
    obtain ⟨inv, io, h⟩ := ih (dropOutputs s x)
    exact ⟨inv, io, by rw [List.foldl_cons, h, dropOutputs_eq]; rfl⟩

/-- The coming of a Line Stop changes the bins' feeders, the outputs and the arbiter. -/
theorem lineStopped_frame (s : State) (cause : StopCause) :
    ∃ inv io arb, lineStopped s cause = ((s.setInv inv).setIO io).setArb arb := by
  obtain ⟨inv, io, h⟩ := foldl_dropOutputs_frame (s.arb.transfers.map (·.2)) s
  exact ⟨inv, _, _, by rw [lineStopped, h]; rfl⟩

theorem lineStopped_weigh (s : State) (cause : StopCause) : (lineStopped s cause).weigh = s.weigh := by
  obtain ⟨_, _, _, h⟩ := lineStopped_frame s cause
  rw [h]
  rfl

/-- A Line Stop that meets no open dose: what the jobs do to it, one after another. -/
theorem settle_bringLineStop {cause : StopCause} (hrun : s.stopped = false) (hdose : ∀ sc, (s.chan sc).dose = none)
    (hjobs : Course stopJobs (lineStopped s cause) t) :
    settle (bringLineStop s cause) = some (t.raise (.lineStop cause (abortCount s))) := by
  have hfree : ∀ sc, Leads (.stopDose sc) (lineStopped s cause) (lineStopped s cause) := fun sc =>
    .of_inert (stopDose_free (by rw [State.chan, lineStopped_weigh]; exact hdose sc))
  have hraise : Course [.raise (.lineStop cause (abortCount s))] t _ := .cons (leads_raise _ _) (.nil _)
  rw [bringLineStop_running hrun]
  exact Course.settle (.cons (hfree _) (.cons (hfree _) (.cons (hfree _) (.cons (hfree _) (hjobs.append hraise)))))

/-! ### A part at rest -/

/-- No transfer, no batch, no grind request, no run, no truck and no open dose; the mill and the presses stand. -/
structure AtRest (s : State) : Prop where
  transfers : s.arb.transfers = []
  batches : s.line.batches = []
  mill : s.mill.state = .stopped
  press : ∀ p, (s.pressAt p).state = .idle
  bag : s.bag.queue = []
  loadout : s.book.loadout.state = .noTruck
  dose : ∀ sc, (s.chan sc).dose = none
  grinds : s.mill.queue = []

theorem AtRest.setLink (h : AtRest s) (l : Link) : AtRest (s.setLink l) :=
  ⟨h.transfers, h.batches, h.mill, h.press, h.bag, h.loadout, h.dose, h.grinds⟩

theorem AtRest.takeOffered (h : AtRest s) (e : PlantEvent) : AtRest (s.takeOffered e) :=
  ⟨h.transfers, h.batches, h.mill, h.press, h.bag, h.loadout, h.dose, h.grinds⟩

/-- A part at rest after the coming of a Line Stop. -/
def restStopped (s : State) (stop : LineStop) : State :=
  ((s.setIO { s.io with freeOn := [] }).setArb { s.arb with waiting := [], stop := stop }).setBag
    { s.bag with startMark := false }

theorem AtRest.lineStopped (h : AtRest s) (cause : StopCause) : Sys2Proof.Machine.lineStopped s cause =
    (s.setIO { s.io with freeOn := [] }).setArb { s.arb with
      waiting := [], stop := addCause ⟨true, s.useActive .lineStop, false⟩ cause } := by
  simp only [Sys2Proof.Machine.lineStopped, h.transfers, List.map_nil, List.foldl_nil]

theorem AtRest.settle_bringLineStop (h : AtRest s) (hrun : s.stopped = false) (cause : StopCause) :
    settle (bringLineStop s cause) =
      some ((restStopped s (addCause ⟨true, s.useActive .lineStop, false⟩ cause)).raise (.lineStop cause 0)) := by
  have hcount : abortCount s = 0 := by simp only [abortCount, h.transfers, List.filter_nil, List.length_nil]
  rw [← hcount]
  refine Sys2Proof.Machine.settle_bringLineStop hrun h.dose ?_
  rw [h.lineStopped]
  exact .cons (.of_inert (stopBatches_none h.batches)) (.cons (.of_inert (stopMill_stopped h.mill))
    (.cons (.of_inert (stopPress_idle (h.press .one))) (.cons (.of_inert (stopPress_idle (h.press .two)))
      (.cons (leads_stopBagger_none h.bag) (.cons (.of_inert (stopLoadout_noTruck h.loadout)) (.nil (restStopped s _)))))))

/-- The Line Stop cleared. -/
def resumed (s : State) : State := s.setArb { s.arb with stop := ⟨false, false, false⟩ }

theorem AtRest.settle_clearLineStop (h : AtRest s) : settle (clearLineStop s) = some (resumed s) := by
  have hbatches : (resumed s).line.batches = [] := h.batches
  have hmixer : (resumed s).mixerBatch = none := by rw [State.mixerBatch, hbatches, List.find?_nil]
  have hgrinds : (resumed s).mill.queue = [] := h.grinds
  have hstart : Inert .startSelection (resumed s) := by
    show startSelection (resumed s) = _
    simp only [startSelection, hbatches, selectOver, State.done, ite_self]
  have hroom : Inert .roomCheck (resumed s) := by
    show roomCheck (resumed s) = _
    simp only [roomCheck, hmixer, State.done]
  have hserving : Inert .serving (resumed s) := by
    show serving (resumed s) = _
    simp only [serving, hgrinds, serveOver, screenCheck, List.find?_nil, State.done, ite_self]
  exact Course.settle (.cons (.of_inert hstart) (.cons (.of_inert hroom) (.cons (.of_inert hserving)
    (.cons (.of_inert (tryDischarge_empty hbatches)) (.nil _)))))

/-- Settles O32: on a part at rest only the bagger's start mark hears of the Line Stop, and nothing takes up its work when it is
cleared. -/
theorem lineStopAndResume : Obligations.LineStopAndResume := by
  intro s tag hroom htransfers hbatches hmill hpress hbag hloadout hdose hgrinds
  have hrest : AtRest s := ⟨htransfers, hbatches, hmill, hpress, hbag, hloadout, hdose, hgrinds⟩
  refine ⟨fun hrun hinput => ?_, fun hrun => ?_, fun hstop => ⟨?_, ?_⟩, fun hstop hinput => ?_, fun hstop hinput => ?_,
    fun hrun => ?_⟩
  · show execLineStop tag s = _
    refine serve_accepted hroom fun k => ⟨_, _, rfl, ?_, ?_⟩
    · rw [(hrest.setLink k).settle_bringLineStop hrun .request, State.setLink_useActive, hinput]
      rfl
    · simp only [State.setLink_stopped, hrun]
      rfl
  · show outcome _ = _
    exact outcome_of_settle ((hrest.takeOffered _).settle_bringLineStop hrun .input)
  · show execLineStop tag s = _
    refine serve_accepted hroom fun k => ⟨_, _, rfl, ?_, ?_⟩
    · rw [bringLineStop_stopped (by exact hstop)]
      rfl
    · simp only [State.setLink_stopped, hstop]
      rfl
  · show outcome _ = _
    rw [bringLineStop_stopped (by exact hstop)]
    rfl
  · show execLineResume tag s = _
    refine serve_accepted hroom fun k => ⟨clearLineStop (s.setLink k), fun _ => [], ?_, (hrest.setLink k).settle_clearLineStop, rfl⟩
    simp only [State.setLink_stopped, hstop, State.setLink_useActive, hinput]
    rfl
  · show execLineResume tag s = _
    refine serve_refused hroom fun k => ?_
    simp only [State.setLink_stopped, hstop, State.setLink_useActive, hinput]
    rfl
  · show execLineResume tag s = _
    refine serve_plainly (f := id) hroom fun k => ?_
    simp only [State.setLink_stopped, hrun]
    rfl

end

end Sys2Proof.Machine

/-! PROOFS. What fails a transfer and what its owner does: the end of a transfer, the permit time-out, the loss of a permissive, the
Line Stop, and the grant scan (R76, R77, R79 to R81, R101, R109, R110, R129, R154, R166, R172, R188). -/

namespace Sys2Proof

variable {α : Type}

theorem Table.del_set (t : Table α) (k : Nat) (v : α) : Table.del (Table.set t k v) k = Table.del t k := by
  induction t with
  | nil => simp [Table.set, Table.del]
  | cons e t ih =>
    obtain ⟨j, w⟩ := e
    simp only [Table.set]
    split_ifs with heq hlt
    · subst heq; simp [Table.del]
    · simp [Table.del]
    · simp [Table.del, heq, ih]

/-- The first entry that `p` takes, written anew in a form that `p` takes, stays the first. -/
theorem Table.find_set {p : Nat × α → Bool} {t : Table α} {k : Nat} {w v : α} (h : t.find? p = some (k, w))
    (hv : p (k, v) = true) : (Table.set t k v).find? p = some (k, v) := by
  induction t with
  | nil => cases h
  | cons e t ih =>
    obtain ⟨j, x⟩ := e
    simp only [Table.set]
    split_ifs with heq hlt
    · rw [List.find?_cons_of_pos hv]
    · rw [List.find?_cons_of_pos hv]
    · by_cases hp : p (j, x) = true
      · rw [List.find?_cons_of_pos hp] at h
        cases h
        exact absurd rfl heq
      · rw [List.find?_cons_of_neg hp] at h ⊢
        exact ih h

end Sys2Proof

namespace Sys2Proof.Machine

section

variable {s t u : State} {o : Owner} {slot : Nat} {x y : Transfer}

/-! ### The end of a transfer -/

theorem transferEnded_of_transfer (h : s.transferOf o = some (slot, x)) : transferEnded s o =
    (dropOutputs s x).setArb { s.arb with
      transfers := Table.del s.arb.transfers slot, waiting := s.arb.waiting.erase slot } := by
  simp only [transferEnded, h, removeTransfer, dropOutputs_eq]
  rfl

theorem transferEnded_setMill (s : State) (m : Mill) (o : Owner) :
    transferEnded (s.setMill m) o = (transferEnded s o).setMill m := by
  rw [transferEnded_eq, transferEnded_eq]
  rfl

theorem transferEnded_setPress (s : State) (p : PressId) (m : Press) (o : Owner) :
    transferEnded (s.setPress p m) o = (transferEnded s o).setPress p m := by
  rw [transferEnded_eq, transferEnded_eq]
  rfl

theorem transferEnded_setBag (s : State) (b : Bagger) (o : Owner) :
    transferEnded (s.setBag b) o = (transferEnded s o).setBag b := by
  rw [transferEnded_eq, transferEnded_eq]
  rfl

@[simp] theorem transferEnded_bag (s : State) (o : Owner) : (transferEnded s o).bag = s.bag := by rw [transferEnded_eq]; rfl
@[simp] theorem transferEnded_book (s : State) (o : Owner) : (transferEnded s o).book = s.book := by rw [transferEnded_eq]; rfl

/-- A record of the owner's transfer in another state ends like the transfer. -/
theorem transferEnded_putTransfer (h : s.transferOf o = some (slot, x)) (howner : y.owner = o) (hlegs : y.legs = x.legs)
    (hgates : y.gates = x.gates) : transferEnded (putTransfer s slot y) o = transferEnded s o := by
  have hput : (putTransfer s slot y).transferOf o = some (slot, y) := Table.find_set h (decide_eq_true howner)
  rw [transferEnded_of_transfer h, transferEnded_of_transfer hput, dropOutputs_eq, dropOutputs_eq, hlegs, hgates]
  simp only [putTransfer, State.setArb_arb, Table.del_set]
  rfl

theorem askFeeder_putTransfer (s : State) (slot : Nat) (y : Transfer) (b v : Nat) :
    (putTransfer s slot y).askFeeder b v = putTransfer (s.askFeeder b v) slot y := by
  rw [askFeeder_eq, askFeeder_eq]
  rfl

@[simp] theorem askFeeder_arb (s : State) (b v : Nat) : (s.askFeeder b v).arb = s.arb := by rw [askFeeder_eq]; rfl
@[simp] theorem askFeeder_mill (s : State) (b v : Nat) : (s.askFeeder b v).mill = s.mill := by rw [askFeeder_eq]; rfl
@[simp] theorem askFeeder_press (s : State) (b v : Nat) : (s.askFeeder b v).press = s.press := by rw [askFeeder_eq]; rfl
@[simp] theorem askFeeder_bag (s : State) (b v : Nat) : (s.askFeeder b v).bag = s.bag := by rw [askFeeder_eq]; rfl

theorem askFeeder_transferOf (s : State) (b v : Nat) (o : Owner) : (s.askFeeder b v).transferOf o = s.transferOf o := by
  rw [State.transferOf, askFeeder_arb, State.transferOf]

/-! ### The mill held -/

section mill

variable {n : Nat} {r : GrindRequest}

/-- The mill with its feed off and its transfer ended, held with the motor on. -/
def millHeldOn (s : State) (n : Nat) (r : GrindRequest) (reason : MillReason) : State :=
  ((transferEnded (s.askFeeder r.source 0) .mill).setMill { s.mill with
    engaged := false, u := 0, state := .held reason, timer := none }).raise (.millHeld reason n)

/-- The mill with its feed off and its transfer ended, held with the motor off. -/
def millHeldOff (s : State) (n : Nat) (r : GrindRequest) (reason : MillReason) : State :=
  (((transferEnded (s.askFeeder r.source 0) .mill).ask .millMotor false).setMill { s.mill with
    engaged := false, u := 0, state := .held reason, timer := none, feedbackFound := false }).raise (.millHeld reason n)

theorem millFeedOff_of_current (hn : s.mill.current = some n) (hr : s.grind n = some r) :
    millFeedOff s = (s.askFeeder r.source 0).setMill { s.mill with engaged := false, u := 0 } := by
  have hcurrent : s.currentGrind = some r := by rw [State.currentGrind, hn, Option.bind_some, hr]
  simp only [millFeedOff, hcurrent, askFeeder_mill]

theorem holdMill_of_current (hn : s.mill.current = some n) (hr : s.grind n = some r) (reason : MillReason) (motor : Bool) :
    holdMill s reason motor = (if motor then millHeldOn s n r reason else millHeldOff s n r reason,
      (endTransfer (millFeedOff s) .mill).2) := by
  have hended : (endTransfer (millFeedOff s) .mill).1 =
      (transferEnded (s.askFeeder r.source 0) .mill).setMill { s.mill with engaged := false, u := 0 } := by
    rw [endTransfer_fst, millFeedOff_of_current hn hr, transferEnded_setMill]
  have hnumber : s.mill.current.getD 0 = n := by rw [hn, Option.getD_some]
  subst hnumber
  simp only [holdMill, hended]
  cases motor <;> rfl

theorem millHeldOn_waiting (h : s.arb.waiting = []) (n : Nat) (r : GrindRequest) (reason : MillReason) :
    (millHeldOn s n r reason).arb.waiting = [] :=
  transferEnded_waiting (by rw [askFeeder_arb]; exact h) .mill

theorem leads_millTransferFailed (hwaiting : s.arb.waiting = []) (hn : s.mill.current = some n) (hr : s.grind n = some r)
    (hstate : s.mill.state = .running) {task : Task} {reason : MillReason}
    (htask : handle task s = millTransferFailed s reason) : Leads task s (millHeldOn s n r reason) := by
  refine .of_ended (v := millFeedOff s) (o := .mill) ?_ (grantScan_idle (millHeldOn_waiting hwaiting n r reason))
  rw [htask, millTransferFailed, if_pos hstate, holdMill_of_current hn hr, if_pos rfl]

theorem leads_stopMill (hwaiting : s.arb.waiting = []) (hn : s.mill.current = some n) (hr : s.grind n = some r)
    (hstate : s.mill.state = .running) : Leads .stopMill s (millHeldOff s n r .lineStop) := by
  refine .of_ended (v := millFeedOff s) (o := .mill) ?_ (grantScan_idle ?_)
  · simp only [handle, stopMill, hstate]
    rw [holdMill_of_current hn hr, if_neg Bool.false_ne_true]
  · exact transferEnded_waiting (by rw [askFeeder_arb]; exact hwaiting) .mill

end mill

/-! ### A press held -/

section press

variable {p : PressId} {a : ActiveRun}

/-- A press with its feed off and its transfer ended, held with the motor on. -/
def pressHeldOn (s : State) (p : PressId) (a : ActiveRun) (reason : PressReason) : State :=
  ((transferEnded (s.askFeeder (s.pressAt p).cfg.surgeBin 0) (pressOwner p)).setPress p { s.pressAt p with
    engaged := false, state := .held reason .none, timer := none }).raise (.pressHeld p reason .none a.number)

/-- A press with its feed and its motor off, held in a Line Stop with the record of its transfer. -/
def pressStopped (s : State) (p : PressId) (a : ActiveRun) : State :=
  (((s.askFeeder (s.pressAt p).cfg.surgeBin 0).ask (pressMotor p) false).setPress p { s.pressAt p with
    engaged := false, feedbackFound := false, state := .held .lineStop .none, timer := none }).raise
      (.pressHeld p .lineStop .none a.number)

theorem pressFeedOff_eq (s : State) (p : PressId) : pressFeedOff s p =
    (s.askFeeder (s.pressAt p).cfg.surgeBin 0).setPress p { s.pressAt p with engaged := false } := by
  simp only [pressFeedOff, State.modPress, State.pressAt, askFeeder_press]

theorem holdPress_of_active (ha : (s.pressAt p).active = some a) (reason : PressReason) : holdPress s p reason .none true =
    (pressHeldOn s p a reason, (endTransfer (pressFeedOff s p) (pressOwner p)).2) := by
  have hended : (endTransfer (pressFeedOff s p) (pressOwner p)).1 =
      (transferEnded (s.askFeeder (s.pressAt p).cfg.surgeBin 0) (pressOwner p)).setPress p
        { s.pressAt p with engaged := false } := by
    rw [endTransfer_fst, pressFeedOff_eq, transferEnded_setPress]
  have hnumber : a.number = ((s.pressAt p).active.map (·.number)).getD 0 := by rw [ha]; rfl
  simp only [holdPress, hended, pressHeldOn, hnumber, if_true]
  cases p <;> rfl

theorem leads_pressTransferFailed (hwaiting : s.arb.waiting = []) (ha : (s.pressAt p).active = some a)
    (hstate : (s.pressAt p).state = .running ∨ (s.pressAt p).state = .flushing) {task : Task} {reason : PressReason}
    (htask : handle task s = pressTransferFailed s p reason) : Leads task s (pressHeldOn s p a reason) := by
  refine .of_ended (v := pressFeedOff s p) (o := pressOwner p) ?_ (grantScan_idle ?_)
  · have hheld : pressTransferFailed s p reason = holdPress s p reason .none true := by
      rcases hstate with h | h <;> simp only [pressTransferFailed, h]
    rw [htask, hheld, holdPress_of_active ha]
  · exact transferEnded_waiting (by rw [askFeeder_arb]; exact hwaiting) (pressOwner p)

theorem leads_stopPress (ha : (s.pressAt p).active = some a)
    (hstate : (s.pressAt p).state = .running ∨ (s.pressAt p).state = .flushing) :
    Leads (.stopPress p) s (pressStopped s p a) := by
  have hnumber : a.number = ((s.pressAt p).active.map (·.number)).getD 0 := by rw [ha]; rfl
  refine .of_eq ?_
  rcases hstate with h | h
  all_goals
    simp only [handle, stopPress, h, pressFeedOff_eq, pressStopped, hnumber]
    cases p <;> rfl

end press

/-! ### The bagger held -/

section bagger

variable {r : BagRun} {rest : List BagRun}

/-- A run that waits for a bag, held with its transfer ended. -/
def bagHeld (s : State) (r : BagRun) (rest : List BagRun) (reason : BagReason) (cause : BagCause) : State :=
  (((transferEnded s .bagger).setBag { s.bag with
    queue := { r with state := .held reason cause .waitBag, permitLost := false } :: rest
    timer := none }).ask .baggerReject false).ask .baggerClamp r.onSpout

theorem holdBag_of_waitBag (hrest : s.bag.queue.tail = rest) (hstate : r.state = .waitBag) (reason : BagReason)
    (cause : BagCause) : holdBag s r reason cause = (bagHeld s r rest reason cause, (endTransfer s .bagger).2) := by
  subst hrest
  simp only [holdBag, endTransfer_fst, hstate, heldPhase, putHead, transferEnded_bag]
  rfl

theorem leads_bagTransferExpired (hwaiting : s.arb.waiting = []) (hq : s.bag.queue = r :: rest) (hstate : r.state = .waitBag) :
    Leads (.ownerNoPermit .bagger) s (bagHeld s r rest .permit .timeout) := by
  have hhead : s.headRun = some r := by rw [State.headRun, hq, List.head?_cons]
  refine .of_ended (v := s) (o := .bagger) ?_ (grantScan_idle (transferEnded_waiting (s := s) hwaiting .bagger))
  simp only [handle, tellNoPermit, bagTransferExpired, hhead, hstate, if_true]
  exact holdBag_of_waitBag (by rw [hq, List.tail_cons]) hstate _ _

theorem stopBagger_of_waitBag (hq : s.bag.queue = r :: rest) (hstate : r.state = .waitBag) :
    stopBagger s = holdBag (s.setBag { s.bag with startMark := false }) { r with onSpout := false } .lineStop .none := by
  have hhead : (s.setBag { s.bag with startMark := false }).headRun = some r := by
    rw [State.headRun, State.setBag_bag, hq, List.head?_cons]
  cases r with | mk =>
  cases hstate
  simp only [stopBagger, hhead]

/-- A Line Stop takes the bag from the spout and holds the run (R172). -/
theorem leads_stopBagger (hwaiting : s.arb.waiting = []) (hq : s.bag.queue = r :: rest) (hstate : r.state = .waitBag) :
    Leads .stopBagger s (bagHeld (s.setBag { s.bag with startMark := false }) { r with onSpout := false } rest
      .lineStop .none) := by
  refine .of_ended (v := s.setBag { s.bag with startMark := false }) (o := .bagger) ?_
    (grantScan_idle (transferEnded_waiting (s := s.setBag { s.bag with startMark := false }) hwaiting .bagger))
  rw [show handle .stopBagger s = stopBagger s from rfl, stopBagger_of_waitBag hq hstate]
  exact holdBag_of_waitBag (s := s.setBag { s.bag with startMark := false }) (r := { r with onSpout := false })
    (by rw [State.setBag_bag, hq, List.tail_cons]) hstate _ _

end bagger

/-! ### The loadout held -/

section loadout

variable {p : Order} {i : Nat} {l : OrderLine}

/-- The loadout held on its current line, its transfer ended. -/
def loadoutHeldAt (s : State) (i : Nat) (reason : LoadReason) (cause : LoadCause) : State :=
  ((transferEnded s .loadout).setLoadState (.held reason cause)).raise (.loadoutHeld i reason cause)

theorem holdLoadout_of_current (h : s.currentLine = some (p, i, l)) (reason : LoadReason) (cause : LoadCause) :
    holdLoadout s reason cause = (loadoutHeldAt s i reason cause, (endTransfer s .loadout).2) := by
  obtain ⟨t, ht, -, hi, -⟩ := currentLine_inv h
  simp only [holdLoadout, endTransfer_fst, transferEnded_book, ht, Option.bind_some, hi, Option.getD_some, loadoutHeldAt]

theorem leads_loadTransferFailed (hwaiting : s.arb.waiting = []) (hstate : s.book.loadout.state = .loading)
    (h : s.currentLine = some (p, i, l)) {task : Task} {cause : LoadCause}
    (htask : handle task s = loadTransferFailed s cause) : Leads task s (loadoutHeldAt s i .permit cause) := by
  refine .of_ended (v := s) (o := .loadout) ?_ (grantScan_idle (transferEnded_waiting (s := s) hwaiting .loadout))
  rw [htask, loadTransferFailed, if_pos hstate, holdLoadout_of_current h]

theorem leads_stopLoadout (hwaiting : s.arb.waiting = []) (hstate : s.book.loadout.state = .loading)
    (h : s.currentLine = some (p, i, l)) : Leads .stopLoadout s (loadoutHeldAt s i .lineStop .none) := by
  refine .of_ended (v := s) (o := .loadout) ?_ (grantScan_idle (transferEnded_waiting (s := s) hwaiting .loadout))
  simp only [handle, stopLoadout, hstate]
  exact holdLoadout_of_current h _ _

end loadout

/-! ### A batch held -/

section batch

variable {b : Batch} {i : Nat} {e : StepEntry}

theorem mem_indexed {k : Nat} {f : StepEntry} (h : (k, f) ∈ b.indexed) : 1 ≤ k ∧ b.steps[k - 1]? = some f := by
  obtain ⟨j, hj⟩ := List.getElem?_of_mem h
  obtain ⟨hk, hf⟩ := List.getElem?_zip_eq_some.1 hj
  rw [List.getElem?_map] at hk
  obtain ⟨m, hm, rfl⟩ := Option.map_eq_some_iff.1 hk
  obtain ⟨_, hjm⟩ := List.getElem?_eq_some_iff.1 hm
  rw [List.getElem_range] at hjm
  subst hjm
  exact ⟨Nat.le_add_left 1 j, hf⟩

theorem map_snd_indexed (b : Batch) : b.indexed.map Prod.snd = b.steps :=
  List.map_snd_zip (by rw [List.length_map, List.length_range])

theorem dosingStep_inv {sc : Scale} (h : b.dosingStep sc = some (i, e)) :
    1 ≤ i ∧ b.steps[i - 1]? = some e ∧ e.source.scale = sc ∧ e.status = .dosing := by
  obtain ⟨hlow, hat⟩ := mem_indexed (List.mem_of_find?_eq_some h)
  exact ⟨hlow, hat, of_decide_eq_true (List.find?_some (p := fun e : Nat × StepEntry =>
    decide (e.2.source.scale = sc ∧ e.2.status = .dosing)) h)⟩

theorem dosingStep_none_iff {sc : Scale} :
    b.dosingStep sc = none ↔ ∀ f ∈ b.steps, ¬(f.source.scale = sc ∧ f.status = .dosing) := by
  rw [← map_snd_indexed b]
  simp only [Batch.dosingStep, List.find?_eq_none, decide_eq_true_eq, List.forall_mem_map]

/-- The batch held on a step. -/
def stepHeldForm (b : Batch) (i : Nat) (e : StepEntry) (reason : StepReason) : Batch :=
  { b with steps := b.steps.set (i - 1) { e with status := .held reason }
           state := .held .dosing (batchReasonOf reason) }

/-- A hold of a step takes none of the others to DOSING. -/
theorem dosingStep_stepHeldForm {sc : Scale} (h : b.dosingStep sc = none) (reason : StepReason) :
    (stepHeldForm b i e reason).dosingStep sc = none := by
  refine dosingStep_none_iff.2 fun f hf hdosing => ?_
  rcases List.mem_or_eq_of_mem_set hf with hmem | rfl
  · exact dosingStep_none_iff.1 h f hmem hdosing
  · exact StepStatus.noConfusion hdosing.2

theorem returnStep_of_none {sc : Scale} (hline : s.line.batches = [b]) (h : b.dosingStep sc = none) :
    returnStep s b.number sc = (s, []) := by
  have hb : s.batch b.number = some b := find_only hline (decide_eq_true rfl)
  simp only [returnStep, hb, h, State.done]

/-- The first hold holds the only batch; no step of MICRO is there to return to PENDING (R103). -/
theorem holdStep_only {reason : StepReason} (hline : s.line.batches = [b]) (hstate : b.state = .dosing)
    (hat : b.steps[i - 1]? = some e) (hscale : e.source.scale = .main) (hmicro : b.dosingStep .micro = none) :
    holdStep s b.number i reason = ((s.setLine { s.line with batches := [stepHeldForm b i e reason] }).raise
      (.stepHeld b.number i reason), []) := by
  have hb : s.batch b.number = some b := find_only hline (decide_eq_true rfl)
  have hput : s.putBatch (stepHeldForm b i e reason) = _ := State.putBatch_only hline rfl
  rw [← hput]
  simp only [holdStep, hb, hat, hstate, decide_true, if_true, Bool.true_and, hscale, otherScale]
  split_ifs
  · exact returnStep_of_none (b := stepHeldForm b i e reason) (State.putBatch_only_batches hline rfl)
      (dosingStep_stepHeldForm hmicro reason)
  · rfl

/-- The only batch held on a step of MAIN, its transfer ended and its gate pattern asked off. -/
def stepHeldMain (s : State) (b : Batch) (i : Nat) (e : StepEntry) (reason : StepReason) : State :=
  (((transferEnded s .batchMain).askAll (stepGates e.source) false).setLine { s.line with
    batches := [stepHeldForm b i e reason] }).raise (.stepHeld b.number i reason)

theorem stepTransferFailed_main {reason : StepReason} (hline : s.line.batches = [b]) (hstate : b.state = .dosing)
    (hmain : b.dosingStep .main = some (i, e)) (hmicro : b.dosingStep .micro = none) :
    stepTransferFailed s .main reason = (stepHeldMain s b i e reason, (endTransfer s .batchMain).2) := by
  obtain ⟨-, hat, hscale, -⟩ := dosingStep_inv hmain
  have hb : s.line.batches.find? (fun b => (b.dosingStep .main).isSome) = some b := find_only hline (by rw [hmain]; rfl)
  have hends : ((transferEnded s .batchMain).askAll (stepGates e.source) false).line = s.line := by
    rw [askAll_eq, State.setIO_line, transferEnded_line]
  have hheld := holdStep_only (reason := reason) (hends ▸ hline) hstate hat hscale hmicro
  simp only [stepTransferFailed, hb, hmain, stepOwner, endTransfer_fst, hheld, List.append_nil, stepHeldMain, hends]

end batch

/-! ### The permit time-out -/

/-- The record of a transfer whose permit time has run out (R77). -/
def permitExpired (s : State) (slot : Nat) (x : Transfer) : State :=
  putTransfer s slot { x with timer := none, expired := true }

theorem exec_permitTimeout_idle {slot : Nat} {x : Transfer} (hx : Table.get s.arb.transfers slot = some x)
    (h : x.state = .permitWait → x.timer = none) : exec (.permitTimeout slot) s = .next s := by
  have hidle : ¬(x.state = .permitWait ∧ x.timer.isSome = true) := fun ⟨hstate, hsome⟩ => by
    rw [h hstate] at hsome
    cases hsome
  show outcome (permitExpiry s slot) = _
  simp only [permitExpiry, hx, if_neg hidle]
  rfl

theorem exec_permitTimeout_waiting {left : Tenths} (hx : Table.get s.arb.transfers slot = some x) (hstate : x.state = .permitWait)
    (htimer : x.timer = some left) (h : Leads (.ownerNoPermit x.owner) (permitExpired s slot x) t) :
    exec (.permitTimeout slot) s = .next t := by
  have hdue : x.state = .permitWait ∧ x.timer.isSome = true := ⟨hstate, by rw [htimer]; rfl⟩
  show outcome (permitExpiry s slot) = _
  simp only [permitExpiry, hx, if_pos hdue]
  exact Course.outcome (.cons h (.nil _))

theorem transferEnded_permitExpired (h : s.transferOf x.owner = some (slot, x)) :
    transferEnded (permitExpired s slot x) x.owner = transferEnded s x.owner :=
  transferEnded_putTransfer (x := x) h rfl rfl rfl

theorem transferEnded_askFeeder_permitExpired (h : s.transferOf x.owner = some (slot, x)) (b v : Nat) :
    transferEnded ((permitExpired s slot x).askFeeder b v) x.owner = transferEnded (s.askFeeder b v) x.owner := by
  rw [permitExpired, askFeeder_putTransfer]
  exact transferEnded_putTransfer (x := x) (by rw [askFeeder_transferOf]; exact h) rfl rfl rfl

/-! ### The loss of a permissive -/

theorem outcome_of_step {y : Task} {more : List Task} (hy : handle y s = (u, more)) (h : Course more u t)
    (hmore : more.length ≤ 20 := by exact Nat.le_of_ble_eq_true rfl) : outcome (s, [y]) = .next t := by
  have hbound : Config.cascadeBound = 3 * more.length + (19999 - 3 * more.length) + 1 := by
    rw [show Config.cascadeBound = 20000 from rfl]
    omega
  refine outcome_of_settle ?_
  rw [settle, hbound, runTasks_cons, hy, List.append_nil]
  exact runTasks_more_add h.runTasks _

/-- A permissive lost aborts the transfer; its owner is told, then the loss is raised (R79). -/
theorem exec_inputSample_lost {w : State} {levels route : Nat} {analog : List Int} {q : Permissive}
    (hsample : takeInputSample s levels analog = (u, [.judgeTransfer slot])) (hx : Table.get u.arb.transfers slot = some x)
    (hflowing : x.state = .flowing) (hfails : u.failingPermissive x = some (route, q))
    (hw : w = (dropOutputs u x).setArb { u.arb with
      transfers := Table.set u.arb.transfers slot { x with
        state := .aborted, held := [], cause := some (.permit route q.input) } })
    (h : Leads (.ownerAborted x.owner) w t) (hwaiting : t.arb.waiting = []) :
    exec (.inputSample levels analog) s = .next (t.raise (.permissiveLost x.owner route q.input q.required)) := by
  have hjudge : handle (.judgeTransfer slot) u =
      (w, [.ownerAborted x.owner, .raise (.permissiveLost x.owner route q.input q.required), .grantScan]) := by
    simp only [handle, judgeTransfer, hx, hflowing, hfails, abortTransfer, putTransfer, hw, dropOutputs_eq]
    rfl
  show outcome (takeInputSample s levels analog) = _
  rw [hsample]
  exact outcome_of_step hjudge (.cons h (.cons (leads_raise _ _) (.cons (.of_inert (grantScan_idle hwaiting)) (.nil _))))

/-- The loss of a permissive changes the bins' feeders, the outputs and the arbiter, and nothing more waits than before. -/
theorem lost_frame {w : State} {l : Table Transfer} (hw : w = (dropOutputs u x).setArb { u.arb with transfers := l }) :
    ∃ inv io arb, w = ((u.setInv inv).setIO io).setArb arb ∧ arb.waiting = u.arb.waiting := by
  rw [hw, dropOutputs_eq]
  exact ⟨_, _, _, rfl, rfl⟩

/-! ### The grant scan -/

theorem grantable_iff : grantable s x = true ↔ ∀ n ∈ s.legResources x.legs, s.resourceHeld n = false := by
  simp only [grantable, List.all_eq_true, Bool.not_eq_true']

theorem not_grantable {n : Nat} (hn : n ∈ s.legResources x.legs) (hheld : s.resourceHeld n = true) : grantable s x = false :=
  Bool.eq_false_iff.2 fun h => Bool.false_ne_true ((grantable_iff.1 h n hn).symm.trans hheld)

/-- A slot in `before` holds no transfer, or one that waits for a resource. -/
theorem grantScanOver_skip {before : List Nat} (after : List Nat)
    (h : ∀ k ∈ before, ∀ y, Table.get s.arb.transfers k = some y →
      ∃ n ∈ s.legResources y.legs, s.resourceHeld n = true) :
    grantScanOver (before ++ after) s = grantScanOver after s := by
  induction before with
  | nil => rfl
  | cons k before ih =>
    obtain ⟨hk, hbefore⟩ := List.forall_mem_cons.1 h
    rw [List.cons_append, grantScanOver]
    cases hget : Table.get s.arb.transfers k with
    | none => exact ih hbefore
    | some y =>
      obtain ⟨n, hn, hheld⟩ := hk y hget
      simp only [not_grantable hn hheld, Bool.false_eq_true, if_false]
      exact ih hbefore

theorem grantScan_first {before after : List Nat} (hrun : s.stopped = false) (hwaiting : s.arb.waiting = before ++ slot :: after)
    (hbefore : ∀ k ∈ before, ∀ y, Table.get s.arb.transfers k = some y →
      ∃ n ∈ s.legResources y.legs, s.resourceHeld n = true)
    (hx : Table.get s.arb.transfers slot = some x) (hfree : ∀ n ∈ s.legResources x.legs, s.resourceHeld n = false) :
    grantScan s = (grant s slot x).andThen (grantScanOver after) := by
  rw [grantScan, if_neg (ne_true_of_eq_false hrun), hwaiting, grantScanOver_skip _ hbefore, grantScanOver]
  simp only [hx, grantable_iff.2 hfree, if_true]

theorem grantScan_none (hrun : s.stopped = false) (h : ∀ k ∈ s.arb.waiting, ∀ y, Table.get s.arb.transfers k = some y →
    ∃ n ∈ s.legResources y.legs, s.resourceHeld n = true) : grantScan s = (s, []) := by
  have hskip := grantScanOver_skip [] h
  rw [List.append_nil] at hskip
  rw [grantScan, if_neg (ne_true_of_eq_false hrun), hskip, grantScanOver, State.done]

/-! ### The owners of a transfer that fails -/

/-- The permit part of O31: the job of a transfer whose permit time runs out (R77). -/
theorem exec_permitTimeout_owner {left : Tenths} (hx : Table.get s.arb.transfers slot = some x)
    (hstate : x.state = .permitWait) (htimer : x.timer = some left) (hof : s.transferOf x.owner = some (slot, x))
    (hwaiting : s.arb.waiting = []) :
    (∀ n r, x.owner = .mill → s.mill.current = some n → s.grind n = some r → s.mill.state = .running →
      exec (.permitTimeout slot) s = .next (millHeldOn s n r .noPermit)) ∧
    (∀ p a, x.owner = pressOwner p → (s.pressAt p).active = some a →
      ((s.pressAt p).state = .running ∨ (s.pressAt p).state = .flushing) →
      exec (.permitTimeout slot) s = .next (pressHeldOn s p a .noPermit)) ∧
    (∀ r rest, x.owner = .bagger → s.bag.queue = r :: rest → r.state = .waitBag →
      exec (.permitTimeout slot) s = .next (bagHeld s r rest .permit .timeout)) ∧
    (∀ p i l, x.owner = .loadout → s.book.loadout.state = .loading → s.currentLine = some (p, i, l) →
      exec (.permitTimeout slot) s = .next (loadoutHeldAt s i .permit .timeout)) ∧
    (∀ b i e, x.owner = .batchMain → s.line.batches = [b] → b.state = .dosing → b.dosingStep .main = some (i, e) →
      b.dosingStep .micro = none → exec (.permitTimeout slot) s = .next (stepHeldMain s b i e .noPermit)) ∧
    (∀ b, x.owner = .batchRelease → s.line.batches = [b] → b.state = .mixed →
      exec (.permitTimeout slot) s = .next (mixerHeld s b .mixed .noPermit)) := by
  have hended := transferEnded_permitExpired hof
  have hasked := transferEnded_askFeeder_permitExpired hof
  have hexpired := fun t => exec_permitTimeout_waiting (t := t) hx hstate htimer
  have hidle : (permitExpired s slot x).arb.waiting = [] := hwaiting
  refine ⟨fun n r ho hn hr hrun => ?_, fun p a ho ha hrun => ?_, fun r rest ho hq hwait => ?_, fun p i l ho hload hl => ?_,
    fun b i e ho hline hdosing hmain hmicro => ?_, fun b ho hline hmixed => ?_⟩
  all_goals
    rw [ho] at hended hasked hexpired
    refine hexpired _ ?_
  · have hlead := leads_millTransferFailed (s := permitExpired s slot x) hidle hn hr hrun (task := .ownerNoPermit .mill) rfl
    rw [millHeldOn, hasked] at hlead
    exact hlead
  · have hlead := leads_pressTransferFailed (s := permitExpired s slot x) (p := p) hidle ha hrun
      (task := .ownerNoPermit (pressOwner p)) (reason := .noPermit) (by cases p <;> rfl)
    rw [pressHeldOn, hasked] at hlead
    exact hlead
  · have hlead := leads_bagTransferExpired (s := permitExpired s slot x) hidle hq hwait
    rw [bagHeld, hended] at hlead
    exact hlead
  · have hlead := leads_loadTransferFailed (s := permitExpired s slot x) hidle hload hl (task := .ownerNoPermit .loadout) rfl
    rw [loadoutHeldAt, hended] at hlead
    exact hlead
  · have hlead : Leads (.ownerNoPermit .batchMain) (permitExpired s slot x) _ :=
      .of_ended (stepTransferFailed_main (s := permitExpired s slot x) hline hdosing hmain hmicro) (grantScan_idle ?_)
    · rw [stepHeldMain, hended] at hlead
      exact hlead
    · show ((transferEnded (permitExpired s slot x) .batchMain).askAll (stepGates e.source) false).arb.waiting = []
      rw [askAll_eq]
      exact transferEnded_waiting hidle _
  · have hlead : Leads (.ownerNoPermit .batchRelease) (permitExpired s slot x) (mixerHeld (permitExpired s slot x) b .mixed .noPermit) := by
      refine .of_ended (v := permitExpired s slot x) (o := .batchRelease) ?_ (grantScan_idle (transferEnded_waiting hidle _))
      have hfind : (permitExpired s slot x).line.batches.find? (fun b => decide (b.state = .mixed)) = some b :=
        find_only hline (decide_eq_true hmixed)
      simp only [handle, tellNoPermit, hfind, holdMixer, endTransfer_fst]
      rfl
    rw [mixerHeld, hended] at hlead
    exact hlead

theorem ownerDosing_none {sc : Scale} (ho : ownerScale o = some sc) (h : (s.chan sc).dose = none) : ownerDosing s o = none := by
  simp only [ownerDosing, ho, h]

/-- The loss part of O31: the job of a FLOWING transfer that loses a permissive (R79). -/
theorem exec_inputSample_owner {w : State} {levels route : Nat} {analog : List Int} {q : Permissive}
    (hsample : takeInputSample s levels analog = (u, [.judgeTransfer slot])) (hx : Table.get u.arb.transfers slot = some x)
    (hflowing : x.state = .flowing) (hfails : u.failingPermissive x = some (route, q)) (hidle : u.arb.waiting = [])
    (hw : w = (dropOutputs u x).setArb { u.arb with
      transfers := Table.set u.arb.transfers slot { x with
        state := .aborted, held := [], cause := some (.permit route q.input) } }) :
    (∀ n r, x.owner = .mill → u.mill.current = some n → u.grind n = some r → u.mill.state = .running →
      exec (.inputSample levels analog) s = .next ((millHeldOn w n r .permit).raise (.permissiveLost .mill route q.input q.required))) ∧
    (∀ p a, x.owner = pressOwner p → (u.pressAt p).active = some a →
      ((u.pressAt p).state = .running ∨ (u.pressAt p).state = .flushing) →
      exec (.inputSample levels analog) s = .next ((pressHeldOn w p a .permit).raise (.permissiveLost (pressOwner p) route q.input q.required))) ∧
    (∀ p i l, x.owner = .loadout → (u.chan .truck).dose = none → u.book.loadout.state = .loading →
      u.currentLine = some (p, i, l) →
      exec (.inputSample levels analog) s = .next ((loadoutHeldAt w i .permit .lost).raise (.permissiveLost .loadout route q.input q.required))) := by
  have hlost := fun t => exec_inputSample_lost (t := t) hsample hx hflowing hfails hw
  obtain ⟨inv, io, arb, rfl, hwaiting⟩ := lost_frame hw
  rw [hidle] at hwaiting
  refine ⟨fun n r ho hn hr hrun => ?_, fun p a ho ha hrun => ?_, fun p i l ho hdose hload hl => ?_⟩
  all_goals
    rw [ho] at hlost
    refine hlost _ ?_ ?_
  · exact leads_millTransferFailed (s := ((u.setInv inv).setIO io).setArb arb) hwaiting hn hr hrun rfl
  · exact millHeldOn_waiting (by exact hwaiting) n r .permit
  · exact leads_pressTransferFailed (s := ((u.setInv inv).setIO io).setArb arb) hwaiting ha hrun (by cases p <;> rfl)
  · exact transferEnded_waiting (by rw [askFeeder_arb]; exact hwaiting) (pressOwner p)
  · refine leads_loadTransferFailed (s := ((u.setInv inv).setIO io).setArb arb) hwaiting hload hl ?_
    simp only [handle, tellAborted]
    rw [ownerDosing_none (s := ((u.setInv inv).setIO io).setArb arb) (o := .loadout) rfl hdose]
  · exact transferEnded_waiting (s := ((u.setInv inv).setIO io).setArb arb) hwaiting .loadout

/-! ### The Line Stop at a job at work -/

/-- A Line Stop that meets one transfer: its outputs go off and it is aborted (R81). -/
theorem lineStopped_single (htransfers : s.arb.transfers = [(slot, x)]) (hx : x.state ≠ .aborted) :
    lineStopped s .input = ((dropOutputs s x).setIO { (dropOutputs s x).io with freeOn := [] }).setArb { s.arb with
      transfers := [(slot, { x with state := .aborted, held := [], timer := none, cause := some .lineStop })]
      waiting := []
      stop := ⟨true, true, false⟩ } := by
  simp only [lineStopped, htransfers, List.map_cons, List.map_nil, List.foldl_cons, List.foldl_nil, dropOutputs_eq]
  simp only [State.setIO_arb, State.setInv_arb, htransfers, List.map_cons, List.map_nil, stopTransfer, if_neg hx]
  rfl

theorem abortCount_single (htransfers : s.arb.transfers = [(slot, x)]) (hx : x.state ≠ .aborted) : abortCount s = 1 := by
  rw [abortCount, htransfers, List.filter_cons_of_pos (by exact decide_eq_true hx)]
  rfl

/-- The coming of a Line Stop by its input, with one transfer to abort and no open dose. -/
theorem exec_lineStopInputActive_single (hrun : s.stopped = false) (htransfers : s.arb.transfers = [(slot, x)])
    (hx : x.state ≠ .aborted) (hdose : ∀ sc, (s.chan sc).dose = none)
    (hjobs : Course stopJobs (lineStopped (s.takeOffered .lineStopInput) .input) t) :
    exec .lineStopInputActive s = .next (t.raise (.lineStop .input 1)) := by
  have hcount : abortCount (s.takeOffered .lineStopInput) = 1 := abortCount_single (x := x) htransfers hx
  rw [← hcount]
  exact outcome_of_settle (settle_bringLineStop hrun hdose hjobs)

theorem stopBatches_only {b : Batch} (hline : s.line.batches = [b]) : stopBatches s = stopBatch s b := by
  have hb : s.batch b.number = some b := find_only hline (decide_eq_true rfl)
  simp only [stopBatches, hline, List.foldl_cons, List.foldl_nil, Result.andThen, State.done, hb, List.nil_append]

/-- A batch with no mix time running as a Line Stop leaves it in RELEASING (R110). -/
def releaseHeldForm (b : Batch) : Batch := { b with state := .held .releasing .lineStop, timer := none, waitCause := none }

/-- The only batch, stopped in RELEASING: its transfer and its output requests end (R110). -/
def releaseStopped (s : State) (b : Batch) : State :=
  (((transferEnded s .batchRelease).askAll [.mainDischargeGate, .microDischargeGate, .mixerGate, .mixerMotor] false).setLine
    { s.line with batches := [releaseHeldForm b] }).raise (.batchHeld b.number .lineStop .releasing)

theorem leads_stopBatches_releasing {b : Batch} (hwaiting : s.arb.waiting = []) (hline : s.line.batches = [b])
    (hstate : b.state = .releasing) (hmix : ∀ left, b.timer ≠ some (.mix left)) :
    Leads .stopBatches s (releaseStopped s b) := by
  have hends : ((transferEnded s .batchRelease).askAll
      [.mainDischargeGate, .microDischargeGate, .mixerGate, .mixerMotor] false).line = s.line := by
    rw [askAll_eq, State.setIO_line, transferEnded_line]
  have hput := State.putBatch_only (s := (transferEnded s .batchRelease).askAll
    [.mainDischargeGate, .microDischargeGate, .mixerGate, .mixerMotor] false) (x := releaseHeldForm b) (b := b)
    (by rw [hends, hline]) rfl
  have hleft : b.mixRemaining = b.mixLeft := by
    rw [Batch.mixRemaining]
    split
    case h_1 left htimer => exact absurd htimer (hmix left)
    case h_2 => rfl
  refine .of_ended (v := s) (o := .batchRelease) ?_ (grantScan_idle ?_)
  · rw [show handle .stopBatches s = stopBatches s from rfl, stopBatches_only hline, stopBatch, hstate, releaseStopped,
      ← hends, ← hput]
    simp only [stopInMixer, endTransfer_fst, hleft]
    rfl
  · show ((transferEnded s .batchRelease).askAll _ false).arb.waiting = []
    rw [askAll_eq]
    exact transferEnded_waiting hwaiting _

theorem millHeldOff_press (s : State) (n : Nat) (r : GrindRequest) (reason : MillReason) :
    (millHeldOff s n r reason).press = s.press := by
  show (transferEnded _ _).press = _
  rw [transferEnded_press, askFeeder_press]

theorem millHeldOff_bag (s : State) (n : Nat) (r : GrindRequest) (reason : MillReason) :
    (millHeldOff s n r reason).bag = s.bag := by
  show (transferEnded _ _).bag = _
  rw [transferEnded_bag, askFeeder_bag]

theorem millHeldOff_book (s : State) (n : Nat) (r : GrindRequest) (reason : MillReason) :
    (millHeldOff s n r reason).book = s.book := by
  show (transferEnded _ _).book = _
  rw [transferEnded_book, askFeeder_eq]
  rfl

theorem pressStopped_pressAt {p q : PressId} (hq : q ≠ p) (s : State) (a : ActiveRun) :
    (pressStopped s p a).pressAt q = s.pressAt q := by
  have hpress : (s.askFeeder (s.pressAt p).cfg.surgeBin 0).pressAt q = s.pressAt q := by
    rw [State.pressAt, askFeeder_press, State.pressAt]
  rw [← hpress]
  cases p with
  | one => cases q with
    | one => exact absurd rfl hq
    | two => rfl
  | two => cases q with
    | one => rfl
    | two => exact absurd rfl hq

theorem pressStopped_bag (s : State) (p : PressId) (a : ActiveRun) : (pressStopped s p a).bag = s.bag := by
  rw [pressStopped, askFeeder_eq]
  rfl

theorem pressStopped_book (s : State) (p : PressId) (a : ActiveRun) : (pressStopped s p a).book = s.book := by
  rw [pressStopped, askFeeder_eq]
  rfl

/-- The batch stopped in RELEASING changes the batch line, the outputs, the feeders, the arbiter and the events. -/
theorem releaseStopped_frame (s : State) (b : Batch) : ∃ inv io arb line ev,
    releaseStopped s b = ((((s.setInv inv).setIO io).setArb arb).setLine line).raise ev := by
  rw [releaseStopped, askAll_eq, transferEnded_eq]
  exact ⟨_, _, _, _, _, rfl⟩

/-- The bagger with the start mark cleared and no bag on the spout, held in a Line Stop with its transfer ended (R172). -/
def bagStopped (s : State) (r : BagRun) (rest : List BagRun) : State :=
  (((transferEnded s .bagger).setBag { s.bag with
    startMark := false
    queue := { r with state := .held .lineStop .none .waitBag, onSpout := false, permitLost := false } :: rest
    timer := none }).ask .baggerReject false).ask .baggerClamp false

theorem bagHeld_unmarked (s : State) (r : BagRun) (rest : List BagRun) :
    bagHeld (s.setBag { s.bag with startMark := false }) { r with onSpout := false } rest .lineStop .none =
      bagStopped s r rest := by
  rw [bagHeld, transferEnded_setBag]
  rfl

section stopCourses

variable (hwaiting : s.arb.waiting = [])

include hwaiting

theorem course_stopJobs_mill {n : Nat} {r : GrindRequest} (hline : s.line.batches = []) (hpress : ∀ p, (s.pressAt p).state = .idle)
    (hbag : s.bag.queue = []) (hload : s.book.loadout.state = .noTruck) (hn : s.mill.current = some n) (hr : s.grind n = some r)
    (hmill : s.mill.state = .running) :
    Course stopJobs s ((millHeldOff s n r .lineStop).setBag { s.bag with startMark := false }) := by
  have hidle : ∀ p, ((millHeldOff s n r .lineStop).pressAt p).state = .idle := fun p => by
    rw [State.pressAt, millHeldOff_press]
    exact hpress p
  have hmark := leads_stopBagger_none (s := millHeldOff s n r .lineStop) (by rw [millHeldOff_bag, hbag])
  rw [millHeldOff_bag] at hmark
  refine .cons (.of_inert (stopBatches_none hline)) (.cons (leads_stopMill hwaiting hn hr hmill)
    (.cons (.of_inert (stopPress_idle (hidle _))) (.cons (.of_inert (stopPress_idle (hidle _)))
      (.cons hmark (.cons (.of_inert (stopLoadout_noTruck ?_)) (.nil _))))))
  rw [State.setBag_book, millHeldOff_book, hload]

theorem course_stopJobs_bagger {r : BagRun} {rest : List BagRun} (hline : s.line.batches = []) (hmill : s.mill.state = .stopped)
    (hpress : ∀ p, (s.pressAt p).state = .idle) (hload : s.book.loadout.state = .noTruck) (hq : s.bag.queue = r :: rest)
    (hwait : r.state = .waitBag) :
    Course stopJobs s (bagStopped s r rest) := by
  rw [← bagHeld_unmarked]
  refine .cons (.of_inert (stopBatches_none hline)) (.cons (.of_inert (stopMill_stopped hmill))
    (.cons (.of_inert (stopPress_idle (hpress _))) (.cons (.of_inert (stopPress_idle (hpress _)))
      (.cons (leads_stopBagger hwaiting hq hwait) (.cons (.of_inert (stopLoadout_noTruck ?_)) (.nil _))))))
  show ((transferEnded _ .bagger).book.loadout.state) = _
  rw [transferEnded_book]
  exact hload

theorem course_stopJobs_loadout {p : Order} {i : Nat} {l : OrderLine} (hline : s.line.batches = []) (hmill : s.mill.state = .stopped)
    (hpress : ∀ p, (s.pressAt p).state = .idle) (hbag : s.bag.queue = []) (hload : s.book.loadout.state = .loading)
    (hl : s.currentLine = some (p, i, l)) :
    Course stopJobs s (loadoutHeldAt (s.setBag { s.bag with startMark := false }) i .lineStop .none) :=
  .cons (.of_inert (stopBatches_none hline)) (.cons (.of_inert (stopMill_stopped hmill))
    (.cons (.of_inert (stopPress_idle (hpress _))) (.cons (.of_inert (stopPress_idle (hpress _)))
      (.cons (leads_stopBagger_none hbag)
        (.cons (leads_stopLoadout (s := s.setBag { s.bag with startMark := false }) hwaiting hload hl) (.nil _))))))

theorem course_stopJobs_release {b : Batch} (hline : s.line.batches = [b]) (hstate : b.state = .releasing)
    (hmix : ∀ left, b.timer ≠ some (.mix left)) (hmill : s.mill.state = .stopped) (hpress : ∀ p, (s.pressAt p).state = .idle)
    (hbag : s.bag.queue = []) (hload : s.book.loadout.state = .noTruck) :
    Course stopJobs s ((releaseStopped s b).setBag { s.bag with startMark := false }) := by
  have hbatches := leads_stopBatches_releasing hwaiting hline hstate hmix
  obtain ⟨inv, io, arb, line, ev, hframe⟩ := releaseStopped_frame s b
  rw [hframe] at hbatches ⊢
  exact .cons hbatches (.cons (.of_inert (stopMill_stopped hmill)) (.cons (.of_inert (stopPress_idle (hpress _)))
    (.cons (.of_inert (stopPress_idle (hpress _))) (.cons (leads_stopBagger_none hbag)
      (.cons (.of_inert (stopLoadout_noTruck hload)) (.nil _))))))

omit hwaiting in
theorem course_stopJobs_press {p : PressId} {a : ActiveRun} (hline : s.line.batches = []) (hmill : s.mill.state = .stopped)
    (hpress : ∀ q, q ≠ p → (s.pressAt q).state = .idle) (hbag : s.bag.queue = []) (hload : s.book.loadout.state = .noTruck)
    (ha : (s.pressAt p).active = some a) (hstate : (s.pressAt p).state = .running ∨ (s.pressAt p).state = .flushing) :
    Course stopJobs s ((pressStopped s p a).setBag { s.bag with startMark := false }) := by
  have hmark := leads_stopBagger_none (s := pressStopped s p a) (by rw [pressStopped_bag, hbag])
  rw [pressStopped_bag] at hmark
  have hend : Course [.stopBagger, .stopLoadout] (pressStopped s p a)
      ((pressStopped s p a).setBag { s.bag with startMark := false }) :=
    .cons hmark (.cons (.of_inert (stopLoadout_noTruck (by rw [State.setBag_book, pressStopped_book, hload]))) (.nil _))
  refine .cons (.of_inert (stopBatches_none hline)) (.cons (.of_inert (stopMill_stopped hmill)) ?_)
  cases p with
  | one =>
    refine .cons (leads_stopPress ha hstate) (.cons (.of_inert (stopPress_idle ?_)) hend)
    rw [pressStopped_pressAt (by decide)]
    exact hpress .two (by decide)
  | two => exact .cons (.of_inert (stopPress_idle (hpress .one (by decide)))) (.cons (leads_stopPress ha hstate) hend)

end stopCourses

theorem mixerHeld_only {b : Batch} (hline : s.line.batches = [b]) (phase : BatchPhase) (reason : BatchReason) :
    mixerHeld s b phase reason = ((transferEnded s .batchRelease).setLine { s.line with
      batches := [{ b with state := .held phase reason, timer := none, waitCause := none }] }).raise
        (.batchHeld b.number reason phase) := by
  have hput := State.putBatch_only (s := transferEnded s .batchRelease) (b := b)
    (x := { b with state := .held phase reason, timer := none, waitCause := none }) (by rw [transferEnded_line, hline]) rfl
  rw [transferEnded_line] at hput
  exact congrArg (State.raise · (.batchHeld b.number reason phase)) hput

/-- Settles O31: each job hears of its transfer's failure by one task, whose effect ends the transfer and holds the job. -/
theorem transferFailuresReachTheirJobs : Obligations.TransferFailuresReachTheirJobs := by
  refine ⟨fun s o slot x h => ?_, fun s slot x left hx => ⟨exec_permitTimeout_idle hx, fun hstate htimer hof hwaiting => ?_⟩,
    fun s u w levels analog slot route x q hsample hx hflowing hfails hof hidle hw => ?_,
    fun s u slot x hrun htransfers hx hdose hu => ?_,
    fun s hrun => ⟨fun before after slot x => grantScan_first hrun, grantScan_none hrun⟩⟩
  · rw [transferEnded_of_transfer h]
    exact ⟨rfl, by rw [State.setArb_arb, Table.get_del, if_pos rfl]⟩
  · obtain ⟨hmill, hpress, hbag, hload, hmain, hrelease⟩ := exec_permitTimeout_owner hx hstate htimer hof hwaiting
    refine ⟨hmill, hpress, hbag, hload, hmain, fun b ho hline hmixed => ?_⟩
    rw [hrelease b ho hline hmixed, mixerHeld_only hline]
  · have howners := exec_inputSample_owner hsample hx hflowing hfails hidle hw
    obtain ⟨inv, io, arb, hframe, -⟩ := lost_frame hw
    clear hw
    subst hframe
    exact howners
  · have hstopped : lineStopped (s.takeOffered .lineStopInput) .input = u := 
      (lineStopped_single (s := s.takeOffered .lineStopInput) htransfers hx).trans hu.symm
    have hexec : ∀ {t : State}, Course stopJobs u t → exec .lineStopInputActive s = .next (t.raise (.lineStop .input 1)) :=
      fun hjobs => exec_lineStopInputActive_single hrun htransfers hx hdose (hstopped ▸ hjobs)
    have hwaiting : u.arb.waiting = [] := by rw [← hstopped]; rfl
    obtain ⟨inv, io, arb, hframe⟩ := lineStopped_frame (s.takeOffered .lineStopInput) .input
    rw [hstopped] at hframe
    clear hu hstopped
    subst hframe
    refine ⟨fun n r _ hline hpress hbag hload hn hr hmill => ?_, fun p a _ hline hmill hpress hbag hload ha hstate => ?_,
      fun b _ hline hstate hmix hmill hpress hbag hload => ?_, fun r rest _ hline hmill hpress hload hq hwait => ?_,
      fun p i l _ hline hmill hpress hbag hload hl => ?_⟩
    · exact hexec (course_stopJobs_mill hwaiting hline hpress hbag hload hn hr hmill)
    · have hat : ∀ q, State.pressAt ((((s.takeOffered .lineStopInput).setInv inv).setIO io).setArb arb) q = s.pressAt q :=
        fun _ => rfl
      have hcourse := course_stopJobs_press (s := (((s.takeOffered .lineStopInput).setInv inv).setIO io).setArb arb)
        (p := p) (a := a) hline hmill hpress hbag hload (by rw [hat, ha]) (by rw [hat]; exact hstate)
      rw [pressStopped, hat] at hcourse
      exact hexec hcourse
    · exact hexec (course_stopJobs_release hwaiting hline hstate hmix hmill hpress hbag hload)
    · exact hexec (course_stopJobs_bagger hwaiting hline hmill hpress hload hq hwait)
    · exact hexec (course_stopJobs_loadout hwaiting hline hmill hpress hbag hload hl)

end

end Sys2Proof.Machine

/-! PROOFS. The bag cycle: the start and the stop of a run, a bag's way over the spout, the end of a run, BAGGER_RESUME and BAG_CANCEL
(R75 to R78, R164 to R174). -/

namespace Sys2Proof.Machine

section

variable {s t u : State} {r : BagRun} {rest : List BagRun}

/-! ### A reservation closed where the others of its bin are full -/

theorem topUpFrom_filled {b : Nat} {l : List Reservation} (h : ∀ q ∈ l, q.bin = b → q.held = q.wanted) (n : Nat) :
    topUpFrom b n l = (l, []) := by
  induction l with
  | nil => rfl
  | cons q l ih =>
    obtain ⟨hq, hl⟩ := List.forall_mem_cons.1 h
    have hfull : ¬(q.bin = b ∧ q.held < q.wanted ∧ 0 < n) := fun ⟨hbin, hshort, _⟩ => (hq hbin ▸ hshort).false
    rw [topUpFrom, if_neg hfull, ih hl]

theorem topUp_filled {b : Nat} (h : ∀ q ∈ s.inv.reservations, q.bin = b → q.held = q.wanted) : topUp s b = (s, []) := by
  simp only [topUp, topUpFrom_filled h]
  rfl

theorem closeClaim_dead {h : Holder} {id : Nat} (hx : s.claim h id = none) : closeClaim s h id = (s, []) := by
  simp only [closeClaim, hx, Option.isSome_none, Bool.false_eq_true, if_false, State.done]

theorem closeClaim_filled {h : Holder} {id : Nat} {x : Reservation} (hx : s.claim h id = some x)
    (hfull : ∀ q ∈ s.inv.reservations.filter (fun q => decide (q.id ≠ id)), q.bin = x.bin → q.held = q.wanted) :
    closeClaim s h id =
      (s.setInv { s.inv with reservations := s.inv.reservations.filter (fun q => decide (q.id ≠ id)) }, []) := by
  simp only [closeClaim, hx, Option.isSome_some, if_true, closeReservation, reservation_of_claim hx]
  exact topUp_filled (by exact hfull)

theorem claim_id {h : Holder} {id : Nat} {x : Reservation} (hx : s.claim h id = some x) : x.id = id :=
  of_decide_eq_true (List.find?_some (p := fun q : Reservation => decide (q.id = id)) (reservation_of_claim hx))

/-! ### The head run -/

theorem headRun_of_queue (hq : s.bag.queue = r :: rest) : s.headRun = some r := by
  rw [State.headRun, hq, List.head?_cons]

theorem putHead_of_queue (hq : s.bag.queue = r :: rest) (x : BagRun) :
    putHead s x = s.setBag { s.bag with queue := x :: rest } := by
  rw [putHead, hq, List.tail_cons]

theorem tryBegin_absent (h : s.bag.bagPresent = false) : tryBegin s = (s, []) := by
  unfold tryBegin
  cases s.headRun with
  | none => rfl
  | some r => simp only [h, Bool.false_eq_true, false_and, and_false, if_false, State.done]

theorem inert_tryBegin_absent (h : s.bag.bagPresent = false) : Inert .tryBegin s := tryBegin_absent h

theorem inert_ownerFlowing_absent (h : s.bag.bagPresent = false) : Inert (.ownerFlowing .bagger) s := tryBegin_absent h

theorem tryBegin_notFlowing (h : s.flowing .bagger = false) : tryBegin s = (s, []) := by
  unfold tryBegin
  cases s.headRun with
  | none => rfl
  | some r => simp only [h, Bool.false_eq_true, and_false, if_false, State.done]

/-! ### The start and the stop of a run -/

/-- A run that waits for a bag, its transfer flowing in slot 1. -/
def bagStarted (s : State) (r : BagRun) (rest : List BagRun) (route : Nat) : State :=
  (s.setBag { s.bag with queue := { r with burst := 0, state := .waitBag } :: rest, bagPresent := false }).setArb { s.arb with
    transfers := [(1, ⟨.bagger, [⟨r.bin, false, route⟩], [], .flowing, [], none, false, none⟩)] }

/-- What the start of a run finds: stock, an absent bag, an unlocked bin and a route that asks nothing. -/
structure BagFree (s : State) (r : BagRun) (v : Bin) (x : Reservation) : Prop where
  transfers : s.arb.transfers = []
  running : s.stopped = false
  waiting : s.arb.waiting = []
  defined : s.bin r.bin = some v
  unlocked : v.locked = false
  route : s.route v.cfg.outletRoute = ⟨[], []⟩
  claim : s.claim (.bagRun r.number) r.reservation = some x
  stock : min r.target x.wanted ≤ x.held
  input : (s.inputWith .bagPresent).isSome = true
  absent : s.useActive .bagPresent = false

/-- The run requests its transfer, which flows at once and is told so (R75 to R78, R166). -/
theorem enterWaitBag_of_free {v : Bin} {x : Reservation} (h : BagFree s r v x) (hq : s.bag.queue = r :: rest)
    (hstate : r.state = .waitBag) : enterWaitBag s = ((s.setBag { s.bag with bagPresent := false }).setArb { s.arb with
      transfers := [(1, ⟨.bagger, [⟨r.bin, false, v.cfg.outletRoute⟩], [], .flowing, [], none, false, none⟩)] },
      [.ownerFlowing .bagger, .tryBegin]) := by
  have hsame : { r with state := .waitBag } = r := by rw [← hstate]
  have hput : putHead s r = s := by
    rw [putHead_of_queue hq, ← hq]
    rfl
  have hpresent : ((s.inputWith .bagPresent).isNone || s.useActive .bagPresent) = false := by
    rw [h.absent, Bool.or_false, Option.isNone_eq_false_iff, h.input]
  have hstock : stockCheck (s.setBag { s.bag with bagPresent := false }) r = true := by
    have hclaim : (s.setBag { s.bag with bagPresent := false }).claim (.bagRun r.number) r.reservation = some x := h.claim
    simp only [stockCheck, hclaim, h.stock, decide_true]
  have hnone : (s.setBag { s.bag with bagPresent := false }).hasTransfer .bagger = false := by
    simp only [State.hasTransfer, State.transferOf, State.setBag_arb, h.transfers, List.find?_nil]
  have hlegs : bagLegs (s.setBag { s.bag with bagPresent := false }) r = [⟨r.bin, false, v.cfg.outletRoute⟩] := by
    have hv : (s.setBag { s.bag with bagPresent := false }).bin r.bin = some v := h.defined
    simp only [bagLegs, hv, Option.map_some, Option.getD_some]
  simp only [enterWaitBag, headRun_of_queue hq, hsame, hput, hpresent, hstock, hnone, hlegs, Bool.not_true, Bool.false_eq_true,
    if_false]
  rw [transferRefusal_of_free (v := v) (by exact h.running) (by exact h.transfers) (by exact h.defined) h.unlocked,
    openTransfer_of_free (by exact h.transfers) (by exact h.waiting) (by exact h.route)]
  simp only [List.cons_append, List.nil_append, State.setBag_arb, h.waiting]

theorem exec_baggerStartPress_of_free {v : Bin} {x : Reservation} (h : BagFree s r v x) (hq : s.bag.queue = r :: rest)
    (harmed : r.state = .armed) (hbutton : r.start = .button) :
    exec .baggerStartPress s = .next (bagStarted (s.takeOffered .baggerStart) r rest v.cfg.outletRoute) := by
  have hentered := enterWaitBag_of_free (s := (s.takeOffered .baggerStart).setBag { s.bag with
    queue := { r with burst := 0, state := .waitBag } :: rest }) (r := { r with burst := 0, state := .waitBag }) (v := v) (x := x)
    ⟨h.transfers, h.running, h.waiting, h.defined, h.unlocked, h.route, h.claim, h.stock, h.input, h.absent⟩ rfl rfl
  have hstart : takeStart (s.takeOffered .baggerStart) .button = ((s.takeOffered .baggerStart).setBag { s.bag with
      queue := { r with burst := 0, state := .waitBag } :: rest }, [.enterWaitBag]) := by
    have hrun : (s.takeOffered .baggerStart).stopped = false := h.running
    simp only [takeStart, headRun_of_queue (s := s.takeOffered .baggerStart) hq, hrun, BagRun.startable, harmed, hbutton,
      Bool.not_false, decide_true, Bool.and_self, if_true, startRun, putHead_of_queue (s := s.takeOffered .baggerStart) hq]
    rfl
  show outcome (takeStart (s.takeOffered .baggerStart) .button) = _
  rw [hstart]
  exact outcome_of_step hentered (.cons (.of_inert (inert_ownerFlowing_absent (by rfl)))
    (.cons (.of_inert (inert_tryBegin_absent (by rfl))) (.nil _)))

/-- A stop during a bag is taken, and the bag goes on (R170). -/
theorem stopRun_withBag (h : r.state = .filling ∨ r.state = .checking ∨ r.state = .releasing) :
    stopRun s r = (putHead s { r with stopTaken := true, tailLeft := r.tail }, []) := by
  rcases h with h | h | h <;> simp only [stopRun, h, State.done]

/-! ### The end of a run -/

/-- The last bag is off the spout of the only run. -/
def lastBagGone (s : State) (r : BagRun) : State :=
  (s.setBag { s.bag with queue := [{ r with onSpout := false }], timer := none }).ask .baggerReject false

/-- The only run ended, as its count is reached (R171). -/
def bagRunEnded (s : State) (r : BagRun) (kept : List Reservation) : State :=
  let w := transferEnded (lastBagGone s r) .bagger
  ((((w.setInv { w.inv with reservations := kept }).setBag { s.bag with
    queue := []
    timer := none
    bagPresent := false
    report := some ⟨r.number, .count, r.accepted, r.rejected, r.begun, r.tally⟩ }).ask .baggerClamp false).ask
      .baggerReject false).raise (.bagRunEnd r.number .count)

/-- Either no reservation of the run is live, or its end leaves the others, all of its bin full. -/
def KeptReservations (s : State) (r : BagRun) (kept : List Reservation) : Prop :=
  (s.claim (.bagRun r.number) r.reservation = none ∧ kept = s.inv.reservations) ∨
    ∃ x, s.claim (.bagRun r.number) r.reservation = some x ∧
      kept = s.inv.reservations.filter (fun q => decide (q.id ≠ r.reservation)) ∧
      ∀ q ∈ kept, q.bin = x.bin → q.held = q.wanted

theorem KeptReservations.closeClaim {kept : List Reservation} (h : KeptReservations s r kept) :
    closeClaim s (.bagRun r.number) r.reservation = (s.setInv { s.inv with reservations := kept }, []) := by
  rcases h with ⟨hdead, rfl⟩ | ⟨x, hx, rfl, hfull⟩
  · rw [closeClaim_dead hdead]
    rfl
  · exact closeClaim_filled hx hfull

theorem KeptReservations.of_reservations {kept : List Reservation} (h : KeptReservations s r kept)
    (hu : u.inv.reservations = s.inv.reservations) : KeptReservations u r kept := by
  have hclaim : u.claim (.bagRun r.number) r.reservation = s.claim (.bagRun r.number) r.reservation := by
    rw [State.claim, State.claim, State.reservation, State.reservation, hu]
  unfold KeptReservations
  rw [hclaim, hu]
  exact h

theorem becomeHead_empty (h : s.bag.queue = []) : Inert .becomeHead s := by
  have hhead : s.headRun = none := by rw [State.headRun, h, List.head?_nil]
  simp only [Inert, handle, becomeHead, hhead, State.done]

/-- The end of the only run leaves an empty queue, which has no head to become (R171). -/
theorem leads_finishBagRun {kept : List Reservation} (h : KeptReservations s r kept) :
    Leads (.finishBagRun r.number .count) (transferEnded (lastBagGone s r) .bagger) (bagRunEnded s r kept) := by
  have hkept : KeptReservations (transferEnded (lastBagGone s r) .bagger) r kept :=
    h.of_reservations (transferEnded_reservations _ _)
  have hbag : (transferEnded (lastBagGone s r) .bagger).bag =
      { s.bag with queue := [{ r with onSpout := false }], timer := none } := by
    rw [transferEnded_bag]
    rfl
  have hhead : (transferEnded (lastBagGone s r) .bagger).headRun = some { r with onSpout := false } := by
    rw [State.headRun, hbag, List.head?_cons]
  refine ⟨[.becomeHead], ?_, Nat.le_of_ble_eq_true rfl, fun y hy => ?_⟩
  · simp only [handle, finishBagRun, hhead, hkept.closeClaim, if_true, List.nil_append, State.setInv_bag, hbag]
    rfl
  · rw [List.mem_singleton.1 hy]
    exact becomeHead_empty rfl

theorem outcome_bagGone {kept : List Reservation} (hq : s.bag.queue = [r]) (hstate : r.state = .releasing)
    (hcount : r.count ≤ r.accepted) (hwaiting : s.arb.waiting = []) (h : KeptReservations s r kept) :
    outcome (bagGone s) = .next (bagRunEnded s r kept) := by
  have hgone : bagGone s = (transferEnded (lastBagGone s r) .bagger,
      (endTransfer (lastBagGone s r) .bagger).2 ++ [.finishBagRun r.number .count]) := by
    have hover : ({ r with onSpout := false } : BagRun).over = true := decide_eq_true (.inl hcount)
    have hend : ownEnd { r with onSpout := false } = .count := if_pos hcount
    have hput : (bagTimer (putHead s { r with onSpout := false }) none).ask .baggerReject false = lastBagGone s r := by
      rw [putHead_of_queue hq]
      rfl
    have hagain : putHead (lastBagGone s r) { r with onSpout := false } = lastBagGone s r :=
      putHead_of_queue (r := { r with onSpout := false }) (rest := []) rfl _
    have hafter : bagGone s = afterBag ((bagTimer (putHead s { r with onSpout := false }) none).ask .baggerReject false)
        { r with onSpout := false } := by
      rw [bagGone, headRun_of_queue hq]
      exact if_pos hstate
    rw [hafter, hput, afterBag, if_pos hover, hend, endBagRun, hagain, endTransfer_fst]
  have hscan : Inert .grantScan (transferEnded (lastBagGone s r) .bagger) := 
    grantScan_idle (transferEnded_waiting (s := lastBagGone s r) hwaiting _)
  have hfinish : Course [.finishBagRun r.number .count] (transferEnded (lastBagGone s r) .bagger) (bagRunEnded s r kept) :=
    .cons (leads_finishBagRun h) (.nil _)
  rw [hgone]
  rcases endTransfer_snd (lastBagGone s r) .bagger with hmore | hmore <;> rw [hmore]
  · exact hfinish.outcome
  · exact Course.outcome (.cons (.of_inert hscan) hfinish)

theorem bagRunEnded_takeOffered (s : State) (r : BagRun) (kept : List Reservation) (e : PlantEvent) :
    bagRunEnded (s.takeOffered e) r kept = (bagRunEnded s r kept).takeOffered e := by
  have hgone : lastBagGone (s.takeOffered e) r = (lastBagGone s r).takeOffered e := rfl
  simp only [bagRunEnded, hgone, transferEnded_takeOffered]
  rfl

/-! ### BAGGER_RESUME and BAG_CANCEL -/

/-- A bag on the spout turned aside: the run goes to RELEASING with the reject output on (R173). -/
theorem resumeBag_onSpout (hq : s.bag.queue = r :: rest) {cause : BagCause} {phase : BagPhase}
    (hstate : r.state = .held .permit cause phase) (hon : r.onSpout = true) : resumeBag s r =
      (((s.setBag { s.bag with queue := { r with state := .releasing } :: rest, timer := some (.release s.bag.releaseTime) }).ask
        .baggerClamp false).ask .baggerReject true, []) := by
  have hsame : resumedRun r = r := by rw [resumedRun, hstate]
  simp only [resumeBag, hsame, hon, if_true, enterReleasing, putHead_of_queue hq]
  rfl

/-- A run dropped from behind the head, its reservation closed (R174). -/
theorem dropBagRun_filled {q : BagRun} {x : Reservation} (hx : s.claim (.bagRun q.number) q.reservation = some x)
    (hfull : ∀ y ∈ s.inv.reservations, y.id ≠ x.id → y.bin = x.bin → y.held = y.wanted) : dropBagRun s q false =
      ((s.setBag { s.bag with queue := s.bag.queue.filter (fun y => decide (y.number ≠ q.number)) }).setInv
        { s.inv with reservations := s.inv.reservations.filter (fun y => decide (y.id ≠ x.id)) }, []) := by
  have hid : x.id = q.reservation := claim_id hx
  have hclosed := closeClaim_filled (s := s.setBag { s.bag with
    queue := s.bag.queue.filter (fun y => decide (y.number ≠ q.number)) }) (x := x) hx fun y hy =>
      hfull y (List.mem_filter.1 hy).1 (hid ▸ of_decide_eq_true (List.mem_filter.1 hy).2)
  simp only [dropBagRun, hclosed, hid, Bool.false_eq_true, if_false, List.append_nil]
  rfl

/-- Settles O52: each event and each request of the cycle, on the head run as its clause finds it. -/
theorem bagCycle : Obligations.BagCycle := by
  intro s tag r rest hq
  have hoffered : ∀ e : PlantEvent, (s.takeOffered e).headRun = some r := fun e => headRun_of_queue (s := s.takeOffered e) hq
  refine ⟨fun v x htransfers harmed hbutton hrun hwaiting hv hlocked hroute hx hstock hinput habsent => ?_,
    fun hstate hbutton htaken => ?_, fun hstate hflowing => ?_, fun hstate => ?_,
    fun v w u kept hstate hrest hcount hwaiting hkept hv hw hu => ?_, fun hroom => ⟨fun hstop => ?_,
      fun cause phase hstate hon hrun => ?_, fun q x hne hfind hx hfull => ?_, fun hstate => ?_⟩⟩
  · exact exec_baggerStartPress_of_free ⟨htransfers, hrun, hwaiting, hv, hlocked, hroute, hx, hstock, hinput, habsent⟩ hq
      harmed hbutton
  · have hput := putHead_of_queue (s := s.takeOffered .baggerStop) hq { r with stopTaken := true, tailLeft := r.tail }
    have htake : takeStop (s.takeOffered .baggerStop) .button =
        (putHead (s.takeOffered .baggerStop) { r with stopTaken := true, tailLeft := r.tail }, []) := by
      rw [takeStop, hoffered]
      exact (if_pos ⟨hbutton, htaken⟩).trans (stopRun_withBag hstate)
    show outcome (takeStop (s.takeOffered .baggerStop) .button) = _
    rw [htake, hput]
    rfl
  · have harrives : bagArrives (s.takeOffered .bagPresent) =
        ((s.takeOffered .bagPresent).setBag { s.bag with bagPresent := true }, []) := by
      simp only [bagArrives, hoffered, hstate, if_true]
      exact tryBegin_notFlowing hflowing
    show outcome (bagArrives (s.takeOffered .bagPresent)) = _
    rw [harrives]
    rfl
  · show outcome (checkExpiry s) = _
    simp only [checkExpiry, headRun_of_queue hq, hstate, if_true, enterReleasing, putHead_of_queue hq]
    rfl
  · subst hrest hv hw hu
    have hend : KeptReservations s r kept := hkept
    refine ⟨?_, fun left htimer => ?_⟩
    · show outcome (bagGone (s.takeOffered .bagGone)) = _
      rw [outcome_bagGone (s := s.takeOffered .bagGone) hq hstate hcount hwaiting (hend.of_reservations rfl),
        bagRunEnded_takeOffered]
      rfl
    · show outcome (bagReleaseExpiry s) = _
      simp only [bagReleaseExpiry, htimer]
      exact outcome_bagGone hq hstate hcount hwaiting hend
  · show execBaggerResume tag s = _
    refine serve_refused hroom fun l => ?_
    simp only [State.setLink_stopped, hstop]
    rfl
  · show execBaggerResume tag s = _
    refine serve_plainly hroom fun l => ?_
    have hresume : bagResumeRefusal (s.setLink l) r = none := by rw [bagResumeRefusal, hstate]
    simp only [State.setLink_stopped, hrun, Bool.not_false, checked_pass, checked_nil, withHead,
      headRun_of_queue (s := s.setLink l) hq, hresume, resumeBag_onSpout (s := s.setLink l) hq hstate hon]
    rfl
  · show execBagCancel tag q.number s = _
    refine serve_plainly hroom fun l => ?_
    have hhead : ¬ (s.setLink l).headRun.map (·.number) = some q.number := by
      rw [headRun_of_queue (s := s.setLink l) hq, Option.map_some]
      exact fun h => hne (Option.some.inj h).symm
    simp only [State.setLink_bag, hfind, if_neg hhead, dropBagRun_filled (s := s.setLink l) hx hfull]
    rfl
  · show execBagCancel tag r.number s = _
    refine serve_refused hroom fun l => ?_
    have hfind : s.bag.queue.find? (fun y => decide (y.number = r.number)) = some r := by
      rw [hq, List.find?_cons_of_pos (by exact decide_eq_true rfl)]
    have hhead : (s.setLink l).headRun.map (·.number) = some r.number := by
      rw [headRun_of_queue (s := s.setLink l) hq, Option.map_some]
    simp only [State.setLink_bag, hfind, if_pos hhead, cancelHead, hstate]

end

end Sys2Proof.Machine

/-! PROOFS. The formula requests and the three times of the Batch Line (R86 to R90, R92). -/

namespace Sys2Proof.Machine

section

variable {s : State} {tag : Byte} {formula : Nat} {f : Formula}

/-! ### FORMULA_OPEN -/

theorem formulaNumber_iff : formulaNumber formula = true ↔ 1 ≤ formula ∧ formula ≤ 32 := decide_eq_true_iff

theorem formulaInUse_iff : formulaInUse s formula = true ↔ ∃ b ∈ s.line.batches, b.formula = formula := by
  simp only [formulaInUse, List.any_eq_true, decide_eq_true_eq]

@[simp] theorem formulaInUse_setLink (s : State) (l : Link) (n : Nat) :
    formulaInUse (s.setLink l) n = formulaInUse s n := rfl

theorem formulaOpen_ranged_iff {product mixTime : Nat} :
    (formulaNumber formula && decide (1 ≤ product ∧ product ≤ max16 ∧ mixTime ≤ 6000)) = true ↔
      1 ≤ formula ∧ formula ≤ 32 ∧ 1 ≤ product ∧ product ≤ 65535 ∧ mixTime ≤ 6000 := by
  rw [Bool.and_eq_true, formulaNumber_iff, decide_eq_true_iff, and_assoc]

/-- Settles O34: the range, the store and the live batches are checked in this order. -/
theorem formulaOpenBeginsAFormula : Obligations.FormulaOpenBeginsAFormula := by
  intro s tag formula product mixTime hroom ranged inUse c
  rw [show exec c s = execFormulaOpen tag formula product mixTime s from rfl]
  refine ⟨fun hrange => ?_, fun hrange hsave => ?_, fun hrange hsave huse => ?_, fun hrange hsave huse => ?_⟩
  · have hrange := Bool.eq_false_iff.2 (mt formulaOpen_ranged_iff.1 hrange)
    exact serve_refused hroom fun l => by simp only [hrange, checked_fail]
  all_goals have hrange := formulaOpen_ranged_iff.2 hrange
  · exact serve_refused hroom fun l => by
      simp only [hrange, State.setLink_saving, hsave, Bool.not_true, checked_pass, checked_fail]
  · have huse := formulaInUse_iff.2 huse
    exact serve_refused hroom fun l => by
      simp only [hrange, State.setLink_saving, hsave, formulaInUse_setLink, huse, Bool.not_false, Bool.not_true, checked_pass,
        checked_fail]
  · have huse := Bool.eq_false_iff.2 (mt formulaInUse_iff.1 huse)
    exact serve_plainly hroom fun l => by
      simp only [hrange, State.setLink_saving, hsave, formulaInUse_setLink, huse, Bool.not_false, checked_pass, checked_nil]
      rfl

/-! ### FORMULA_STEP -/

/-- The fields of a formula step are in their ranges (R87). -/
def StepRanged (x : StepFields) : Prop :=
  x.channel ≤ 1 ∧ x.bin ≤ 48 ∧ 1 ≤ x.amount ∧ x.amount ≤ 1000000 ∧ x.tolerance ≤ 100 ∧ x.mark ≤ 1 ∧ x.pattern < 16

/-- The formula step that fields in range give (R87). -/
def rangedStep (x : StepFields) : FormulaStep :=
  ⟨if x.channel = 0 then .main else .micro, x.bin, x.amount, x.tolerance, decide (x.mark = 1), auxOf x.pattern⟩

theorem flagOf_of_le {n : Nat} (h : n ≤ 1) : flagOf n = some (decide (n = 1)) := by
  obtain rfl | rfl : n = 0 ∨ n = 1 := by omega
  all_goals rfl

theorem flagOf_le {n : Nat} {b : Bool} (h : flagOf n = some b) : n ≤ 1 := by
  unfold flagOf at h
  split at h
  · exact Nat.zero_le _
  · exact Nat.le_refl _
  · cases h

theorem formulaStepOf_ranged {x : StepFields} (h : StepRanged x) : formulaStepOf x = some (rangedStep x) := by
  obtain ⟨hchannel, hbin, hlow, hhigh, htolerance, hmark, hpattern⟩ := h
  have hscale : (if x.channel = 0 then some Scale.main else if x.channel = 1 then some .micro else none) =
      some (if x.channel = 0 then Scale.main else .micro) := by
    split_ifs with h0 h1
    · rfl
    · rfl
    · omega
  simp only [formulaStepOf, hscale, flagOf_of_le hmark]
  exact if_pos ⟨hbin, hlow, hhigh, htolerance, hpattern⟩

theorem ranged_of_formulaStepOf {x : StepFields} {e : FormulaStep} (h : formulaStepOf x = some e) : StepRanged x := by
  unfold formulaStepOf at h
  split at h
  · next sc hand hscale hhand =>
    split_ifs at h with hrest
    obtain ⟨hbin, hlow, hhigh, htolerance, hpattern⟩ := hrest
    have hchannel : x.channel ≤ 1 := by
      split_ifs at hscale with h0 h1
      · omega
      · omega
    exact ⟨hchannel, hbin, hlow, hhigh, htolerance, flagOf_le hhand, hpattern⟩
  · cases h

theorem formulaStepOf_unranged {x : StepFields} (h : ¬StepRanged x) : formulaStepOf x = none :=
  Option.eq_none_iff_forall_ne_some.2 fun _ he => h (ranged_of_formulaStepOf he)

/-- Settles O35: fields out of range give no step, and an OPEN formula takes the step they give behind its others. -/
theorem formulaStepAppendsAStep : Obligations.FormulaStepAppendsAStep := by
  intro s tag formula fields hroom ranged c
  rw [show exec c s = execFormulaStep tag formula fields s from rfl]
  have hranged : ranged ↔ formulaNumber formula = true ∧ StepRanged fields := by rw [formulaNumber_iff, and_assoc]; rfl
  refine ⟨fun hrange => ?_, fun hrange hsave => ?_, fun hrange hsave hopen => ?_, fun f hrange hsave hf hopen =>
    ⟨fun hfull => ?_, fun hless => ?_⟩⟩
  · refine serve_refused hroom fun l => ?_
    by_cases hfields : StepRanged fields
    · have hnumber := Bool.eq_false_iff.2 fun h => hrange (hranged.2 ⟨h, hfields⟩)
      simp only [formulaStepOf_ranged hfields, hnumber, checked_fail]
      split <;> rfl
    · simp only [formulaStepOf_unranged hfields]
  all_goals
    obtain ⟨hnumber, hfields⟩ := hranged.1 hrange
    have hstep := formulaStepOf_ranged hfields
  · refine serve_refused hroom fun l => ?_
    simp only [hstep, hnumber, State.setLink_saving, hsave, Bool.not_true, checked_pass, checked_fail]
    split <;> rfl
  · refine serve_refused hroom fun l => ?_
    simp only [hstep, hnumber, State.setLink_saving, hsave, Bool.not_false, checked_pass, checked_nil, State.setLink_line]
    cases hf : Table.get s.line.formulas formula with
    | none => rfl
    | some f => simp only [hopen f hf, Bool.not_true, checked_fail]
  · have hroomless : decide (f.steps.length < Config.stepCap) = false := decide_eq_false (Nat.not_lt.2 hfull)
    exact serve_refused hroom fun l => by
      simp only [hstep, hnumber, State.setLink_saving, hsave, State.setLink_line, hf, hopen, hroomless, Bool.not_false,
        checked_pass, checked_fail]
  · have hroomy : decide (f.steps.length < Config.stepCap) = true := decide_eq_true hless
    exact serve_plainly hroom fun l => by
      simp only [hstep, hnumber, State.setLink_saving, hsave, State.setLink_line, hf, hopen, hroomy, Bool.not_false,
        checked_pass, checked_nil]
      rfl

/-! ### FORMULA_CLOSE -/

theorem firstFailure_none {α : Type} {why : α → Option ReplyCode} {l : List α} (h : ∀ e ∈ l, why e = none) (n : Nat) :
    firstFailure why n l = none := by
  induction l generalizing n with
  | nil => rfl
  | cons e l ih =>
    obtain ⟨he, hl⟩ := List.forall_mem_cons.1 h
    simp only [firstFailure, he, ih hl]

theorem firstFailure_append {α : Type} {why : α → Option ReplyCode} {before rest : List α} {e : α} {code : ReplyCode}
    (hbefore : ∀ d ∈ before, why d = none) (he : why e = some code) (n : Nat) :
    firstFailure why n (before ++ e :: rest) = some (n + before.length, code) := by
  induction before generalizing n with
  | nil => simp only [List.nil_append, firstFailure, he, List.length_nil, Nat.add_zero]
  | cons d before ih =>
    obtain ⟨hd, hbefore⟩ := List.forall_mem_cons.1 hbefore
    simp only [List.cons_append, firstFailure, hd, ih hbefore, List.length_cons, Nat.add_comm, Nat.add_left_comm]

@[simp] theorem stepFailure_setLink (s : State) (l : Link) : stepFailure (s.setLink l) = stepFailure s := rfl

theorem stepFailure_hand {e : FormulaStep} (hhand : e.hand = true) (hbin : e.bin = 0) (hscale : e.scale = .micro) :
    stepFailure s e = none := by
  simp only [stepFailure, hhand, hbin, hscale, ne_eq, not_true_eq_false, or_self, if_true, if_false]

theorem stepFailure_bin {e : FormulaStep} {v : Bin} (hhand : e.hand = false) (hbin : e.bin ≠ 0) (hv : s.bin e.bin = some v)
    (houtlet : outletScale v.cfg.outlet = some e.scale) : stepFailure s e = none := by
  simp only [stepFailure, hhand, hbin, hv, houtlet, Bool.false_eq_true, if_true, if_false]

/-- Formula `formula` is OPEN as `f`, and nothing keeps FORMULA_CLOSE from examining its steps (R90). -/
structure Closable (s : State) (formula : Nat) (f : Formula) : Prop where
  room : s.replyRoom = true
  saved : s.saving = false
  low : 1 ≤ formula
  high : formula ≤ 32
  listed : Table.get s.line.formulas formula = some f
  opened : f.closed = false

theorem Closable.empty (h : Closable s formula f) (hsteps : f.steps = []) :
    execFormulaClose tag formula s = accepted s (.formulaClose tag formula)
      (fun u => u.setLine { u.line with formulas := Table.del u.line.formulas formula }) (fun _ => [.u8 0]) := by
  have hnumber := formulaNumber_iff.2 ⟨h.low, h.high⟩
  refine serve_plainly h.room fun l => ?_
  simp only [State.setLink_line, h.listed, hnumber, State.setLink_saving, h.saved, h.opened, hsteps, List.isEmpty_nil,
    Bool.not_false, checked_pass, checked_nil, if_true]
  rfl

theorem Closable.passes (h : Closable s formula f) (hsteps : f.steps ≠ []) (hpass : ∀ e ∈ f.steps, stepFailure s e = none) :
    execFormulaClose tag formula s = accepted s (.formulaClose tag formula)
      (fun u => u.setLine { u.line with formulas := Table.set u.line.formulas formula { f with closed := true } })
      (fun _ => [.u8 f.steps.length]) := by
  have hnumber := formulaNumber_iff.2 ⟨h.low, h.high⟩
  have hsome : f.steps.isEmpty = false := List.isEmpty_eq_false_iff.2 hsteps
  refine serve_plainly h.room fun l => ?_
  simp only [State.setLink_line, h.listed, hnumber, State.setLink_saving, h.saved, h.opened, hsome, stepFailure_setLink,
    firstFailure_none hpass, Bool.not_false, checked_pass, checked_nil, Bool.false_eq_true, if_false]
  rfl

theorem Closable.fails {before rest : List FormulaStep} {e : FormulaStep} {code : ReplyCode} (h : Closable s formula f)
    (hsteps : f.steps = before ++ e :: rest) (hbefore : ∀ d ∈ before, stepFailure s d = none)
    (he : stepFailure s e = some code) :
    execFormulaClose tag formula s = refusedWith s (.formulaClose tag formula) code (before.length + 1) := by
  have hnumber := formulaNumber_iff.2 ⟨h.low, h.high⟩
  have hsome : f.steps.isEmpty = false := by rw [hsteps]; simp
  have hfails : firstFailure (stepFailure s) 1 f.steps = some (before.length + 1, code) := by
    rw [hsteps, firstFailure_append hbefore he, Nat.add_comm]
  refine serve_refused h.room fun l => ?_
  simp only [State.setLink_line, h.listed, hnumber, State.setLink_saving, h.saved, h.opened, hsome, stepFailure_setLink,
    hfails, Bool.not_false, checked_pass, checked_nil, Bool.false_eq_true, if_false]

/-! ### BATCHLINE_SET -/

/-- Settles O36: a hand-add of MICRO and a bin step whose bin leads to its channel pass, and the steps are examined in order. -/
theorem formulaCloseAndTimes : Obligations.FormulaCloseAndTimes := by
  refine fun s tag hroom hsave => ⟨fun formula f hlow hhigh hf hopen => ?_, fun discharge release timeout => ?_⟩
  · have h : Closable s formula f := ⟨hroom, hsave, hlow, hhigh, hf, hopen⟩
    refine ⟨h.empty, fun hsteps hpass => h.passes hsteps fun e he => ?_, fun before rest e code => h.fails⟩
    rcases hpass e he with ⟨hhand, hbin, hscale⟩ | ⟨hhand, hbin, v, hv, houtlet⟩
    · exact stepFailure_hand hhand hbin hscale
    · exact stepFailure_bin hhand hbin hv houtlet
  · intro hdischarge hdischarge' hrelease hrelease' htimeout htimeout'
    show execBatchlineSet tag discharge release timeout s = _
    refine serve_plainly hroom fun l => ?_
    simp only [State.setLink_saving, hsave, decide_eq_true (And.intro hdischarge hdischarge'),
      decide_eq_true (And.intro hrelease hrelease'), decide_eq_true (And.intro htimeout htimeout'), Bool.and_self,
      Bool.not_false, checked_pass, checked_nil]

end

end Sys2Proof.Machine

/-! PROOFS. BATCH_QUEUE of a batch that must wait, BATCH_RELEASE, BATCH_RESUME and BATCH_CANCEL (R94, R95, R97, R105, R106, R111,
R112). -/

namespace Sys2Proof.Machine

section

variable {s : State} {b : Batch} {tag : Byte} {number : Nat}

/-! ### A start selection that starts nothing -/

/-- No batch can start for the sake of batch `n`: a Line Stop is in force, or another batch occupies the scale group (R96, R97). -/
def State.StartBlocked (s : State) (n : Nat) : Prop :=
  s.stopped = true ∨ ∃ y ∈ s.line.batches, y.onScales = true ∧ y.number ≠ n

theorem State.StartBlocked.inert {n : Nat} (h : s.StartBlocked n) : Inert .startSelection s := by
  have hclosed : (s.scaleBatch.isSome || s.stopped) = true := by
    rcases h with hstop | ⟨y, hy, hscales, -⟩
    · rw [hstop, Bool.or_true]
    · rw [State.scaleBatch, List.find?_isSome.2 ⟨y, hy, hscales⟩, Bool.true_or]
  simp only [Inert, handle, startSelection, hclosed, if_true, State.done]

theorem State.StartBlocked.settle {n : Nat} (h : s.StartBlocked n) : settle (s, [.startSelection]) = some s :=
  settle_inert (Nat.le_of_ble_eq_true rfl) fun t ht => by
    rw [List.mem_singleton.1 ht]
    exact h.inert

theorem mem_putBatch_other {x y : Batch} (hy : y ∈ s.line.batches) (hne : y.number ≠ x.number) :
    y ∈ (s.putBatch x).line.batches :=
  List.mem_map.2 ⟨y, hy, if_neg hne⟩

theorem State.StartBlocked.putBatch {n : Nat} {x : Batch} (h : s.StartBlocked n) (hx : x.number = n) :
    (s.putBatch x).StartBlocked n :=
  h.imp id fun ⟨y, hy, hscales, hne⟩ => ⟨y, mem_putBatch_other hy (hx ▸ hne), hscales, hne⟩

theorem State.StartBlocked.append {n : Nat} (h : s.StartBlocked n) (i : Inventory) (b : Batch) :
    ((s.setInv i).setLine { s.line with batches := s.line.batches ++ [b] }).StartBlocked n :=
  h.imp id fun ⟨y, hy, hother⟩ => ⟨y, List.mem_append_left _ hy, hother⟩

/-! ### The checks of BATCH_QUEUE -/

theorem flagOf_flagCode (wait : Bool) : flagOf (flagCode wait) = some wait := by cases wait <;> rfl

variable {size : Nat} {steps : List FormulaStep}

theorem destinationFailure_none {product destination : Nat} {v : Bin} (hv : s.bin destination = some v)
    (hkind : v.cfg.kind = .surge ∨ v.cfg.kind = .rework ∨ (v.cfg.kind = .finished ∧ v.cfg.code = product)) :
    destinationFailure s product destination = none := by
  rcases hkind with hkind | hkind | ⟨hkind, hcode⟩
  · simp [destinationFailure, hv, hkind]
  · simp [destinationFailure, hv, hkind]
  · simp [destinationFailure, hv, hkind, hcode]

/-- The bin of a bin step is defined, leads to the step's channel and is not locked (R53, R94 check 6). -/
def StepBinFree (s : State) (e : FormulaStep) : Prop :=
  e.hand = true ∨ ∃ w, s.bin e.bin = some w ∧ outletScale w.cfg.outlet = some e.scale ∧ w.locked = false

theorem StepBinFree.noFailure {e : FormulaStep} (h : StepBinFree s e) : stepBinFailure s e = none := by
  rcases h with hhand | ⟨w, hw, houtlet, -⟩
  · simp only [stepBinFailure, hhand, if_true]
  · simp only [stepBinFailure, hw, houtlet, if_true, ite_self]

theorem smallStep_none (h : ∀ e ∈ steps, 20 * (s.chan e.scale).cfg.division ≤ stepTarget size e) :
    smallStep s size steps = none :=
  firstFailure_none (fun e he => if_neg (Nat.not_lt.2 (h e he))) 1

/-- What the steps of a formula put on a channel (R94 check 8). -/
def targetsOn (size : Nat) (sc : Scale) (l : List FormulaStep) : Nat :=
  ((l.filter (fun e => decide (e.scale = sc))).map (stepTarget size)).sum

theorem targetsOn_cons_self (size : Nat) (e : FormulaStep) (l : List FormulaStep) :
    targetsOn size e.scale (e :: l) = stepTarget size e + targetsOn size e.scale l := by
  simp only [targetsOn, List.filter_cons, decide_true, if_true, List.map_cons, List.sum_cons]

theorem targetsOn_cons_other {e : FormulaStep} {sc : Scale} (h : e.scale ≠ sc) (size : Nat) (l : List FormulaStep) :
    targetsOn size sc (e :: l) = targetsOn size sc l := by
  simp only [targetsOn, List.filter_cons, decide_eq_false h, Bool.false_eq_true, if_false]

/-- Running sums that reach no capacity with the steps that remain pass check 8 (R94). -/
theorem fullStep_none (hscale : ∀ e ∈ steps, e.scale = .main ∨ e.scale = .micro) : ∀ {i main micro : Nat},
    main + targetsOn size .main steps ≤ (s.chan .main).cfg.capacity →
    micro + targetsOn size .micro steps ≤ (s.chan .micro).cfg.capacity → fullStep s size i main micro steps = none := by
  induction steps with
  | nil => exact fun _ _ => rfl
  | cons e l ih =>
    intro i main micro hmain hmicro
    obtain ⟨he, hl⟩ := List.forall_mem_cons.1 hscale
    rcases he with he | he
    · have hself := targetsOn_cons_self size e l
      have hother := targetsOn_cons_other (e := e) (sc := .micro) (by rw [he]; decide) size l
      rw [he] at hself
      simp only [fullStep, he, decide_true, if_true]
      rw [if_neg (by omega), ih hl (by omega) (by omega)]
    · have hself := targetsOn_cons_self size e l
      have hother := targetsOn_cons_other (e := e) (sc := .main) (by rw [he]; decide) size l
      rw [he] at hself
      simp only [fullStep, he, reduceCtorEq, decide_false, Bool.false_eq_true, if_false]
      rw [if_neg (by omega), ih hl (by omega) (by omega)]

theorem mem_batchClaims {c : Nat × Holder × Nat} {l : List FormulaStep} : ∀ {i : Nat}, c ∈ batchClaims number size i l →
    ∃ e ∈ l, e.hand = false ∧ c.1 = e.bin := by
  induction l with
  | nil => exact fun h => absurd h List.not_mem_nil
  | cons e l ih =>
    intro i h
    have hlater : ∀ {j}, c ∈ batchClaims number size j l → ∃ e' ∈ e :: l, e'.hand = false ∧ c.1 = e'.bin := fun h =>
      let ⟨x, hx, hbin⟩ := ih h
      ⟨x, List.mem_cons_of_mem _ hx, hbin⟩
    unfold batchClaims at h
    split_ifs at h with hhand
    · exact hlater h
    · rcases List.mem_cons.1 h with rfl | h
      · exact ⟨e, List.mem_cons_self, Bool.eq_false_iff.2 hhand, rfl⟩
      · exact hlater h

theorem length_batchClaims (number size : Nat) (l : List FormulaStep) : ∀ i : Nat,
    (batchClaims number size i l).length = (l.filter (fun e => !e.hand)).length := by
  induction l with
  | nil => exact fun _ => rfl
  | cons e l ih =>
    intro i
    unfold batchClaims
    split_ifs with hhand
    · simp [hhand, ih]
    · simp [hhand, ih]

/-- Claims on the bins of free steps that find room in the ledger are not refused (R53). -/
theorem claimRefusal_of_free (hbins : ∀ e ∈ steps, StepBinFree s e)
    (hledger : s.inv.reservations.length + (steps.filter (fun e => !e.hand)).length ≤ 192) (i : Nat) :
    claimRefusal s (batchClaims number size i steps) = none := by
  have hclaims : ∀ c ∈ batchClaims number size i steps, ∃ w, s.bin c.1 = some w ∧ w.locked = false := fun c hc => by
    obtain ⟨e, he, hhand, hbin⟩ := mem_batchClaims hc
    rcases hbins e he with h | ⟨w, hw, -, hlocked⟩
    · rw [hhand] at h; cases h
    · exact ⟨w, hbin ▸ hw, hlocked⟩
  have hdefined : (batchClaims number size i steps).any (fun c => (s.bin c.1).isNone) = false :=
    List.any_eq_false.2 fun c hc => by
      obtain ⟨w, hw, -⟩ := hclaims c hc
      simp [hw]
  have hunlocked : (batchClaims number size i steps).any (fun c => ((s.bin c.1).map (·.locked)).getD false) = false :=
    List.any_eq_false.2 fun c hc => by
      obtain ⟨w, hw, hlocked⟩ := hclaims c hc
      simp [hw, hlocked]
  simp only [claimRefusal, hdefined, hunlocked, length_batchClaims, Bool.false_eq_true, if_false,
    if_neg (Nat.not_lt.2 hledger)]

/-! ### BATCH_QUEUE -/

/-- BATCH_QUEUE passes every check of R94. -/
structure Queueable (s : State) (number formula size lot destination : Nat) (f : Formula) (v : Bin) : Prop where
  numbers : 1 ≤ number ∧ number ≤ max16 ∧ 100000 ≤ size ∧ size ≤ 4000000 ∧ lot ≤ max16 ∧ 1 ≤ destination ∧
    destination ≤ Config.binCount
  formulaNumber : formulaNumber formula = true
  fresh : s.batch number = none
  room : s.line.batches.length < Config.batchCap
  listed : Table.get s.line.formulas formula = some f
  closed : f.closed = true
  defined : s.bin destination = some v
  kind : v.cfg.kind = .surge ∨ v.cfg.kind = .rework ∨ (v.cfg.kind = .finished ∧ v.cfg.code = f.product)
  bins : ∀ e ∈ f.steps, StepBinFree s e
  large : ∀ e ∈ f.steps, 20 * (s.chan e.scale).cfg.division ≤ stepTarget size e
  fits : ∀ sc, targetsOn size sc f.steps ≤ (s.chan sc).cfg.capacity
  scales : ∀ e ∈ f.steps, e.scale = .main ∨ e.scale = .micro
  ledger : s.inv.reservations.length + (f.steps.filter (fun e => !e.hand)).length ≤ 192

variable {formula lot destination : Nat} {wait : Bool} {f : Formula} {v : Bin}

/-- The checks of the steps, 6 to 8, find none that fails (R94). -/
theorem Queueable.steps_pass (h : Queueable s number formula size lot destination f v) :
    (firstFailure (stepBinFailure s) 1 f.steps).or ((smallStep s size f.steps).or (fullStep s size 1 0 0 f.steps)) = none := by
  have hfull : fullStep s size 1 0 0 f.steps = none :=
    fullStep_none h.scales ((Nat.zero_add _).symm ▸ h.fits .main) ((Nat.zero_add _).symm ▸ h.fits .micro)
  rw [firstFailure_none (fun e he => (h.bins e he).noFailure), smallStep_none h.large, hfull]
  rfl

/-- The state with the reservations and the batch that BATCH_QUEUE makes (R94). -/
def batchQueued (s : State) (number formula size lot destination : Nat) (wait : Bool) (f : Formula) : State :=
  let made := createAll s (batchClaims number size 1 f.steps)
  made.1.setLine { made.1.line with
    batches := made.1.line.batches ++ [newBatch number formula size lot destination wait f made.2] }

/-- The creation of reservations is the inventory's alone. -/
theorem createAll_frame (claims : List (Nat × Holder × Nat)) : ∀ s : State, ∃ i, (createAll s claims).1 = s.setInv i := by
  induction claims with
  | nil => exact fun s => ⟨s.inv, rfl⟩
  | cons c claims ih => exact fun s => ih (createOne s c.1 c.2.1 c.2.2).1

theorem State.StartBlocked.batchQueued (h : s.StartBlocked number) (formula size lot destination : Nat) (wait : Bool)
    (f : Formula) : (batchQueued s number formula size lot destination wait f).StartBlocked number := by
  obtain ⟨i, hmade⟩ := createAll_frame (batchClaims number size 1 f.steps) s
  simp only [Machine.batchQueued, hmade]
  exact h.append i _

/-- A batch that must wait is queued, and nothing follows (R94, R97). -/
theorem Queueable.accepted (h : Queueable (dropFrame s) number formula size lot destination f v) (hroom : s.replyRoom = true)
    (hblocked : s.StartBlocked number) (wait : Bool) {ids : List Nat}
    (hids : ids = (createAll (dropFrame s) (batchClaims number size 1 f.steps)).2) :
    execBatchQueue tag number formula size lot destination (flagCode wait) s =
      inTurn s (.batchQueue tag number formula size lot destination (flagCode wait))
        (answer (batchQueued (dropFrame s) number formula size lot destination wait f)
          (replyTo (.batchQueue tag number formula size lot destination (flagCode wait)) .ok 0
            (queueItems (newBatch number formula size lot destination wait f ids)
              ((batchQueued (dropFrame s) number formula size lot destination wait f).shortCount
                (newBatch number formula size lot destination wait f ids))))) := by
  subst hids
  have hblocked : (dropFrame s).StartBlocked number := hblocked
  refine serve_inTurn hroom fun ht => serve_accept ht ?_ (hblocked.batchQueued formula size lot destination wait f).settle
    (items := fun _ => _)
  simp only [flagOf_flagCode, decide_eq_true h.numbers, h.formulaNumber, h.fresh, Option.isNone_none,
    decide_eq_true h.room, Bool.and_self, checked_pass, checked_nil, h.listed, h.closed, Bool.not_true, Bool.false_eq_true,
    if_false, destinationFailure_none h.defined h.kind, h.steps_pass, claimRefusal_of_free h.bins h.ledger]
  rfl

/-! ### BATCH_RELEASE -/

theorem execBatchRelease_accepted (hroom : s.replyRoom = true) (hnumber : 1 ≤ number ∧ number ≤ max16)
    (hb : s.batch number = some b) (hblocked : s.StartBlocked number) (hwait : b.releaseWait = true) :
    execBatchRelease tag number s = accepted s (.batchRelease tag number)
      (fun u => u.putBatch { b with releaseWait := false }) (fun _ => []) := by
  have hreleased (l : Link) : ((s.setLink l).putBatch { b with releaseWait := false }).StartBlocked number :=
    State.StartBlocked.putBatch (s := s.setLink l) hblocked (show b.number = number from batch_number hb)
  refine serve_accepted hroom fun l => ⟨_, fun _ => [], ?_, (hreleased l).settle, rfl⟩
  rw [decide_eq_true hnumber, checked_pass, checked_nil, withBatch_live (s := s.setLink l) _ hb, hwait, checked_pass, checked_nil]

theorem execBatchRelease_refused (hroom : s.replyRoom = true) (hnumber : 1 ≤ number ∧ number ≤ max16)
    (hb : s.batch number = some b) (hwait : b.releaseWait = false) :
    execBatchRelease tag number s = refusedWith s (.batchRelease tag number) .wrongState 0 := by
  refine serve_refused hroom fun l => ?_
  rw [decide_eq_true hnumber, checked_pass, checked_nil, withBatch_live (s := s.setLink l) _ hb, hwait, checked_fail]

/-- Settles O37: the checks of R94 pass, and the start selection that follows starts no batch. -/
theorem batchQueueAndRelease : Obligations.BatchQueueAndRelease := by
  intro s tag number hroom hblocked hlow hhigh
  refine ⟨fun formula size lot destination wait f v hformula hformula' hsize hsize' hlot hdest hdest' hfresh hless hf hclosed hv
    hkind hbins hlarge hfits hscales hledger made b c hc hmade hb => ?_, fun b hb hwait => ?_, fun b hb hwait => ?_⟩
  · have h : Queueable (dropFrame s) number formula size lot destination f v :=
      ⟨⟨hlow, hhigh, hsize, hsize', hlot, hdest, hdest'⟩, formulaNumber_iff.2 ⟨hformula, hformula'⟩, hfresh, hless, hf,
        hclosed, hv, hkind, hbins, hlarge, hfits, hscales, hledger⟩
    subst hc hb hmade
    exact h.accepted hroom hblocked wait rfl
  · exact execBatchRelease_accepted hroom ⟨hlow, hhigh⟩ hb hblocked hwait
  · exact execBatchRelease_refused hroom ⟨hlow, hhigh⟩ hb hwait

/-! ### BATCH_RESUME -/

theorem execBatchResume_stopped (hroom : s.replyRoom = true) (hb : s.batch number = some b) (hstop : s.stopped = true) :
    execBatchResume tag number s = refusedWith s (.batchResume tag number) .lineStopped 0 := by
  refine serve_refused hroom fun l => ?_
  rw [withBatch_live (s := s.setLink l) _ hb]
  simp only [State.setLink_stopped, hstop, Bool.not_true, checked_fail]
  split <;> rfl

theorem execBatchResume_dosing {reason : BatchReason} (hroom : s.replyRoom = true) (hb : s.batch number = some b)
    (hrun : s.stopped = false) (hstate : b.state = .held .dosing reason) :
    execBatchResume tag number s = refusedWith s (.batchResume tag number) .wrongState 0 := by
  refine serve_refused hroom fun l => ?_
  rw [withBatch_live (s := s.setLink l) _ hb]
  simp only [hstate, State.setLink_stopped, hrun, Bool.not_false, checked_pass, checked_nil]

/-- A batch held in the mixer with no step held goes on as `resumeMixer` says, if nothing follows (R111). -/
theorem execBatchResume_mixer {phase : BatchPhase} {reason : BatchReason} {g : State → State} (hroom : s.replyRoom = true)
    (hb : s.batch number = some b) (hrun : s.stopped = false) (hstate : b.state = .held phase reason) (hphase : phase ≠ .dosing)
    (hsteps : ∀ e ∈ b.steps, e.isHeld = false)
    (hresume : ∀ l : Link, resumeMixer (s.setLink l) b phase = (g (s.setLink l), [])) :
    execBatchResume tag number s = accepted s (.batchResume tag number) g (fun _ => []) := by
  have hnone : b.steps.any StepEntry.isHeld = false := List.any_eq_false.2 fun e he => by simp [hsteps e he]
  refine serve_plainly hroom fun l => ?_
  rw [withBatch_live (s := s.setLink l) _ hb]
  simp only [hstate]
  cases phase with
  | dosing => exact absurd rfl hphase
  | discharging | mixing | mixed | releasing =>
    simp only [State.setLink_stopped, hrun, hnone, Bool.not_false, checked_pass, checked_nil, hresume]
    rfl

/-- Mixing goes on from the time that remains (R106, R111). -/
theorem resumeMixer_mixing (hleft : 0 < b.mixLeft) : resumeMixer s b .mixing =
    ((s.ask .mixerMotor true).putBatch { b with state := .mixing, timer := some (.mix b.mixLeft) }, []) := by
  simp only [resumeMixer, enterMixing, if_neg hleft.ne', State.done]

/-! ### BATCH_CANCEL -/

theorem execBatchCancel_accepted (hroom : s.replyRoom = true) (hb : s.batch number = some b)
    (hstate : b.state = .queued ∨ b.state = .waitStock) (hclaims : b.claims = []) :
    execBatchCancel tag number s = accepted s (.batchCancel tag number) (fun u => u.dropBatch number) (fun _ => []) := by
  refine serve_plainly hroom fun l => ?_
  rw [withBatch_live (s := s.setLink l) _ hb, decide_eq_true hstate, checked_pass, checked_nil, hclaims]
  rfl

theorem execBatchCancel_refused (hroom : s.replyRoom = true) (hb : s.batch number = some b)
    (hstate : ¬(b.state = .queued ∨ b.state = .waitStock)) :
    execBatchCancel tag number s = refusedWith s (.batchCancel tag number) .wrongState 0 := by
  refine serve_refused hroom fun l => ?_
  rw [withBatch_live (s := s.setLink l) _ hb, decide_eq_false hstate, checked_fail]

/-- Settles O40: the held phase decides how a batch goes on, and only a batch that has not started is cancelled. -/
theorem batchResumeAndCancel : Obligations.BatchResumeAndCancel := by
  refine ⟨fun s tag number b reason hroom hb hsteps => ⟨?_, fun hrun hstate => ?_, fun hrun hstate hleft => ?_, ?_⟩,
    fun s tag number b hroom hb => ⟨?_, fun hqueued hwait => ?_⟩⟩
  · exact execBatchResume_stopped hroom hb
  · exact execBatchResume_mixer hroom hb hrun hstate nofun hsteps fun l => rfl
  · exact execBatchResume_mixer hroom hb hrun hstate nofun hsteps fun l => resumeMixer_mixing hleft
  · exact fun hrun hstate => execBatchResume_dosing hroom hb hrun hstate
  · exact execBatchCancel_accepted hroom hb
  · exact execBatchCancel_refused hroom hb (not_or.2 ⟨hqueued, hwait⟩)

end

end Sys2Proof.Machine

/-! PROOFS. The listeners of an occurrence and the actions of a slot that serves it (R95, R97, R98, R117, R150, R164, R170, R172, R180,
R195, R196, R202, R203). -/

namespace Sys2Proof.Machine

section

variable {s t u : State} {e : Event} {rest : List Event} {p : PressId} {x : Task} {l : List Task}

/-! ### Courses that mostly change nothing -/

/-- Both presses are told in turn, and only one of them acts. -/
theorem Course.atPress {tell : PressId → Task} (h : Leads (tell p) s u) (hbefore : ∀ q, q ≠ p → Inert (tell q) s)
    (hafter : ∀ q, q ≠ p → Inert (tell q) u) : Course [tell .one, tell .two] s u := by
  cases p with
  | one => exact .cons h (.cons (.of_inert (hafter .two (by decide))) (.nil _))
  | two => exact .cons (.of_inert (hbefore .one (by decide))) (.cons h (.nil _))

/-- Tasks that change nothing, and then one whose further tasks lead on. -/
theorem outcome_inert_then {more : List Task} (hquiet : ∀ y ∈ l, Inert y s) (hx : handle x s = (u, more))
    (h : Course more u t) (hl : l.length ≤ 20 := by exact Nat.le_of_ble_eq_true rfl)
    (hmore : more.length ≤ 20 := by exact Nat.le_of_ble_eq_true rfl) : outcome (s, l ++ [x]) = .next t := by
  have hlast : runTasks (3 * more.length + 1) [x] s = some t := by
    rw [runTasks_cons, hx, List.append_nil]
    exact h.runTasks
  have hbound : Config.cascadeBound = 3 * more.length + 1 + l.length + (19999 - 3 * more.length - l.length) := by
    rw [show Config.cascadeBound = 20000 from rfl]
    omega
  refine outcome_of_settle ?_
  rw [settle, hbound]
  exact runTasks_more_add (runTasks_inert_append hlast hquiet) _

/-! ### Listeners that an occurrence leaves alone -/

/-- The state in which an occurrence is offered: it has left the waiting ones (R195). -/
def State.offering (s : State) (rest : List Event) : State := s.setRouter { s.router with waiting := rest }

theorem exec_occurrenceOffer (h : s.router.waiting = e :: rest) :
    exec .occurrenceOffer s = outcome (s.offering rest, offerTasks (s.offering rest) e) := by
  show outcome (offerNext s) = _
  simp only [offerNext, h, State.offering]

theorem triggerIf_out {inSet : TriggerSet → Bool} (h : inSet (s.pressAt p).cfg.triggers = false) : triggerIf s p inSet = s := by
  rw [triggerIf, h, if_neg Bool.false_ne_true]

theorem listenSource_other (h : (s.pressAt p).cfg.triggers.source ≠ some e.source) : Inert (.listenSource p e) s := by
  simp only [Inert, handle, triggerIf_out (inSet := fun t => decide (t.source = some e.source)) (decide_eq_false h), State.done]

theorem listenSurgeLow_other (h : lowBin e ≠ some (s.pressAt p).cfg.surgeBin) : Inert (.listenSurgeLow p e) s := by
  simp only [Inert, handle, if_neg h, State.done]

theorem listenBagStop_empty (h : s.bag.queue = []) (run : Nat) : Inert (.listenBagStop run e) s := by
  simp [Inert, handle, State.headRun, h, State.done]

theorem listenBagStart_empty (h : s.bag.queue = []) (run : Nat) : Inert (.listenBagStart run e) s := by
  simp [Inert, handle, State.headRun, h, State.done]

theorem listenGrind_noFall (h : lowBin e = none) : Inert (.listenGrind e) s := by
  simp only [Inert, handle, h, State.done]

theorem listenGrind_notGround {b : Nat} {v : Bin} (hlow : lowBin e = some b) (hv : s.bin b = some v)
    (hkind : v.cfg.kind ≠ .ground) : Inert (.listenGrind e) s := by
  simp only [Inert, handle, hlow, autoGrind, hv, if_pos (Or.inl hkind : v.cfg.kind ≠ .ground ∨ v.cfg.arming = .off), State.done]

theorem listenBatch_unfilled (h : filledId e = none) : Inert (.listenBatch e) s := by
  simp only [Inert, handle, h, State.done]

theorem listenShort_unfilled (h : filledId e = none) : Inert (.listenShort e) s := by
  simp only [Inert, handle, h, State.done]

/-- No slot and no notice for the occurrence (R195, R197). -/
def Unrecorded (s : State) (e : Event) : Prop := s.servingSlot e.source = none ∧ s.level e.source = 0

theorem Unrecorded.inert (h : Unrecorded s e) : Inert (.slotOrNotice e) s := by
  obtain ⟨hslot, hlevel⟩ := h
  simp only [Inert, handle, slotOrNotice, hslot, pendNotice, hlevel, if_true, State.done]

/-- With no bag run the bagger's listeners change nothing. -/
theorem course_bagger_empty (h : s.bag.queue = []) (run : Nat) :
    Course [.listenBagStop run e, .listenBagStart run e] s s :=
  .cons (.of_inert (listenBagStop_empty h run)) (.cons (.of_inert (listenBagStart_empty h run)) (.nil _))

/-- No reservation has been filled and no slot serves: after auto-grind nothing more follows. -/
theorem course_afterGrind (hfilled : filledId e = none) (hrecord : Unrecorded s e) :
    Course [.listenBatch e, .listenShort e, .slotOrNotice e] s s :=
  .cons (.of_inert (listenBatch_unfilled hfilled)) (.cons (.of_inert (listenShort_unfilled hfilled))
    (.cons (.of_inert hrecord.inert) (.nil _)))

/-- The parts of an offering, in the order of R196. -/
theorem outcome_offer {v w : State} (hsource : Course [.listenSource .one e, .listenSource .two e] s t)
    (hsurge : Course [.listenSurgeLow .one e, .listenSurgeLow .two e] t u)
    (hbag : Course [.listenBagStop (((s.bag.queue.head?).map (·.number)).getD 0) e,
      .listenBagStart (((s.bag.queue.head?).map (·.number)).getD 0) e] u v)
    (hgrind : Leads (.listenGrind e) v w) (hfilled : filledId e = none) (hrecord : Unrecorded w e) :
    outcome (s, offerTasks s e) = .next w :=
  (((hsource.append hsurge).append hbag).append (.cons hgrind (course_afterGrind hfilled hrecord))).outcome

theorem course_source_none (h : ∀ p, (s.pressAt p).cfg.triggers.source ≠ some e.source) :
    Course [.listenSource .one e, .listenSource .two e] s s :=
  .cons (.of_inert (listenSource_other (h _))) (.cons (.of_inert (listenSource_other (h _))) (.nil _))

theorem course_surgeLow_none (h : ∀ p, lowBin e ≠ some (s.pressAt p).cfg.surgeBin) :
    Course [.listenSurgeLow .one e, .listenSurgeLow .two e] s s :=
  .cons (.of_inert (listenSurgeLow_other (h _))) (.cons (.of_inert (listenSurgeLow_other (h _))) (.nil _))

theorem course_surgeLow_noFall (h : lowBin e = none) : Course [.listenSurgeLow .one e, .listenSurgeLow .two e] s s :=
  course_surgeLow_none fun p => by rw [h]; exact nofun

/-! ### Triggers -/

/-- A press with an active run and no trigger pending starts its changeover delay (R150). -/
theorem takeTrigger_starts {a : ActiveRun} (ha : (s.pressAt p).active = some a) (hdelay : (s.pressAt p).delay = none)
    (hsignal : (s.pressAt p).signalPending = false) :
    takeTrigger s p = s.setPress p { s.pressAt p with delay := some (s.pressAt p).cfg.delay } := by
  simp only [takeTrigger, ha, hdelay, hsignal, Option.isNone_some, Option.isNone_none, Bool.not_false, Bool.and_self,
    Bool.false_eq_true, if_true, if_false, State.modPress]

/-- While the delay runs a trigger counts as ignored (R150). -/
theorem takeTrigger_ignored {a : ActiveRun} {left : Tenths} (ha : (s.pressAt p).active = some a)
    (hdelay : (s.pressAt p).delay = some left) : takeTrigger s p =
      s.setPress p { s.pressAt p with active := some { a with ignored := min (a.ignored + 1) 255 } } := by
  simp only [takeTrigger, ha, hdelay, Option.isNone_some, Bool.false_and, Bool.false_eq_true, if_false, countIgnored,
    State.modPress, Option.map_some, satAdd]

theorem leads_listenSource (h : (s.pressAt p).cfg.triggers.source = some e.source) :
    Leads (.listenSource p e) s (takeTrigger s p) :=
  .of_eq (by simp only [handle, triggerIf, h, decide_true, if_true, State.done])

theorem leads_listenSurgeLow (hlow : lowBin e = some (s.pressAt p).cfg.surgeBin)
    (hset : (s.pressAt p).cfg.triggers.surgeLow = true) : Leads (.listenSurgeLow p e) s (takeTrigger s p) :=
  .of_eq (by simp only [handle, if_pos hlow, triggerIf, hset, if_true, State.done])

theorem modPress_cfg {f : Press → Press} (hf : ∀ y, (f y).cfg = y.cfg) (s : State) (p q : PressId) :
    ((s.modPress p f).pressAt q).cfg = (s.pressAt q).cfg := by
  cases p with
  | one => cases q with
    | one => exact hf _
    | two => rfl
  | two => cases q with
    | one => rfl
    | two => exact hf _

/-- A trigger changes no press's configuration. -/
theorem takeTrigger_cfg (s : State) (p q : PressId) : ((takeTrigger s p).pressAt q).cfg = (s.pressAt q).cfg := by
  simp only [takeTrigger, countIgnored]
  split_ifs
  · rfl
  · exact modPress_cfg (by exact fun _ => rfl) s p q
  · exact modPress_cfg (by exact fun _ => rfl) s p q

/-- A trigger changes the presses alone. -/
theorem takeTrigger_frame (s : State) (p : PressId) : ∃ v, takeTrigger s p = s.setPresses v := by
  simp only [takeTrigger, countIgnored]
  split_ifs
  · exact ⟨s.press, rfl⟩
  · exact ⟨_, rfl⟩
  · exact ⟨_, rfl⟩

/-- A SOURCE trigger of one press (R150, R196). -/
theorem outcome_offer_source (hlow : lowBin e = none) (hfilled : filledId e = none) (hrecord : Unrecorded s e)
    (hqueue : s.bag.queue = []) (hsource : (s.pressAt p).cfg.triggers.source = some e.source)
    (hother : ∀ q, q ≠ p → (s.pressAt q).cfg.triggers.source ≠ some e.source) :
    outcome (s, offerTasks s e) = .next (takeTrigger s p) := by
  obtain ⟨v, hframe⟩ := takeTrigger_frame s p
  refine outcome_offer (t := takeTrigger s p) (u := takeTrigger s p) (v := takeTrigger s p) ?_ (course_surgeLow_noFall hlow)
    (course_bagger_empty ?_ _) (.of_inert (listenGrind_noFall hlow)) hfilled ?_
  · refine .atPress (tell := (.listenSource · e)) (leads_listenSource hsource)
      (fun q hq => listenSource_other (hother q hq)) fun q hq => listenSource_other ?_
    rw [takeTrigger_cfg]
    exact hother q hq
  · rw [hframe]
    exact hqueue
  · rw [hframe]
    exact hrecord

/-- A SURGE_LOW trigger of the one press of a surge bin (R150, R196). -/
theorem outcome_offer_surgeLow {v : Bin} (hlow : lowBin e = some (s.pressAt p).cfg.surgeBin) (hfilled : filledId e = none)
    (hrecord : Unrecorded s e) (hqueue : s.bag.queue = []) (hv : s.bin (s.pressAt p).cfg.surgeBin = some v)
    (hkind : v.cfg.kind ≠ .ground) (hsource : ∀ q, (s.pressAt q).cfg.triggers.source ≠ some e.source)
    (hother : ∀ q, q ≠ p → (s.pressAt q).cfg.surgeBin ≠ (s.pressAt p).cfg.surgeBin)
    (hset : (s.pressAt p).cfg.triggers.surgeLow = true) : outcome (s, offerTasks s e) = .next (takeTrigger s p) := by
  obtain ⟨w, hframe⟩ := takeTrigger_frame s p
  have hunnamed (q : PressId) (hq : q ≠ p) : lowBin e ≠ some (s.pressAt q).cfg.surgeBin := fun h =>
    hother q hq (Option.some.inj (h.symm.trans hlow))
  refine outcome_offer (course_source_none hsource) (.atPress (tell := (.listenSurgeLow · e)) (leads_listenSurgeLow hlow hset)
    (fun q hq => listenSurgeLow_other (hunnamed q hq)) fun q hq => listenSurgeLow_other ?_)
    (course_bagger_empty ?_ _) (.of_inert (listenGrind_notGround (v := v) hlow ?_ hkind)) hfilled ?_
  · rw [takeTrigger_cfg]
    exact hunnamed q hq
  all_goals rw [hframe]
  · exact hqueue
  · exact hv
  · exact hrecord

/-! ### The bagger's listeners -/

section bagger

variable {r : BagRun} {more : List BagRun}

/-- A SOURCE stop of the head run during a bag (R170). -/
theorem leads_listenBagStop (hq : s.bag.queue = r :: more) (hstop : r.stop = .source e.source) (htaken : r.stopTaken = false)
    (hstate : r.state = .filling ∨ r.state = .checking ∨ r.state = .releasing) : Leads (.listenBagStop r.number e) s
      (s.setBag { s.bag with queue := { r with stopTaken := true, tailLeft := r.tail } :: more }) := by
  refine .of_eq ?_
  rw [← putHead_of_queue hq, ← stopRun_withBag hstate]
  simp only [handle, headRun_of_queue hq, Option.map_some, if_true, takeStop, if_pos (And.intro hstop htaken)]

/-- A run that waits for no start trigger takes none (R164). -/
theorem listenBagStart_unstartable (hq : s.bag.queue = r :: more) (h : r.startable = false) (run : Nat) :
    Inert (.listenBagStart run e) s := by
  simp only [Inert, handle, headRun_of_queue hq, takeStart, h, Bool.and_false, Bool.false_and, Bool.false_eq_true, if_false,
    State.done, ite_self]

theorem startable_withBag (h : r.state = .filling ∨ r.state = .checking ∨ r.state = .releasing) : r.startable = false := by
  rcases h with h | h | h <;> simp only [BagRun.startable, h]

theorem outcome_offer_bagStop (hlow : lowBin e = none) (hfilled : filledId e = none) (hrecord : Unrecorded s e)
    (hsource : ∀ q, (s.pressAt q).cfg.triggers.source ≠ some e.source) (hq : s.bag.queue = r :: more)
    (hstop : r.stop = .source e.source) (htaken : r.stopTaken = false)
    (hstate : r.state = .filling ∨ r.state = .checking ∨ r.state = .releasing) : outcome (s, offerTasks s e) =
      .next (s.setBag { s.bag with queue := { r with stopTaken := true, tailLeft := r.tail } :: more }) := by
  refine outcome_offer (course_source_none hsource) (course_surgeLow_noFall hlow) ?_ (.of_inert (listenGrind_noFall hlow)) hfilled
    hrecord
  rw [hq]
  exact .cons (leads_listenBagStop hq hstop htaken hstate) (.cons (.of_inert (listenBagStart_unstartable
    (r := { r with stopTaken := true, tailLeft := r.tail }) rfl (startable_withBag hstate) _)) (.nil _))

/-- A SOURCE start of an ARMED head run (R164). -/
theorem listenBagStart_armed (hq : s.bag.queue = r :: more) (hrun : s.stopped = false) (harmed : r.state = .armed)
    (hstart : r.start = .source e.source) : handle (.listenBagStart r.number e) s =
      (s.setBag { s.bag with queue := { r with burst := 0, state := .waitBag } :: more }, [.enterWaitBag]) := by
  have hstartable : r.startable = true := by simp only [BagRun.startable, harmed]
  simp only [handle, headRun_of_queue hq, Option.map_some, if_true, takeStart, hrun, hstartable, decide_eq_true hstart,
    Bool.not_false, Bool.and_self, startRun, putHead_of_queue hq]

/-- A run held SHORT for stock whose reservation has been filled up goes on (R172). -/
theorem shortResume_filled {y : Reservation} {phase : BagPhase} (hq : s.bag.queue = r :: more)
    (hstate : r.state = .held .short .stock phase) (hclaim : s.claim (.bagRun r.number) r.reservation = some y)
    (hstock : min r.target y.wanted ≤ y.held) (hrun : s.stopped = false) :
    shortResume s r.reservation = continueRun s r := by
  have hcheck : stockCheck s r = true := by simp only [stockCheck, hclaim, decide_eq_true hstock]
  simp only [shortResume, headRun_of_queue hq, hstate, hcheck, hrun, and_self, if_true]

end bagger

/-! ### Auto-grind -/

/-- A stopped mill with its stop mark serves nothing (R119). -/
theorem serving_marked (hstate : s.mill.state = .stopped) (hmark : s.mill.stopMark = true) : Inert .serving s := by
  simp only [Inert, handle, serving, hstate, hmark, or_true, and_self, if_true, State.done]

/-- The state in which auto-grind has queued a request for bin `b` (R117). -/
def autoGrindQueued (s : State) (b : Nat) (v : Bin) : State :=
  (s.setMill { s.mill with
    queue := s.mill.queue ++ [⟨61440 + b, v.cfg.grindSource, b, v.cfg.grindScreen, 0, .waiting, 0⟩] }).setInv
    { s.inv with bins := if v.cfg.arming = .single
        then Table.set s.inv.bins b { v with cfg := { v.cfg with arming := .off } } else s.inv.bins }

theorem leads_listenGrind {b : Nat} {v : Bin} (hlow : lowBin e = some b) (hv : s.bin b = some v) (hkind : v.cfg.kind = .ground)
    (harm : v.cfg.arming = .single ∨ v.cfg.arming = .repeating) (hnew : ∀ r ∈ s.mill.queue, r.destination ≠ b)
    (hfit : sourceFit s v.cfg.grindSource = true) (hroom : s.mill.queue.length < 8) (hstate : s.mill.state = .stopped)
    (hmark : s.mill.stopMark = true) : Leads (.listenGrind e) s (autoGrindQueued s b v) := by
  have harmed : ¬(v.cfg.kind ≠ .ground ∨ v.cfg.arming = .off) := by
    rcases harm with h | h <;> simp [hkind, h]
  have hfresh : s.mill.queue.any (fun r => decide (r.destination = b)) = false :=
    List.any_eq_false.2 fun r hr => by simp [hnew r hr]
  have hgrind : autoGrind s b = (autoGrindQueued s b v, [.serving]) := by
    simp only [autoGrind, hv, if_neg harmed, hfresh, hfit, Bool.not_true, Bool.false_eq_true, if_false,
      if_neg (Nat.not_le.2 hroom), autoGrindQueued]
    split_ifs <;> rfl
  refine ⟨[.serving], ?_, Nat.le_of_ble_eq_true rfl, fun y hy => ?_⟩
  · simp only [handle, hlow, hgrind]
  · rw [List.mem_singleton.1 hy]
    exact serving_marked hstate hmark

/-! ### The actions of a slot -/

section slot

variable {k : Nat} {v : Slot}

/-- A slot with more than one count left loses one and stays as it is (R202). -/
def slotServed (s : State) (k : Nat) (v : Slot) : State := s.setSlot k { v with remaining := v.remaining - 1 }

theorem leads_slotCount (hv : s.slot k = v) (hleft : 2 ≤ v.remaining) : Leads (.slotCount k) s (slotServed s k v) := by
  have hmore : v.remaining - 1 ≠ 0 := by omega
  refine .of_eq ?_
  simp only [handle, slotCount, hv, if_neg hmore, decide_eq_true hmore, Bool.and_true, State.done, slotServed]

/-- An occurrence that no listener acts on, offered where slot `k` serves it (R195). -/
structure SlotOffer (s : State) (e : Event) (k : Nat) (v : Slot) : Prop where
  low : lowBin e = none
  filled : filledId e = none
  bag : s.bag.queue = []
  source : ∀ p, (s.pressAt p).cfg.triggers.source ≠ some e.source
  serves : s.servingSlot e.source = some k
  slot : s.slot k = v
  left : 2 ≤ v.remaining

theorem SlotOffer.outcome (h : SlotOffer s e k v) (hact : actionTasks v = [x]) (hx : Leads x s u) (hslot : u.slot k = v) :
    outcome (s, offerTasks s e) = .next (slotServed u k v) := by
  have hno (p : PressId) : lowBin e ≠ some (s.pressAt p).cfg.surgeBin := by rw [h.low]; exact nofun
  refine outcome_inert_then (s := s) (more := [x, .slotCount k])
    (l := [.listenSource .one e, .listenSource .two e, .listenSurgeLow .one e, .listenSurgeLow .two e, .listenBagStop _ e,
      .listenBagStart _ e, .listenGrind e, .listenBatch e, .listenShort e]) ?_ ?_
    (.cons hx (.cons (leads_slotCount hslot h.left) (.nil _)))
  · simp only [List.forall_mem_cons, List.not_mem_nil, false_imp_iff, implies_true, and_true]
    exact ⟨listenSource_other (h.source _), listenSource_other (h.source _), listenSurgeLow_other (hno _),
      listenSurgeLow_other (hno _), listenBagStop_empty h.bag _, listenBagStart_empty h.bag _, listenGrind_noFall h.low,
      listenBatch_unfilled h.filled, listenShort_unfilled h.filled⟩
  · simp only [handle, slotOrNotice, h.serves, h.slot, hact, List.singleton_append]

theorem judgeLoaded_unfinished (h : s.book.loadout.state ≠ .finished) : Inert .judgeLoaded s := by
  unfold Inert handle judgeLoaded
  cases s.truckOrder with
  | none => rfl
  | some o => exact if_neg fun hjudge => h hjudge.1

/-- A posted bag within its line's over allowance (R180). -/
theorem leads_postBag {o : Order} {i : OrderLine} {order line : Nat} (ho : s.order order = some o) (hi : o.line line = some i)
    (hbulk : i.bulk = false) (hopened : i.status = .opened) (hover : i.delivered + 1 ≤ i.quantity + i.overTol)
    (hload : s.book.loadout.state ≠ .finished) : Leads (.postBag order line) s (s.putOrder { o with
      lines := o.lines.set (line - 1) { i with
        delivered := i.delivered + 1
        status := if i.quantity - i.underTol ≤ i.delivered + 1 then .done else .opened } }) := by
  have hcounted : ¬(i.bulk = true ∨ i.status = .closedShort) := by simp [hbulk, hopened]
  have hstatus : baggedStatus { i with delivered := i.delivered + 1 } =
      if i.quantity - i.underTol ≤ i.delivered + 1 then .done else .opened := by
    simp only [baggedStatus, hopened, true_and]
  refine ⟨[.judgeLoaded], ?_, Nat.le_of_ble_eq_true rfl, fun y hy => ?_⟩
  · simp only [handle, postBag, ho, hi, if_neg hcounted, if_neg (Nat.not_lt.2 hover), hstatus, Order.putLine]
  · rw [List.mem_singleton.1 hy]
    exact judgeLoaded_unfinished hload

/-- The oldest batch that waits for its release is released, and may not start (R95, R203). -/
theorem leads_releaseBatch {b : Batch} (hb : s.line.batches.find? (·.releaseWait) = some b)
    (hblocked : s.StartBlocked b.number) : Leads .releaseBatch s (s.putBatch { b with releaseWait := false }) := by
  refine ⟨[.startSelection], ?_, Nat.le_of_ble_eq_true rfl, fun y hy => ?_⟩
  · simp only [handle, releaseOldest, hb]
  · rw [List.mem_singleton.1 hy]
    exact (hblocked.putBatch (x := { b with releaseWait := false }) rfl).inert

theorem leads_slotTrigger (hset : (s.pressAt p).cfg.triggers.source.isSome = true) :
    Leads (.slotTrigger p) s (takeTrigger s p) :=
  .of_eq (by simp only [handle, triggerIf, hset, if_true, State.done])

/-- A start from a slot marks a bagger without runs (R164, R165). -/
theorem leads_bagStart_empty (hrun : s.stopped = false) (hqueue : s.bag.queue = []) :
    Leads .bagStart s (s.setBag { s.bag with startMark := true }) := by
  have hhead : s.headRun = none := by rw [State.headRun, hqueue, List.head?_nil]
  refine .of_eq ?_
  simp only [handle, commandStart, hrun, Bool.false_eq_true, if_false, hhead, markStart]
  split_ifs with hmark
  · rw [← hmark]
    rfl
  · rfl

theorem slotPress_of_iff (h : v.press = 2 ↔ p = .two) : (if v.press = 2 then PressId.two else .one) = p := by
  cases p with
  | one => exact if_neg fun hpress => PressId.noConfusion (h.1 hpress)
  | two => exact if_pos (h.2 rfl)

end slot

/-- Settles O53: of the parts of an offering one acts, and the others change nothing. -/
theorem listenersAndSlotActions : Obligations.ListenersAndSlotActions := by
  refine ⟨?_, ?_, ?_, ?_⟩
  · rintro s u e rest hwaiting rfl hslot hlevel
    have hrecord : Unrecorded (s.offering rest) e := ⟨hslot, hlevel⟩
    rw [exec_occurrenceOffer hwaiting]
    refine ⟨fun p a hlow hfilled hqueue hsource hother ha => ?_,
      fun p a b v hlow hfilled hqueue hv hkind hsource hb hother hset ha hdelay hsignal => ?_,
      fun r more hlow hfilled hsource hq hstop _ htaken hstate =>
        outcome_offer_bagStop hlow hfilled hrecord hsource hq hstop htaken hstate,
      fun b v hlow hfilled hqueue hsource hsurge hv hkind harm hnew hfit hroom hstate hmark => ?_⟩
    · have hoffer := outcome_offer_source (s := s.offering rest) hlow hfilled hrecord hqueue hsource hother
      exact ⟨fun hdelay hsignal => hoffer.trans (congrArg _ (takeTrigger_starts (s := s.offering rest) ha hdelay hsignal)),
        fun left hdelay => hoffer.trans (congrArg _ (takeTrigger_ignored (s := s.offering rest) ha hdelay))⟩
    · subst hb
      exact (outcome_offer_surgeLow (s := s.offering rest) hlow hfilled hrecord hqueue hv (by rw [hkind]; decide) hsource hother
        hset).trans (congrArg _ (takeTrigger_starts (s := s.offering rest) ha hdelay hsignal))
    · refine outcome_offer (course_source_none hsource) (course_surgeLow_none fun q => ?_)
        (course_bagger_empty (by exact hqueue) _) (leads_listenGrind hlow hv hkind harm hnew hfit hroom hstate hmark)
        hfilled hrecord
      rw [hlow]
      exact fun h => hsurge q (Option.some.inj h).symm
  · exact fun s e r more hq hrun harmed hstart => listenBagStart_armed hq hrun harmed hstart
  · refine fun s id b => ⟨fun h => ?_, fun h => ?_, fun r more y phase hq hstate hclaim hstock hrun hid => ?_⟩
    · simp only [handle, filledId, h, if_true]
    · simp only [handle, filledId, h, Bool.false_eq_true, if_false, State.done]
    · subst hid
      exact shortResume_filled hq hstate hclaim hstock hrun
  · rintro s u e rest k v hwaiting hlow hfilled hqueue hsource hserves hv hleft rfl
    have h : SlotOffer (s.offering rest) e k v := ⟨hlow, hfilled, hqueue, hsource, hserves, hv, hleft⟩
    rw [exec_occurrenceOffer hwaiting]
    refine ⟨fun o i hact ho hi hbulk hopened hover hload => ?_, fun b hact hb hblocked => ?_,
      fun p a hact hpress hset ha hdelay hsignal => ?_, fun hact hrun => ?_⟩
    · exact h.outcome (by simp only [actionTasks, hact])
        (leads_postBag (s := s.offering rest) ho hi hbulk hopened hover hload) hv
    · exact h.outcome (by simp only [actionTasks, hact]) (leads_releaseBatch (s := s.offering rest) hb hblocked) hv
    · have hoffer := leads_slotTrigger (s := s.offering rest) hset
      rw [takeTrigger_starts (s := s.offering rest) ha hdelay hsignal] at hoffer
      exact h.outcome (by simp only [actionTasks, hact, slotPress_of_iff hpress]) hoffer hv
    · exact h.outcome (by simp only [actionTasks, hact]) (leads_bagStart_empty (s := s.offering rest) hrun hqueue) hv

end

end Sys2Proof.Machine

/-! PROOFS. The mill: the grind queue's requests at a stopped mill and the settings, MILL_RESUME and MILL_STOP, the timers and the
running feedback, and the loop interval (R116 to R132). -/

namespace Sys2Proof.Machine

section

variable {s : State} {tag : Byte} {n : Nat} {r : GrindRequest}

/-! ### Grind requests -/

theorem grind_number (h : s.grind n = some r) : r.number = n := by
  unfold State.grind at h
  simpa using List.find?_some h

theorem currentGrind_of_current (hn : s.mill.current = some n) (hr : s.grind n = some r) : s.currentGrind = some r := by
  rw [State.currentGrind, hn, Option.bind_some, hr]

theorem currentGrind_empty (h : s.mill.queue = []) : s.currentGrind = none := by
  unfold State.currentGrind State.grind
  rw [h]
  cases s.mill.current <;> rfl

/-- A request in a new form is found under its number, when it was there before. -/
theorem putGrind_grind {q : GrindRequest} (hr : s.grind n = some r) (hq : q.number = n) : (s.putGrind q).grind n = some q := by
  unfold State.grind State.putGrind at *
  have hsame : ((fun x : GrindRequest => decide (x.number = n)) ∘ fun x => if x.number = q.number then q else x) =
      fun x => decide (x.number = n) := by
    funext x
    subst hq
    by_cases hx : x.number = q.number <;> simp [hx]
  rw [State.setMill_mill, List.find?_map, hsame, hr, Option.map_some, if_pos ((grind_number hr).trans hq.symm)]

theorem sourceFit_of_bin {b : Nat} {v : Bin} (hv : s.bin b = some v) (hkind : v.cfg.kind = .raw) (houtlet : v.cfg.outlet = .mill)
    (hspeed : ∃ output, v.cfg.feeder = .speed output) : sourceFit s b = true := by
  obtain ⟨output, hfeeder⟩ := hspeed
  simp [sourceFit, hv, hkind, houtlet, hfeeder, Feeder.isSpeed]

theorem destinationFit_of_bin {b : Nat} {v : Bin} (hv : s.bin b = some v) (hkind : v.cfg.kind = .ground) :
    destinationFit s b = true := by
  simp [destinationFit, hv, hkind]

theorem withGrind_live (f : GrindRequest → Verdict) (hr : s.grind n = some r) : withGrind s n f = f r := by
  unfold withGrind
  rw [hr]

/-! ### A serving selection that finds nothing -/

/-- A stopped mill serves nothing in a Line Stop or with its stop mark (R119). -/
theorem serving_blocked (hstate : s.mill.state = .stopped) (hblocked : s.stopped = true ∨ s.mill.stopMark = true) :
    Inert .serving s := by
  show serving s = _
  unfold serving
  rw [if_pos ⟨hstate, hblocked⟩]
  rfl

theorem screenCheck_empty (h : s.mill.queue = []) : screenCheck s = s := by
  unfold screenCheck
  rw [h]
  rfl

theorem serving_empty (h : s.mill.queue = []) : Inert .serving s := by
  show serving s = _
  simp only [serving, h, serveOver, screenCheck_empty h, State.done, ite_self]

theorem leads_servingOrIdle_empty (h : s.mill.queue = []) : Leads .servingOrIdle s (enterIdleRun s) :=
  .of_eq (by simp only [handle, servingOrIdle, h, serveOver, screenCheck_empty h, State.done])

/-- An accepted request whose serving selection finds nothing. -/
theorem serve_idling {c : Instr} {judge : State → Verdict} {f : State → State} (hroom : s.replyRoom = true)
    (hj : ∀ l : Link, judge (s.setLink l) = .accept (f (s.setLink l), [.serving]) (fun _ => []))
    (hidle : ∀ l : Link, Inert .serving (f (s.setLink l))) : serve c judge s = accepted s c f (fun _ => []) :=
  serve_accepted hroom fun l => ⟨_, _, hj l, (Course.cons (.of_inert (hidle l)) (.nil _)).settle, rfl⟩

/-! ### The grind queue at a stopped mill -/

section stopped

variable (hroom : s.replyRoom = true) (hstate : s.mill.state = .stopped)
  (hblocked : s.stopped = true ∨ s.mill.stopMark = true)

include hroom hstate hblocked

theorem execGrindQueue_accepted {number source destination screen level : Nat} {v w : Bin}
    (hrange : 1 ≤ number ∧ number ≤ 61440 ∧ 1 ≤ screen ∧ screen ≤ 8 ∧ 1 ≤ source ∧ source ≤ Config.binCount ∧
      1 ≤ destination ∧ destination ≤ Config.binCount)
    (hnew : s.grind number = none) (hfull : s.mill.queue.length < Config.grindCap) (hv : s.bin source = some v)
    (hw : s.bin destination = some w) (hsource : sourceFit s source = true) (hdest : destinationFit s destination = true)
    (hlevel : level ≤ w.cfg.capacity) :
    execGrindQueue tag number source destination screen level s =
      accepted s (.grindQueue tag number source destination screen level)
        (fun u => u.setMill { u.mill with
          queue := u.mill.queue ++ [⟨number, source, destination, screen, level, .waiting, 0⟩] }) (fun _ => []) := by
  have hplace (l : Link) : decide ((s.setLink l).mill.queue.length < Config.grindCap) = true := decide_eq_true hfull
  have hsource_link (l : Link) : sourceFit (s.setLink l) source = true := hsource
  have hdest_link (l : Link) : destinationFit (s.setLink l) destination = true := hdest
  refine serve_idling hroom (fun l => ?_) fun _ => serving_blocked hstate hblocked
  simp only [decide_eq_true hrange, hplace, hsource_link, hdest_link, State.setLink_grind, State.setLink_bin, hnew, hv, hw,
    Option.isNone_none, Option.isSome_some, Bool.and_self, Option.map_some, Option.getD_some, decide_eq_true hlevel,
    checked_pass, checked_nil]

theorem execGrindResume_accepted {reason : MillReason} (hr : s.grind n = some r) (hheld : r.state = .held reason) :
    execGrindResume tag n s = accepted s (.grindResume tag n)
      (fun u => u.setMill { u.mill with queue := u.mill.queue.map (fun x =>
        if x.number = n then { r with state := .waiting } else x) }) (fun _ => []) := by
  have hisHeld : r.isHeld = true := by simp only [GrindRequest.isHeld, hheld]
  obtain rfl := grind_number hr
  refine serve_idling hroom (fun l => ?_) fun _ => serving_blocked hstate hblocked
  rw [withGrind_live (s := s.setLink l) _ hr, hisHeld, checked_pass, checked_nil]
  rfl

theorem execScreenFitted_accepted {screen : Nat} (hlow : 1 ≤ screen) (hhigh : screen ≤ 8) :
    execScreenFitted tag screen s = accepted s (.screenFitted tag screen)
      (fun u => u.setMill { u.mill with fitted := screen, screenMemory := none }) (fun _ => []) := by
  refine serve_idling hroom (fun l => ?_) fun _ => serving_blocked hstate hblocked
  rw [State.setLink_mill, decide_eq_true (And.intro hlow hhigh), decide_eq_true hstate]
  rfl

end stopped

theorem execGrindCancel_accepted (hroom : s.replyRoom = true) (hr : s.grind n = some r) (hother : s.mill.current ≠ some n) :
    execGrindCancel tag n s = accepted s (.grindCancel tag n)
      (fun u => u.setMill { u.mill with queue := u.mill.queue.filter (fun x => decide (x.number ≠ n)) })
      (fun _ => [.u32 r.ground]) := by
  refine serve_accepted hroom fun l => ⟨cancelGrind (s.setLink l) n, _, withGrind_live (s := s.setLink l) _ hr, ?_, rfl⟩
  unfold cancelGrind
  rw [if_neg (by exact hother)]
  rfl

/-! ### GRIND_ARM and MILL_SET -/

/-- GRIND_ARM of a defined bin comes down to the bin's kind and the state of the store. -/
theorem execGrindArm_judged {b arming : Nat} {a : Arming} {v : Bin} (hlow : 1 ≤ b) (hhigh : b ≤ 48)
    (ha : armingOf arming = some a) (hv : s.bin b = some v) : execGrindArm tag b arming s = serve (.grindArm tag b arming) (fun s =>
      checked [(decide (v.cfg.kind = .ground), .wrongState), (!s.saving, .busy)]
        (plain (s.setBin b { v with cfg := { v.cfg with arming := a } })
          [Item.u8 (armingCode v.cfg.arming), Item.u8 (flagCode (decide (v.onHand < v.cfg.lowMark)))])) s := by
  have hrange : ¬(b = 0 ∨ Config.binCount < b) := by simp only [Config.binCount]; omega
  have hbin : (dropFrame s).bin b = some v := hv
  simp only [execGrindArm, serve, ha, if_neg hrange, hbin]

theorem execGrindArm_accepted {b arming : Nat} {a : Arming} {v : Bin} (hroom : s.replyRoom = true) (hsave : s.saving = false)
    (hlow : 1 ≤ b) (hhigh : b ≤ 48) (ha : armingOf arming = some a) (hv : s.bin b = some v) (hkind : v.cfg.kind = .ground) :
    execGrindArm tag b arming s = accepted s (.grindArm tag b arming)
      (fun u => u.setBin b { v with cfg := { v.cfg with arming := a } })
      (fun _ => [.u8 (armingCode v.cfg.arming), .u8 (flagCode (decide (v.onHand < v.cfg.lowMark)))]) := by
  rw [execGrindArm_judged hlow hhigh ha hv]
  exact serve_plainly hroom fun l => by rw [decide_eq_true hkind, State.setLink_saving, hsave]; rfl

theorem execGrindArm_refused {b arming : Nat} {a : Arming} {v : Bin} (hroom : s.replyRoom = true)
    (hlow : 1 ≤ b) (hhigh : b ≤ 48) (ha : armingOf arming = some a) (hv : s.bin b = some v) (hkind : v.cfg.kind ≠ .ground) :
    execGrindArm tag b arming s = refusedWith s (.grindArm tag b arming) .wrongState 0 := by
  rw [execGrindArm_judged hlow hhigh ha hv]
  exact serve_refused hroom fun l => by rw [decide_eq_false hkind, checked_fail]

theorem execMillSet_accepted {m : MillSettings} (hroom : s.replyRoom = true) (hsave : s.saving = false) (hm : millOk m = true) :
    execMillSet tag m s = accepted s (.millSet tag m) (fun u => u.setMill { u.mill with settings := m }) (fun _ => []) :=
  serve_plainly hroom fun l => by rw [hm, State.setLink_saving, hsave]; rfl

theorem execMillSet_refused {m : MillSettings} (hroom : s.replyRoom = true) (hm : millOk m = false) :
    execMillSet tag m s = refusedWith s (.millSet tag m) .outOfRange 0 :=
  serve_refused hroom fun l => by rw [hm, checked_fail]

/-- Settles O42: each request passes its checks, and the serving selection that follows finds the mill stopped and kept from
serving. -/
theorem grindAndMillSettings : Obligations.GrindAndMillSettings := by
  refine ⟨fun s tag hroom hstate hblocked => ⟨?_, ?_, ?_, ?_⟩, fun s tag hroom hsave => ⟨?_, fun m => ⟨?_, ?_⟩⟩⟩
  · intro number source destination screen level v w hnumber hnumber' hscreen hscreen' hsource hsource' hdest hdest' hnew hfull
      hv hw hraw houtlet hspeed hground hlevel
    exact execGrindQueue_accepted hroom hstate hblocked
      ⟨hnumber, hnumber', hscreen, hscreen', hsource, hsource', hdest, hdest'⟩ hnew hfull hv hw
      (sourceFit_of_bin hv hraw houtlet hspeed) (destinationFit_of_bin hw hground) hlevel
  · exact fun number r reason hr hheld => execGrindResume_accepted hroom hstate hblocked hr hheld
  · exact fun screen hlow hhigh => execScreenFitted_accepted hroom hstate hblocked hlow hhigh
  · exact fun number r hr hother => execGrindCancel_accepted hroom hr hother
  · exact fun bin arming a v hlow hhigh ha hv => ⟨execGrindArm_accepted hroom hsave hlow hhigh ha hv,
      execGrindArm_refused hroom hlow hhigh ha hv⟩
  · exact execMillSet_accepted hroom hsave
  · exact execMillSet_refused hroom

/-! ### MILL_RESUME and MILL_STOP -/

theorem execMillResume_lineStopped (hroom : s.replyRoom = true) (hstop : s.stopped = true) :
    execMillResume tag s = refusedWith s (.millResume tag) .lineStopped 0 :=
  serve_refused hroom fun l => by rw [State.setLink_stopped, hstop]; rfl

theorem execMillResume_refused (hroom : s.replyRoom = true) (hrun : s.stopped = false) (hrefused : resumeRefused s = true) :
    execMillResume tag s = refusedWith s (.millResume tag) .wrongState 0 :=
  serve_refused hroom fun l => by
    rw [State.setLink_stopped, hrun, show resumeRefused (s.setLink l) = true from hrefused]
    rfl

/-- MILL_RESUME at a mill with an empty grind queue, when it may act and leaves the mill to a serving selection. -/
theorem execMillResume_accepted {f : State → State} (hroom : s.replyRoom = true) (hrun : s.stopped = false)
    (hallowed : resumeRefused s = false) (hresume : ∀ l : Link, resumeMill (s.setLink l) = (f (s.setLink l), [.serving]))
    (hqueue : ∀ l : Link, (f (s.setLink l)).mill.queue = []) :
    execMillResume tag s = accepted s (.millResume tag) f (fun _ => []) := by
  refine serve_idling hroom (fun l => ?_) fun l => serving_empty (hqueue l)
  rw [State.setLink_stopped, hrun, show resumeRefused (s.setLink l) = false from hallowed, hresume]
  rfl

theorem resumeRefused_stopped (h : s.mill.state = .stopped) : resumeRefused s = false := by simp only [resumeRefused, h]

theorem resumeRefused_running (h : s.mill.state = .running) : resumeRefused s = true := by simp only [resumeRefused, h]

theorem resumeRefused_held {reason : MillReason} (h : s.mill.state = .held reason) (hreason : reason ≠ .overload)
    (hmotor : s.asked .millMotor = false) : resumeRefused s = false := by
  simp [resumeRefused, h, hreason, hmotor]

theorem resumeMill_stopped (h : s.mill.state = .stopped) :
    resumeMill s = (s.setMill { s.mill with stopMark := false }, [.serving]) := by
  simp only [resumeMill, State.setMill_mill, h]

theorem resumeMill_held {reason : MillReason} (h : s.mill.state = .held reason) (hmotor : s.asked .millMotor = false)
    (hqueue : s.mill.queue = []) :
    resumeMill s = (s.setMill { s.mill with stopMark := false, state := .stopped, timer := none }, [.serving]) := by
  have hnone : (s.setMill { s.mill with stopMark := false }).currentGrind = none := currentGrind_empty (by exact hqueue)
  have hasked : (s.setMill { s.mill with stopMark := false }).asked .millMotor = false := hmotor
  have hstate : (s.setMill { s.mill with stopMark := false }).mill.state = .held reason := h
  simp only [resumeMill, hstate, hasked, hnone, Option.isSome_none, Bool.false_eq_true, if_false]
  rfl

theorem haltMill_stopped (h : s.mill.state = .stopped) : haltMill s = (s.setMill { s.mill with stopMark := true }, []) := by
  simp only [haltMill, State.setMill_mill, h, State.done]

theorem millReturn_empty (h : s.mill.queue = []) : millReturn s = s.setMill { s.mill with current := none } := by
  simp only [millReturn, currentGrind_empty h]

theorem haltMill_turning (hstate : s.mill.state = .starting ∨ s.mill.state = .idleRun) (hqueue : s.mill.queue = []) :
    haltMill s = ((s.ask .millMotor false).setMill { s.mill with
      stopMark := true, current := none, feedbackFound := false
      state := .stopping, timer := some (.rundown s.mill.settings.rundownTime) }, []) := by
  have hmarked : (s.setMill { s.mill with stopMark := true }).mill.queue = [] := hqueue
  have hturning : (s.setMill { s.mill with stopMark := true }).mill.state = .starting ∨
      (s.setMill { s.mill with stopMark := true }).mill.state = .idleRun := hstate
  rcases hturning with h | h
  all_goals
    simp only [haltMill, h, millReturn_empty hmarked, currentGrind_empty hmarked]
    rfl

theorem execMillStop_accepted {f : State → State} {code : Nat} (hroom : s.replyRoom = true)
    (hhalt : ∀ l : Link, haltMill (s.setLink l) = (f (s.setLink l), []))
    (hcode : ∀ l : Link, millStateCode (f (s.setLink l)).mill.state = code) :
    execMillStop tag s = accepted s (.millStop tag) f (fun _ => [.u8 code]) :=
  serve_accepted hroom fun l => ⟨_, _, rfl, by rw [hhalt, settle_done], by rw [hcode]⟩

/-- Settles O43: with an empty queue nothing is current, and the serving selection finds nothing. -/
theorem millResumeAndStop : Obligations.MillResumeAndStop := by
  intro s tag hroom hqueue
  refine ⟨fun hstop => ?_, fun hrun hstate => ?_, fun reason hrun hstate hreason hmotor => ?_, fun hrun hstate => ?_,
    fun hstate => ?_, fun hstate => ?_⟩
  · exact execMillResume_lineStopped hroom hstop
  · exact execMillResume_accepted hroom hrun (resumeRefused_stopped hstate)
      (fun l => resumeMill_stopped (s := s.setLink l) hstate) fun _ => hqueue
  · exact execMillResume_accepted hroom hrun (resumeRefused_held hstate hreason hmotor)
      (fun l => resumeMill_held (s := s.setLink l) hstate hmotor hqueue) fun _ => hqueue
  · exact execMillResume_refused hroom hrun (resumeRefused_running hstate)
  · exact execMillStop_accepted hroom (fun l => haltMill_turning (s := s.setLink l) hstate hqueue) fun _ => rfl
  · refine execMillStop_accepted hroom (fun l => haltMill_stopped (s := s.setLink l) hstate) fun l => ?_
    rw [State.setMill_mill, State.setLink_mill, hstate]
    rfl

/-! ### The timers and the running feedback -/

theorem transferOf_empty (h : s.arb.transfers = []) (o : Owner) : s.transferOf o = none := by
  rw [State.transferOf, h, List.find?_nil]

/-- A mill without a request and without a transfer is held with its motor off (R129). -/
theorem holdMill_empty (hqueue : s.mill.queue = []) (htransfers : s.arb.transfers = []) (reason : MillReason) :
    holdMill s reason false = (((s.ask .millMotor false).setMill { s.mill with
      engaged := false, u := 0, state := .held reason, timer := none, feedbackFound := false }).raise
        (.millHeld reason (s.mill.current.getD 0)), []) := by
  have hoff : millFeedOff s = s.setMill { s.mill with engaged := false, u := 0 } := by
    simp only [millFeedOff, currentGrind_empty hqueue]
  have hended : endTransfer (s.setMill { s.mill with engaged := false, u := 0 }) .mill =
      (s.setMill { s.mill with engaged := false, u := 0 }, []) := by
    rw [endTransfer, transferOf_empty (by exact htransfers)]
    rfl
  simp only [holdMill, hoff, hended]
  rfl

theorem millFound_warming (h : 0 < s.mill.settings.warmTime) : millFound s =
    (s.setMill { s.mill with feedbackFound := true, timer := some (.warm s.mill.settings.warmTime) }, []) :=
  if_neg h.ne'

theorem warmEnd_empty (h : s.mill.queue = []) : warmEnd s = (s.setMill { s.mill with timer := none }, [.servingOrIdle]) := by
  simp only [warmEnd, currentGrind_empty h, Option.isSome_none, Bool.false_eq_true, if_false]

theorem enterStopping_eq (s : State) : enterStopping s = (s.ask .millMotor false).setMill { s.mill with
    feedbackFound := false, state := .stopping, timer := some (.rundown s.mill.settings.rundownTime) } := rfl

theorem drainEnd_marked (h : s.mill.stopMark = true) : drainEnd s = (enterStopping s, []) := if_pos h

theorem drainEnd_unmarked (h : s.mill.stopMark = false) :
    drainEnd s = (s.setMill { s.mill with timer := none }, [.servingOrIdle]) := if_neg (ne_true_of_eq_false h)

/-- The selection at the end of the drain or warm time of a mill with an empty queue leaves it in IDLE_RUN (R119). -/
theorem outcome_toIdleRun (h : s.mill.queue = []) : outcome (s.setMill { s.mill with timer := none }, [.servingOrIdle]) =
    .next (s.setMill { s.mill with state := .idleRun, timer := some (.idle s.mill.settings.idleTime) }) :=
  (Course.cons (leads_servingOrIdle_empty (s := s.setMill { s.mill with timer := none }) h) (.nil _)).outcome

theorem motorRuns_idleRun (hstate : s.mill.state = .idleRun) (hfound : s.mill.feedbackFound = true) :
    s.mill.motorRuns = true := by
  simp only [Mill.motorRuns, hstate, hfound, Bool.and_self]

theorem millFeedbackLoss_idleRun (hstate : s.mill.state = .idleRun) (hfound : s.mill.feedbackFound = true) :
    millFeedbackLoss s = holdMill s .feedbackLost false := if_pos (motorRuns_idleRun hstate hfound)

section expiry

variable {left : Nat}

theorem millStartExpiry_starting (hstate : s.mill.state = .starting) (htimer : s.mill.timer = some (.start left)) :
    millStartExpiry s = holdMill s .noStart false := by simp only [millStartExpiry, hstate, htimer]

theorem millFoundEvent_starting (hstate : s.mill.state = .starting) (htimer : s.mill.timer = some (.start left)) :
    millFoundEvent s = millFound s := by simp only [millFoundEvent, hstate, htimer]

theorem millWarmExpiry_starting (hstate : s.mill.state = .starting) (htimer : s.mill.timer = some (.warm left)) :
    millWarmExpiry s = warmEnd s := by simp only [millWarmExpiry, hstate, htimer]

theorem millDrainExpiry_draining (hstate : s.mill.state = .draining) (htimer : s.mill.timer = some (.drain left)) :
    millDrainExpiry s = drainEnd s := by simp only [millDrainExpiry, hstate, htimer]

theorem millIdleExpiry_idleRun (hstate : s.mill.state = .idleRun) (htimer : s.mill.timer = some (.idle left)) :
    millIdleExpiry s = (enterStopping s, []) := by simp only [millIdleExpiry, hstate, htimer, State.done]

theorem millRundownExpiry_stopping (hstate : s.mill.state = .stopping) (htimer : s.mill.timer = some (.rundown left)) :
    millRundownExpiry s = enterStopped s := by simp only [millRundownExpiry, hstate, htimer]

end expiry

/-- Settles O44: each event finds the mill in its state, and nothing is current, waits or flows. -/
theorem millTimersAndFeedback : Obligations.MillTimersAndFeedback := by
  intro s left hqueue htransfers
  refine ⟨fun hstate htimer => ?_, fun hstate htimer hwarm => ?_, fun hstate htimer => ?_, fun hstate htimer hmark => ?_,
    fun hstate htimer hmark => ?_, fun hstate htimer => ?_, fun hstate htimer => ?_, fun hstate hfound => ?_⟩
  · show outcome (millStartExpiry s) = _
    rw [millStartExpiry_starting hstate htimer, holdMill_empty hqueue htransfers, outcome_done]
  · show outcome (millFoundEvent (s.takeOffered .millFeedbackFound)) = _
    rw [millFoundEvent_starting (s := s.takeOffered .millFeedbackFound) hstate htimer, millFound_warming (by exact hwarm),
      outcome_done]
    rfl
  · show outcome (millWarmExpiry s) = _
    rw [millWarmExpiry_starting hstate htimer, warmEnd_empty hqueue, outcome_toIdleRun hqueue]
  · show outcome (millDrainExpiry s) = _
    rw [millDrainExpiry_draining hstate htimer, drainEnd_marked hmark, outcome_done, enterStopping_eq]
  · show outcome (millDrainExpiry s) = _
    rw [millDrainExpiry_draining hstate htimer, drainEnd_unmarked hmark, outcome_toIdleRun hqueue]
  · show outcome (millIdleExpiry s) = _
    rw [millIdleExpiry_idleRun hstate htimer, outcome_done, enterStopping_eq]
  · show outcome (millRundownExpiry s) = _
    rw [millRundownExpiry_stopping hstate htimer, enterStopped]
    exact Course.outcome (.cons (.of_inert (serving_empty (by exact hqueue))) (.nil _))
  · show outcome (millFeedbackLoss (s.takeOffered .millFeedbackLost)) = _
    rw [millFeedbackLoss_idleRun (s := s.takeOffered .millFeedbackLost) hstate hfound,
      holdMill_empty (by exact hqueue) (by exact htransfers), outcome_done]
    rfl

/-! ### The loop's speed -/

theorem loopSpeed_bounds {m : MillSettings} (h : m.uMin ≤ m.uMax) (u ePrev e : Int) :
    (m.uMin : Int) ≤ loopSpeed m u ePrev e ∧ loopSpeed m u ePrev e ≤ m.uMax := by
  simp only [loopSpeed, clampInt]
  omega

/-- A speed between the bounds is not clamped (R125). -/
theorem loopSpeed_within {m : MillSettings} {u ePrev e : Int}
    (hlow : (m.uMin : Int) ≤ u + rdiv (m.kp * (e - ePrev) + m.ki * e) 64)
    (hhigh : u + rdiv (m.kp * (e - ePrev) + m.ki * e) 64 ≤ m.uMax) :
    loopSpeed m u ePrev e = u + rdiv (m.kp * (e - ePrev) + m.ki * e) 64 := by
  rw [loopSpeed, clampInt, min_eq_right hhigh, max_eq_right hlow]

theorem speeds_of_millOk {m : MillSettings} (h : millOk m = true) : m.uMin ≤ m.uMax := by
  have hall := of_decide_eq_true h
  omega

/-! ### The feed under other updates -/

theorem askFeeder_setMill (s : State) (m : Mill) (b v : Nat) : (s.setMill m).askFeeder b v = (s.askFeeder b v).setMill m := by
  rw [askFeeder_eq, askFeeder_eq]
  rfl

theorem askFeeder_of_bin {b : Nat} {v : Bin} (hv : s.bin b = some v) (permille : Nat) :
    s.askFeeder b permille = s.setBin b { v with feederAsk := permille } := by
  simp only [State.askFeeder, State.modBin, hv]

theorem State.setBin_bin_other {b c : Nat} (s : State) (v : Bin) (h : b ≠ c) : (s.setBin b v).bin c = s.bin c :=
  Table.get_set_other _ _ h

/-! ### The overload trip and the no-flow watch -/

section trips

variable (hn : s.mill.current = some n) (hr : s.grind n = some r)

include hn hr

theorem outcome_holdMill (hwaiting : s.arb.waiting = []) (reason : MillReason) :
    outcome (holdMill s reason true) = .next (millHeldOn s n r reason) := by
  rw [holdMill_of_current hn hr, if_pos rfl]
  exact outcome_of_settle (settle_ended (millHeldOn_waiting hwaiting n r reason))

theorem noFlow_of_current : noFlow s =
    ((transferEnded (s.askFeeder r.source 0) .mill).setMill { s.mill with engaged := false, u := 0 },
      (endTransfer (millFeedOff s) .mill).2 ++ [.finishNoFlow n]) := by
  simp only [noFlow, currentGrind_of_current hn hr, grind_number hr, endTransfer_fst]
  rw [millFeedOff_of_current hn hr, transferEnded_setMill]

/-- The current request is set aside HELD, and the mill drains (R127). -/
theorem finishNoFlow_of_current (hdrain : 0 < s.mill.settings.drainTime) : finishNoFlow s n =
    ((s.setMill { s.mill with
      current := none
      queue := s.mill.queue.map (fun x => if x.number = n then { r with state := .held .noFlow } else x)
      state := .draining, timer := some (.drain s.mill.settings.drainTime) }).raise (.millHeld .noFlow n), []) := by
  obtain rfl := grind_number hr
  simp only [finishNoFlow, currentGrind_of_current hn hr, if_true]
  exact if_neg hdrain.ne'

theorem outcome_noFlow (hwaiting : s.arb.waiting = []) (hdrain : 0 < s.mill.settings.drainTime) : outcome (noFlow s) =
    .next (((transferEnded (s.askFeeder r.source 0) .mill).setMill { s.mill with
      engaged := false, u := 0, current := none
      queue := s.mill.queue.map (fun x => if x.number = n then { r with state := .held .noFlow } else x)
      state := .draining, timer := some (.drain s.mill.settings.drainTime) }).raise (.millHeld .noFlow n)) := by
  have hidle : (transferEnded (s.askFeeder r.source 0) .mill).arb.waiting = [] :=
    transferEnded_waiting (by rw [askFeeder_arb]; exact hwaiting) .mill
  have hfinish := finishNoFlow_of_current
    (s := (transferEnded (s.askFeeder r.source 0) .mill).setMill { s.mill with engaged := false, u := 0 }) hn hr hdrain
  rw [noFlow_of_current hn hr]
  refine outcome_of_settle (runTasks_ended (fuel := 19998 + 1) hidle ?_)
  rw [runTasks_cons, show handle (.finishNoFlow n) _ = _ from hfinish]
  exact runTasks_nil _ _

end trips

theorem millFeeding_engaged (hstate : s.mill.state = .running) (hengaged : s.mill.engaged = true) : millFeeding s = true := by
  rw [millFeeding, hstate, hengaged]
  rfl

theorem overloadReached_last (hfeed : millFeeding s = true)
    (hlast : intervalsOf s.mill.settings.tripTime 5 ≤ s.mill.overloadCount + 1) :
    overloadReached s = holdMill (s.setMill { s.mill with overloadCount := s.mill.overloadCount + 1 }) .overload true := by
  rw [overloadReached, hfeed, decide_eq_true hlast]
  rfl

theorem noFlowReached_last (hfeed : millFeeding s = true)
    (hlast : intervalsOf s.mill.settings.noFlowTime 5 ≤ s.mill.noFlowCount + 1) :
    noFlowReached s = noFlow (s.setMill { s.mill with noFlowCount := s.mill.noFlowCount + 1 }) := by
  rw [noFlowReached, hfeed, decide_eq_true hlast]
  rfl

/-! ### Postings of an interval -/

section posting

variable {b m : Nat} {v : Bin}

theorem lowMarks_of_rise {before : Nat} (h : before ≤ v.onHand) (cause : LowCause) : lowMarks v b before cause = [] :=
  if_neg (by omega)

theorem highMarks_unclamped (v : Bin) (b before : Nat) : highMarks v b before false =
    if before ≤ v.cfg.highMark ∧ v.cfg.highMark < v.onHand then [.binHigh b .markCrossed] else [] :=
  if_neg Bool.false_ne_true

theorem highMarks_of_fall {before : Nat} (h : v.onHand ≤ before) : highMarks v b before false = [] := by
  rw [highMarks_unclamped, if_neg (by omega)]

/-- The mark events join the occurrences that wait, and nothing else changes (R47). -/
theorem markEvents_eq (hv : s.bin b = some v) (before : Nat) (cause : LowCause) (clamped : Bool) :
    markEvents s b before cause clamped = s.setRouter { s.router with
      waiting := s.router.waiting ++ lowMarks v b before cause ++ highMarks v b before clamped } := by
  simp only [markEvents, hv, lowMarks, highMarks]
  split_ifs <;> simp [State.raise, State.setRouter]

/-- A draw within the on-hand of a bin without lots and reservations (R41). -/
theorem draw_unreserved (hv : s.bin b = some v) (hres : ∀ q ∈ s.inv.reservations, q.bin ≠ b) (hm : m ≤ v.onHand)
    (hlots : v.lots = []) : (draw s b m none).result =
      ((s.setBin b { v with onHand := v.onHand - m }).setRouter { s.router with
        waiting := s.router.waiting ++ lowMarks { v with onHand := v.onHand - m } b v.onHand .drawOrCount }, [.posted b]) := by
  have huncharged : chargeReservation s.inv.reservations none b m = s.inv.reservations := by simp [chargeReservation]
  have hdrawn : { v with onHand := v.onHand - min m v.onHand, lots := (takeLots (min m v.onHand) v.lots).1 } =
      { v with onHand := v.onHand - m } := by
    rw [hlots, min_eq_left hm, takeLots, ← hlots]
  simp only [draw, hv, huncharged]
  rw [hdrawn, finishPosting_unreserved (State.setBin_bin _ _ _) (by exact hres), markEvents_eq (State.setBin_bin _ _ _),
    highMarks_of_fall (Nat.sub_le _ _), List.append_nil]
  rfl

/-- A fill within the room of a bin without reservations (R40). -/
theorem fill_unreserved (hv : s.bin b = some v) (hres : ∀ q ∈ s.inv.reservations, q.bin ≠ b) (hpos : 0 < m)
    (hm : v.onHand + m ≤ v.cfg.capacity) : (fill s b m []).result =
      ((s.setBin b { v with onHand := v.onHand + m }).setRouter { s.router with
        waiting := s.router.waiting ++ highMarks { v with onHand := v.onHand + m } b v.onHand false }, [.posted b]) := by
  have hfilled : receivedBin v m = { v with onHand := v.onHand + m } := by rw [receivedBin, min_eq_left hm]
  rw [fill_of_receipt hv hpos (by omega), hfilled, decide_eq_false (Nat.not_lt.2 hm)]
  simp only
  rw [finishPosting_unreserved (State.setBin_bin _ _ _) (by exact hres), markEvents_eq (State.setBin_bin _ _ _),
    lowMarks_of_rise (Nat.le_add_right _ _), List.append_nil]
  rfl

theorem millJudgePosting_below (hcurrent : s.currentGrind = some r) (h : r.destination = b → atLevel s r = false) :
    millJudgePosting s b = (s, []) := by
  simp only [millJudgePosting, hcurrent]
  exact if_neg fun hdone => ne_true_of_eq_false (h hdone.1) hdone.2

/-- A posting that completes no grind, at a bin on which no press feeds, with no batch in the mixer (R39). -/
theorem leads_posted_unjudged (hjudge : millJudgePosting s b = (s, [])) (hpress : ∀ p, (s.pressAt p).cfg.surgeBin ≠ b)
    (hmixer : s.mixerBatch = none) : Leads (.posted b) s s := by
  refine ⟨[.roomCheckAt b], ?_, Nat.le_of_ble_eq_true rfl, fun t ht => ?_⟩
  · simp only [handle, hjudge, List.filter_cons, List.filter_nil, decide_eq_false (hpress _), Bool.false_eq_true, if_false,
      List.map_nil, List.nil_append]
  · rw [List.mem_singleton.1 ht]
    exact roomCheckAt_no_mixer hmixer b

end posting

/-! ### The loop interval -/

theorem loopInterval_engages (hn : s.mill.current = some n) (hr : s.grind n = some r) (hstate : s.mill.state = .running)
    (hflow : s.flowing .mill = true) (hfirst : s.mill.engaged = false) : loopInterval s =
      ((s.askFeeder r.source s.mill.settings.uStart).setMill { s.mill with
        engaged := true, u := s.mill.settings.uStart, ePrev := 0, overloadCount := 0, noFlowCount := 0 }, []) := by
  simp only [loopInterval, currentGrind_of_current hn hr]
  rw [if_pos ⟨hstate, hflow⟩, if_neg (ne_true_of_eq_false hfirst)]
  rfl

/-- A request with the mass of an interval counted (R124). -/
def grindCounted (r : GrindRequest) (m : Nat) : GrindRequest := { r with ground := min (r.ground + m) 4294967295 }

theorem grind_counted (hr : s.grind n = some r) (m : Nat) :
    (s.putGrind (grindCounted r m)).grind n = some (grindCounted r m) := by
  have hnumber : r.number = n := grind_number hr
  exact putGrind_grind (q := grindCounted r m) hr hnumber

/-- The mill after the postings of an interval: `m` grams drawn from the source, whose record was `v`, and delivered to the
destination, whose record was `w` (R124). -/
def millFed (s : State) (r : GrindRequest) (v w : Bin) (m : Nat) : State :=
  (((s.putGrind (grindCounted r m)).setBin r.source { v with onHand := v.onHand - m }).setBin r.destination
    { w with onHand := w.onHand + m }).setRouter { s.router with
      waiting := s.router.waiting ++ lowMarks { v with onHand := v.onHand - m } r.source v.onHand .drawOrCount ++
        highMarks { w with onHand := w.onHand + m } r.destination w.onHand false }

/-- The load loop's new speed, driven at the feeder of bin `b`; nothing trips (R125). -/
def millSteered (s : State) (b : Nat) (e : Int) : State :=
  (s.askFeeder b (loopSpeed s.mill.settings s.mill.u s.mill.ePrev e).toNat).setMill { s.mill with
    u := loopSpeed s.mill.settings s.mill.u s.mill.ePrev e, ePrev := e, overloadCount := 0, noFlowCount := 0 }

theorem intervalsOf_pos (time interval : Nat) : 0 < intervalsOf time interval :=
  Nat.lt_of_lt_of_le Nat.one_pos (Nat.le_max_left _ _)

/-- The watch of an engaged interval whose motor current neither trips nor shows an empty mill (R124 to R127). -/
theorem millWatch_steers {i : Int} (hcurrent : s.currentGrind = some r) (hstate : s.mill.state = .running)
    (hengaged : s.mill.engaged = true) (hi : (s.readAnalog 0).1 = i) (htrip : i ≤ s.mill.settings.iTrip)
    (hload : s.mill.settings.iNoload ≤ i) : millWatch s = (millSteered s r.source (s.mill.settings.isp - i), []) := by
  have hflow : ¬(loopSpeed s.mill.settings s.mill.u s.mill.ePrev (s.mill.settings.isp - i) = s.mill.settings.uMax ∧
      i < s.mill.settings.iNoload) := fun h => absurd h.2 (not_lt.2 hload)
  simp only [millWatch, hcurrent, hi]
  rw [if_pos ⟨hstate, hengaged⟩, if_neg (not_lt.2 htrip), if_neg (Nat.not_le.2 (intervalsOf_pos _ _)), if_neg hflow,
    if_neg (Nat.not_le.2 (intervalsOf_pos _ _)), askFeeder_setMill]
  rfl

/-- An engaged interval of a mill that feeds `m` grams between two bins without reservations, below the request's level (R124). -/
structure FeedInterval (s : State) (n : Nat) (r : GrindRequest) (v w : Bin) (m : Nat) : Prop where
  current : s.mill.current = some n
  grind : s.grind n = some r
  running : s.mill.state = .running
  engaged : s.mill.engaged = true
  flowing : s.flowing .mill = true
  source : s.bin r.source = some v
  destination : s.bin r.destination = some w
  distinct : r.source ≠ r.destination
  lots : v.lots = []
  estimate : m = millEstimate v.cfg.fullRate s.mill.u
  pos : 0 < m
  stock : m ≤ v.onHand
  room : w.onHand + m ≤ w.cfg.capacity
  below : w.onHand + m < if r.level = 0 then w.cfg.highMark else r.level
  reservations : ∀ q ∈ s.inv.reservations, q.bin ≠ r.source ∧ q.bin ≠ r.destination
  presses : ∀ p, (s.pressAt p).cfg.surgeBin ≠ r.source ∧ (s.pressAt p).cfg.surgeBin ≠ r.destination
  mixer : s.mixerBatch = none

namespace FeedInterval

variable {v w : Bin} {m : Nat} (h : FeedInterval s n r v w m)

include h

theorem loopInterval_feeds : loopInterval s = (millFed s r v w m, [.posted r.source, .posted r.destination, .millWatch]) := by
  have hrate : millEstimate (((s.bin r.source).map (·.cfg.fullRate)).getD 0) s.mill.u = m := by
    rw [h.source, Option.map_some, Option.getD_some, ← h.estimate]
  have hdraw := draw_unreserved (s := s.putGrind (grindCounted r m)) h.source (fun q hq => (h.reservations q hq).1) h.stock h.lots
  have hfill := fill_unreserved (m := m) (s := (draw (s.putGrind (grindCounted r m)) r.source m none).result.1)
    (b := r.destination) (v := w) (by rw [hdraw]; exact (State.setBin_bin_other _ _ h.distinct).trans h.destination)
    (by rw [hdraw]; exact fun q hq => (h.reservations q hq).2) h.pos h.room
  simp only [loopInterval, currentGrind_of_current h.current h.grind, hrate]
  rw [if_pos ⟨h.running, h.flowing⟩, if_pos h.engaged, if_neg h.pos.ne',
    show s.putGrind { r with ground := satAdd max32 r.ground m } = s.putGrind (grindCounted r m) from rfl, hfill, hdraw]
  rfl

theorem currentGrind_fed : (millFed s r v w m).currentGrind = some (grindCounted r m) :=
  currentGrind_of_current (s := millFed s r v w m) h.current (grind_counted h.grind m)

theorem source_fed : (millFed s r v w m).bin r.source = some { v with onHand := v.onHand - m } :=
  (State.setBin_bin_other _ _ h.distinct.symm).trans (State.setBin_bin _ _ _)

theorem course {i : Int} (hi : (s.readAnalog 0).1 = i) (htrip : i ≤ s.mill.settings.iTrip)
    (hload : s.mill.settings.iNoload ≤ i) : Course [.posted r.source, .posted r.destination, .millWatch] (millFed s r v w m)
      (millSteered (millFed s r v w m) r.source (s.mill.settings.isp - i)) := by
  have hlevel : atLevel (millFed s r v w m) (grindCounted r m) = false := by
    have hbin : (millFed s r v w m).bin r.destination = some { w with onHand := w.onHand + m } := State.setBin_bin _ _ _
    unfold atLevel
    rw [show (grindCounted r m).destination = r.destination from rfl, hbin]
    exact decide_eq_false (Nat.not_le.2 h.below)
  refine .cons (leads_posted_unjudged ?_ (fun p => (h.presses p).1) h.mixer)
    (.cons (leads_posted_unjudged ?_ (fun p => (h.presses p).2) h.mixer) (.cons (.of_eq ?_) (.nil _)))
  · exact millJudgePosting_below h.currentGrind_fed fun hsame => absurd hsame.symm h.distinct
  · exact millJudgePosting_below h.currentGrind_fed fun _ => hlevel
  · exact millWatch_steers (s := millFed s r v w m) (r := grindCounted r m) h.currentGrind_fed h.running h.engaged hi htrip hload

theorem source_steered (e : Int) : (millSteered (millFed s r v w m) r.source e).bin r.source = some { v with
    onHand := v.onHand - m, feederAsk := (loopSpeed s.mill.settings s.mill.u s.mill.ePrev e).toNat } := by
  rw [millSteered, askFeeder_of_bin h.source_fed]
  exact State.setBin_bin _ _ _

theorem destination_steered (e : Int) : (millSteered (millFed s r v w m) r.source e).bin r.destination =
    some { w with onHand := w.onHand + m } := by
  rw [millSteered, askFeeder_of_bin h.source_fed]
  exact (State.setBin_bin_other _ _ h.distinct).trans (State.setBin_bin _ _ _)

theorem grind_steered (e : Int) : (millSteered (millFed s r v w m) r.source e).grind n = some (grindCounted r m) :=
  grind_counted h.grind m

theorem waiting_steered (e : Int) : (millSteered (millFed s r v w m) r.source e).router.waiting = s.router.waiting ++
    lowMarks { v with onHand := v.onHand - m } r.source v.onHand .drawOrCount ++
      highMarks { w with onHand := w.onHand + m } r.destination w.onHand false := by
  rw [millSteered, askFeeder_of_bin h.source_fed]
  rfl

/-- An interval changes the bins, the mill and the router. -/
theorem frame_steered (e : Int) : ∃ bins mill router, millSteered (millFed s r v w m) r.source e =
    ((s.setInv { s.inv with bins := bins }).setMill mill).setRouter router := by
  rw [millSteered, askFeeder_of_bin h.source_fed]
  exact ⟨_, _, _, rfl⟩

end FeedInterval

/-- Settles O45: an interval engages the loop or feeds (`FeedInterval`), the trips end the mill's transfer, and the loop's speed is
clamped. -/
theorem millLoop : Obligations.MillLoop := by
  refine ⟨fun s r n hn hr hstate => ⟨fun position hfirst hflow => ?_, fun hengaged hwaiting hlast => ?_,
    fun hengaged hwaiting hdrain hlast => ?_, ?_⟩, fun m u ePrev e hm => ?_⟩
  · show outcome (loopInterval (s.setAnalogPin 0 position)) = _
    rw [loopInterval_engages (s := s.setAnalogPin 0 position) hn hr hstate hflow hfirst]
    rfl
  · show outcome (overloadReached s) = _
    have htrip := outcome_holdMill (s := s.setMill { s.mill with overloadCount := s.mill.overloadCount + 1 }) hn hr hwaiting
      .overload
    rw [overloadReached_last (millFeeding_engaged hstate hengaged) hlast, htrip, millHeldOn, askFeeder_setMill,
      transferEnded_setMill]
    rfl
  · show outcome (noFlowReached s) = _
    have hempty := outcome_noFlow (s := s.setMill { s.mill with noFlowCount := s.mill.noFlowCount + 1 }) hn hr hwaiting hdrain
    rw [noFlowReached_last (millFeeding_engaged hstate hengaged) hlast, hempty, askFeeder_setMill, transferEnded_setMill]
    rfl
  · rintro position i e m v w hengaged hflow hv hw hdistinct - - hlots hm hpos hstock hroom hbelow hres hpress hmixer hi htrip
      hload rfl
    have h : FeedInterval (s.setAnalogPin 0 position) n r v w m :=
      ⟨hn, hr, hstate, hengaged, hflow, hv, hw, hdistinct, hlots, hm, hpos, hstock, hroom, hbelow, hres, hpress, hmixer⟩
    refine ⟨_, ?_, h.source_steered _, h.destination_steered _, h.grind_steered _, rfl,
      ⟨_, _, h.waiting_steered _, rfl, highMarks_unclamped _ _ _⟩, ?_⟩
    · show outcome (loopInterval (s.setAnalogPin 0 position)) = _
      rw [h.loopInterval_feeds]
      exact (h.course hi.symm htrip hload).outcome
    · obtain ⟨bins, mill, router, hframe⟩ := h.frame_steered (s.mill.settings.isp - i)
      rw [hframe]
      exact ⟨rfl, rfl, rfl, rfl, rfl, rfl, rfl, rfl, rfl, rfl⟩
  · obtain ⟨hlow, hhigh⟩ := loopSpeed_bounds (speeds_of_millOk hm) u ePrev e
    exact ⟨hlow, hhigh, loopSpeed_within⟩

end

end Sys2Proof.Machine

/-! PROOFS. The presses: their tables, queues and trims (R134 to R139, R157). -/

namespace Sys2Proof.Machine

section

variable {s : State} {tag : Byte} {press n : Nat} {p : PressId}

/-! ### A press under updates -/

@[simp] theorem State.setPress_pressAt (s : State) (p : PressId) (x : Press) : (s.setPress p x).pressAt p = x := by
  cases p <;> rfl

@[simp] theorem State.setPress_setPress (s : State) (p : PressId) (x y : Press) :
    (s.setPress p x).setPress p y = s.setPress p y := by
  cases p <;> rfl

/-! ### PROFILE_SET and PRESS_SET -/

theorem profileOf_feedRate {f : ProfileFields} {e : Profile} (h : profileOf f = some e) : f.feedRate ≠ 0 := by
  intro hzero
  simp [profileOf, hzero] at h
  split at h <;> cases h

theorem execProfileSet_accepted {f : ProfileFields} {e : Profile} (hroom : s.replyRoom = true) (hsave : s.saving = false)
    (hlow : 1 ≤ n) (hhigh : n ≤ 16) (hf : profileOf f = some e) : execProfileSet tag n f s = accepted s (.profileSet tag n f)
      (fun u => u.setPresses { u.press with profiles := Table.set u.press.profiles n e }) (fun _ => []) := by
  have hnumber : profileNumber n = true := decide_eq_true ⟨hlow, hhigh⟩
  refine serve_plainly hroom fun l => ?_
  rw [if_neg (profileOf_feedRate hf), State.setLink_saving, hsave, hnumber]
  simp only [hf]
  rfl

theorem execPressSet_accepted {f : PressFields} {cfg : PressConfig} (hroom : s.replyRoom = true) (hp : pressOf press = some p)
    (hsave : s.saving = false) (hidle : (s.pressAt p).state = .idle) (hcfg : pressConfigOf p f = some cfg)
    (hsurge : cfg.surgeBin = 0 ∨ ∃ v, s.bin cfg.surgeBin = some v ∧ surgeSuits v p = true) :
    execPressSet tag press f s = accepted s (.pressSet tag press f) (fun u => u.setPress p { u.pressAt p with cfg := cfg })
      (fun _ => []) := by
  refine serve_plainly hroom fun l => ?_
  simp only [withPress_of_pressOf _ hp, hcfg, State.setLink_saving, hsave, State.setLink_pressAt, hidle, decide_true,
    State.setLink_bin, State.modPress]
  rcases hsurge with hnone | ⟨v, hv, hsuits⟩
  · simp only [hnone, decide_true, Bool.true_or]
    rfl
  · simp only [hv, Option.isSome_some, Option.map_some, Option.getD_some, hsuits, Bool.or_true]
    rfl

theorem execPressSet_refused {f : PressFields} {cfg : PressConfig} (hroom : s.replyRoom = true) (hp : pressOf press = some p)
    (hsave : s.saving = false) (hbusy : (s.pressAt p).state ≠ .idle) (hcfg : pressConfigOf p f = some cfg) :
    execPressSet tag press f s = refusedWith s (.pressSet tag press f) .wrongState 0 := by
  refine serve_refused hroom fun l => ?_
  simp only [withPress_of_pressOf _ hp, hcfg, State.setLink_saving, hsave, State.setLink_pressAt, hbusy, decide_false]
  rfl

/-! ### The run queue -/

theorem execRunQueue_accepted {r : RunFields} {v : Bin} (hroom : s.replyRoom = true) (hp : pressOf press = some p)
    (hrange : runInRange r = true) (hnew : runKnown s r.number = false) (hplace : (s.pressAt p).queue.length < Config.runCap)
    (hprofile : (Table.get s.press.profiles r.profile).isSome = true) (hv : s.bin r.destination = some v)
    (hkind : v.cfg.kind = .finished) (hcode : v.cfg.code = r.product)
    (hflush : r.flushMass = 0 ∨ s.reworkBin.isSome = true) : execRunQueue tag press r s = accepted s (.runQueue tag press r)
      (fun u => u.setPress p { u.pressAt p with queue := (u.pressAt p).queue ++ [runOf r (s.pressAt p).queue.isEmpty] })
      (fun _ => [.u8 ((s.pressAt p).queue.length + 1)]) := by
  have hflush_passes : (decide (r.flushMass = 0) || s.reworkBin.isSome) = true := by
    rwa [Bool.or_eq_true, decide_eq_true_eq]
  have hnew_link (l : Link) : runKnown (s.setLink l) r.number = false := hnew
  refine serve_plainly hroom fun l => ?_
  simp only [withPress_of_pressOf _ hp, hrange, hnew_link, State.setLink_pressAt, hplace, State.setLink_press,
    hprofile, State.setLink_bin, hv, Option.isSome_some, Option.map_some, hkind, hcode, decide_true, State.setLink_reworkBin,
    hflush_passes]
  rfl

theorem cancelRun_head (r : Run) (rest : List Run) : cancelRun (r :: rest) r.number = loadHead rest := if_pos rfl

theorem execRunCancel_head {r : Run} {rest : List Run} (hroom : s.replyRoom = true) (hp : pressOf press = some p)
    (hqueue : (s.pressAt p).queue = r :: rest) : execRunCancel tag press r.number s = accepted s (.runCancel tag press r.number)
      (fun u => u.setPress p { u.pressAt p with queue := loadHead rest }) (fun _ => []) := by
  refine serve_plainly hroom fun l => ?_
  simp only [withPress_of_pressOf _ hp, State.setLink_pressAt, hqueue, State.modPress, List.any_cons, decide_true, Bool.true_or,
    if_true, cancelRun_head]

/-! ### PRESS_TRIM -/

theorem execPressTrim_accepted {a : ActiveRun} {rate temp : Int} (hroom : s.replyRoom = true) (hp : pressOf press = some p)
    (ha : (s.pressAt p).active = some a) : execPressTrim tag press rate temp s = accepted s (.pressTrim tag press rate temp)
      (fun u => writeSteam (u.setPress p { u.pressAt p with active := some (trimmed a rate temp) }) p (trimmed a rate temp))
      (fun _ => [.i16 (trimmed a rate temp).rateTrim, .i16 (trimmed a rate temp).tempTrim,
        .u8 (flagCode (decide ((trimmed a rate temp).rateTrim ≠ rate))),
        .u8 (flagCode (decide ((trimmed a rate temp).tempTrim ≠ temp))), .u32 (trimmed a rate temp).trimmedRate]) := by
  refine serve_plainly hroom fun l => ?_
  simp only [withPress_of_pressOf _ hp, State.setLink_pressAt, ha, State.modPress]

theorem execPressTrim_refused {rate temp : Int} (hroom : s.replyRoom = true) (hp : pressOf press = some p)
    (ha : (s.pressAt p).active = none) :
    execPressTrim tag press rate temp s = refusedWith s (.pressTrim tag press rate temp) .wrongState 0 := by
  refine serve_refused hroom fun l => ?_
  simp only [withPress_of_pressOf _ hp, State.setLink_pressAt, ha]

/-- Settles O46: each request passes its checks, or fails the one that its clause names. -/
theorem pressTables : Obligations.PressTables := by
  intro s tag press p hroom hp
  refine ⟨?_, ?_, ?_, ?_, ?_, ?_, ?_⟩
  · exact fun n f e hsave hlow hhigh hf => execProfileSet_accepted hroom hsave hlow hhigh hf
  · intro f cfg hsave hidle hcfg hsurge
    refine execPressSet_accepted hroom hp hsave hidle hcfg (hsurge.imp_right ?_)
    rintro ⟨v, hv, hkind, houtlet, hspeed⟩
    exact ⟨v, hv, by rw [surgeSuits, decide_eq_true ⟨hkind, houtlet⟩, hspeed, Bool.and_self]⟩
  · exact fun f cfg hsave hbusy hcfg => execPressSet_refused hroom hp hsave hbusy hcfg
  · intro r v hrange hnew hplace hprofile hv hkind hcode hflush
    have hqueued := execRunQueue_accepted (tag := tag) hroom hp hrange hnew hplace hprofile hv hkind hcode hflush
    simp only [runOf, List.isEmpty_iff] at hqueued
    exact hqueued
  · intro r rest hqueue
    have hcancelled := execRunCancel_head (tag := tag) hroom hp hqueue
    cases rest <;> exact hcancelled
  · exact fun a rate temp ha => ⟨trimmed a rate temp, rfl, execPressTrim_accepted hroom hp ha⟩
  · exact fun rate temp ha => execPressTrim_refused hroom hp ha

end

end Sys2Proof.Machine

/-! PROOFS. PRESS_START: the head run becomes active and the press starts (R134, R137, R141 to R143, R153). -/

namespace Sys2Proof.Machine

section

variable {s : State} {tag : Byte} {press : Nat} {p : PressId} {r : Run}

/-! ### Output requests -/

@[simp] theorem State.ask_asked (s : State) (o : Role) (on : Bool) : (s.ask o on).asked o = on := by
  rw [State.asked, State.ask, State.setIO_io, Table.getD_put, if_pos rfl]

theorem State.setAnalogOut_analogOut (s : State) (n v : Nat) : Table.getD 0 (s.setAnalogOut n v).io.analogOut n = v := by
  rw [State.setAnalogOut, State.setIO_io, Table.getD_put, if_pos rfl]

/-! ### The head run becomes active -/

/-- A fit run has its surge bin, its profile and its destination (R142). -/
theorem runRefusal_none (h : runRefusal s p r = none) : ∃ v e d, s.bin (s.pressAt p).cfg.surgeBin = some v ∧
    Table.get s.press.profiles r.profile = some e ∧ s.bin r.destination = some d ∧ v.cfg.kind = .surge ∧
      d.cfg.kind = .finished := by
  unfold runRefusal at h
  split at h
  · next v e d hv he hd =>
    split_ifs at h with hunfit
    simp only [not_or, ne_eq, not_not] at hunfit
    exact ⟨v, e, d, hv, he, hd, hunfit.1, hunfit.2.2.2.2⟩
  · cases h

/-- A head run without copies and without a successor becomes the active run, its steam setpoint written (R153). -/
theorem activateHead_single (hqueue : (s.pressAt p).queue = [r]) (hcopies : r.copies = false) : activateHead s p =
    (s.setPress p { s.pressAt p with queue := [], active := some (newActive s r false) }).setAnalogOut (steamOutput p)
      (steamValue (newActive s r false).temperature) := by
  simp only [activateHead, hqueue, hcopies, Bool.false_and, Bool.false_eq_true, if_false, State.modPress, loadHead]
  rfl

theorem newActive_phase (s : State) (dropped : Bool) (hflush : r.flushMass = 0) : (newActive s r dropped).phase = .deliver := by
  simp [newActive, hflush]

theorem newActive_temperature (s : State) (r : Run) (dropped : Bool) :
    (newActive s r dropped).temperature = (newActive s r dropped).profile.temperature := Int.add_zero _

theorem newActive_profile {e : Profile} (dropped : Bool) (he : Table.get s.press.profiles r.profile = some e) :
    (newActive s r dropped).profile = e := by
  show (Table.get s.press.profiles r.profile).getD _ = e
  rw [he, Option.getD_some]

/-! ### PRESS_START -/

/-- A press with a running input waits for its feedback in STARTING (R141). -/
theorem pressStarting_of_input (hinput : (s.inputWith (pressRunning p)).isSome = true) : pressStarting s p =
    ((s.ask (pressMotor p) true).setPress p { s.pressAt p with
      state := .starting, engaged := false, feedbackFound := false, timer := some (.start (s.pressAt p).cfg.startTime) }, []) :=
  if_neg (by rw [Option.isNone_iff_eq_none]; exact Option.isSome_iff_ne_none.1 hinput)

/-- A press that starts with the run `r` of its queue (R142). -/
def pressStarted (s : State) (p : PressId) (r : Run) : State :=
  ((((s.setAnalogOut (steamOutput p) (steamValue (newActive s r false).temperature)).ask (pressMotor p) true).setPress p
    { s.pressAt p with
      queue := [], active := some (newActive s r false)
      state := .starting, engaged := false, feedbackFound := false, timer := some (.start (s.pressAt p).cfg.startTime) }).raise
        (.pressChangeover p 0 r.number))

theorem startPress_single (hqueue : (s.pressAt p).queue = [r]) (hcopies : r.copies = false)
    (hinput : (s.inputWith (pressRunning p)).isSome = true) : startPress s p r = (pressStarted s p r, []) := by
  rw [startPress, activateHead_single hqueue hcopies, pressStarting_of_input (by exact hinput)]
  cases p <;> rfl

theorem execPressStart_lineStopped (hroom : s.replyRoom = true) (hp : pressOf press = some p) (hstop : s.stopped = true) :
    execPressStart tag press s = refusedWith s (.pressStart tag press) .lineStopped 0 :=
  serve_refused hroom fun l => by
    simp only [withPress_of_pressOf _ hp, State.setLink_stopped, hstop]
    rfl

theorem execPressStart_single (htakes : s.takes (.pressStart tag press) = true) (hp : pressOf press = some p)
    (hrun : s.stopped = false) (hidle : (s.pressAt p).state = .idle) (hqueue : (s.pressAt p).queue = [r])
    (hfit : runRefusal s p r = none) (hcopies : r.copies = false) (hinput : (s.inputWith (pressRunning p)).isSome = true) :
    execPressStart tag press s =
      .next (answer (pressStarted (dropFrame s) p r) (replyTo (.pressStart tag press) .ok 0 [])) := by
  have hqueue_taken : ((dropFrame s).pressAt p).queue = [r] := hqueue
  have hfit_taken : runRefusal (dropFrame s) p r = none := hfit
  have hrun_taken : (dropFrame s).stopped = false := hrun
  have hidle_taken : ((dropFrame s).pressAt p).state = .idle := hidle
  have hstarts := startPress_single (s := dropFrame s) hqueue hcopies hinput
  refine serve_accept (items := fun _ => []) (r := startPress (dropFrame s) p r) htakes ?_ (by rw [hstarts, settle_done])
  simp only [withPress_of_pressOf _ hp, hqueue_taken, hfit_taken, hrun_taken, hidle_taken, decide_true]
  rfl

/-- Settles O47: the head run becomes active, and the press waits for its running feedback. -/
theorem pressStartActivatesTheHead : Obligations.PressStartActivatesTheHead := by
  intro s tag press p r rest hroom hp hqueue hidle
  refine ⟨fun hstop => execPressStart_lineStopped hroom hp hstop, fun hrun hfit hinput hcopies hrest hflush hturn => ?_⟩
  subst hrest
  obtain ⟨v, e, d, -, he, -⟩ := runRefusal_none hfit
  refine ⟨_, execPressStart_single (by rw [takes_eq hroom, hturn]) hp hrun hidle hqueue hfit hcopies hinput, ?_⟩
  have hpress : (answer (pressStarted (dropFrame s) p r) (replyTo (.pressStart tag press) .ok 0 [])).pressAt p =
      { s.pressAt p with
        queue := [], active := some (newActive s r false), state := .starting, engaged := false, feedbackFound := false
        timer := some (.start (s.pressAt p).cfg.startTime) } := by cases p <;> rfl
  rw [hpress]
  refine ⟨rfl, rfl, rfl, ?_,
    ⟨newActive s r false, rfl, rfl, rfl, rfl, ?_, rfl, rfl, rfl, newActive_phase s false hflush, rfl, ?_⟩,
    rfl, rfl, rfl, rfl, rfl, rfl, rfl, rfl, rfl⟩
  · exact State.ask_asked _ _ _
  · rw [newActive_profile false he, he]
  · rw [← newActive_temperature]
    exact State.setAnalogOut_analogOut _ _ _

end

end Sys2Proof.Machine

/-! PROOFS. A press's button, timers, running feedback and watches: its holds, its starving out and its choke, each of which ends
its transfer (R141, R146, R147, R149 to R151, R154, R156). -/

namespace Sys2Proof.Machine

section

variable {s : State} {press : Nat} {p : PressId} {left : Tenths}

/-! ### Updates that do not touch the presses -/

theorem askFeeder_setPress (s : State) (p : PressId) (x : Press) (b v : Nat) :
    (s.setPress p x).askFeeder b v = (s.askFeeder b v).setPress p x := by
  rw [askFeeder_eq, askFeeder_eq]
  rfl

theorem transferEnded_raise (s : State) (e : Event) (o : Owner) : transferEnded (s.raise e) o = (transferEnded s o).raise e := by
  rw [transferEnded_eq, transferEnded_eq]
  rfl

theorem atPress_of_pressOf (f : PressId → Result) (hp : pressOf press = some p) : atPress press s f = outcome (f p) := by
  rw [atPress, hp]

/-! ### The feed off and the transfer ended -/

/-- The plant after a press's feeder has been asked off and its transfer has ended. -/
def pressFeedEnded (s : State) (p : PressId) : State :=
  transferEnded (s.askFeeder (s.pressAt p).cfg.surgeBin 0) (pressOwner p)

theorem pressFeedEnded_waiting (h : s.arb.waiting = []) (p : PressId) : (pressFeedEnded s p).arb.waiting = [] :=
  transferEnded_waiting (by rw [askFeeder_arb]; exact h) _

theorem endTransfer_feedOff (s : State) (p : PressId) : (endTransfer (pressFeedOff s p) (pressOwner p)).1 =
    (pressFeedEnded s p).setPress p { s.pressAt p with engaged := false } := by
  rw [endTransfer_fst, pressFeedOff_eq, transferEnded_setPress]
  rfl

/-- Another form of the press, with the same surge bin, before the feed goes off. -/
theorem pressFeedEnded_setPress {x : Press} (h : x.cfg = (s.pressAt p).cfg) :
    pressFeedEnded (s.setPress p x) p = (pressFeedEnded s p).setPress p x := by
  rw [pressFeedEnded, State.setPress_pressAt, h, askFeeder_setPress, transferEnded_setPress]
  rfl

/-- A press without its run, whose report it keeps (R140). -/
def Press.runOver (x : Press) (a : ActiveRun) (reason : RunEnd) : Press :=
  { x with active := none, report := some ⟨a.number, reason, a.drawn, a.delivered, a.flushed, a.ignored, a.tally⟩ }

theorem endRun_of_active {a : ActiveRun} (ha : (s.pressAt p).active = some a) (reason : RunEnd) : endRun s p reason =
    (s.setPress p ((s.pressAt p).runOver a reason)).raise (.pressRunEnd p a.number reason) := by
  simp only [endRun, ha]
  rfl

/-- A press that is held, its motor left as it is (R154). -/
def pressHeldTurning (s : State) (p : PressId) (reason : PressReason) (cause : PressCause) : State :=
  ((pressFeedEnded s p).setPress p { s.pressAt p with
    engaged := false, state := .held reason cause, timer := none }).raise
      (.pressHeld p reason cause (((s.pressAt p).active.map (·.number)).getD 0))

/-- A press that is held, its motor off (R154). -/
def pressHeldStill (s : State) (p : PressId) (reason : PressReason) (cause : PressCause) : State :=
  (((pressFeedEnded s p).ask (pressMotor p) false).setPress p { s.pressAt p with
    engaged := false, feedbackFound := false, state := .held reason cause, timer := none }).raise
      (.pressHeld p reason cause (((s.pressAt p).active.map (·.number)).getD 0))

theorem holdPress_turning (s : State) (p : PressId) (reason : PressReason) (cause : PressCause) :
    holdPress s p reason cause true =
      (pressHeldTurning s p reason cause, (endTransfer (pressFeedOff s p) (pressOwner p)).2) := by
  simp only [holdPress, endTransfer_feedOff, if_true]
  cases p <;> rfl

theorem holdPress_still (s : State) (p : PressId) (reason : PressReason) (cause : PressCause) :
    holdPress s p reason cause false =
      (pressHeldStill s p reason cause, (endTransfer (pressFeedOff s p) (pressOwner p)).2) := by
  simp only [holdPress, endTransfer_feedOff, Bool.false_eq_true, if_false]
  cases p <;> rfl

section holds

variable (hwaiting : s.arb.waiting = [])

include hwaiting

theorem outcome_holdPress_turning (p : PressId) (reason : PressReason) (cause : PressCause) :
    outcome (holdPress s p reason cause true) = .next (pressHeldTurning s p reason cause) := by
  rw [holdPress_turning]
  exact outcome_of_settle (settle_ended (pressFeedEnded_waiting hwaiting p))

theorem outcome_holdPress_still (p : PressId) (reason : PressReason) (cause : PressCause) :
    outcome (holdPress s p reason cause false) = .next (pressHeldStill s p reason cause) := by
  rw [holdPress_still]
  exact outcome_of_settle (settle_ended (pressFeedEnded_waiting hwaiting p))

/-! ### Starving out and choking -/

/-- The starve timer's expiry ends the run and its transfer and holds the press, its signal pending (R149). -/
theorem outcome_starveExpiry {a : ActiveRun} (ha : (s.pressAt p).active = some a) (hstate : (s.pressAt p).state = .starved) :
    outcome (starveExpiry s p) = .next (((((pressFeedEnded s p).setAnalogOut (steamOutput p) 0).setPress p { s.pressAt p with
      engaged := false, active := none, delay := none, signalPending := true
      state := .held .starvedOut .none, timer := none
      report := some ⟨a.number, .starvedOut, a.drawn, a.delivered, a.flushed, a.ignored, a.tally⟩ }).raise
        (.pressRunEnd p a.number .starvedOut)).raise (.pressHeld p .starvedOut .none a.number)) := by
  have hexpiry : starveExpiry s p = ((endTransfer (endRun (pressFeedOff s p) p .starvedOut) (pressOwner p)).1,
      (endTransfer (endRun (pressFeedOff s p) p .starvedOut) (pressOwner p)).2 ++ [.finishStarved p a.number]) := by
    simp only [starveExpiry, hstate, ha]
  rw [hexpiry, endTransfer_fst, endRun_of_active (a := a) (by rw [pressFeedOff_eq, State.setPress_pressAt, ha]), pressFeedOff_eq,
    State.setPress_setPress, transferEnded_raise, transferEnded_setPress, State.setPress_pressAt]
  refine outcome_of_settle (runTasks_ended (fuel := 19998 + 1) (pressFeedEnded_waiting hwaiting p) ?_)
  rw [runTasks_cons]
  refine (runTasks_nil _ _).trans (congrArg some ?_)
  cases p <;> rfl

/-- A choke on a reading takes the feed off, and the press waits for the operator in CHOKED (R146). -/
theorem outcome_choke {a : ActiveRun} (ha : (s.pressAt p).active = some a) (i : Int) : outcome (choke s p i) =
    .next (((pressFeedEnded s p).setPress p { s.pressAt p with
      engaged := false, state := .choked, active := some { a with chokeCurrent := some i } }).raise
        (.pressHeld p .choke .none a.number)) := by
  have hfinish : finishChoke ((pressFeedEnded s p).setPress p { s.pressAt p with engaged := false }) p i =
      ((pressFeedEnded s p).setPress p { s.pressAt p with
        engaged := false, state := .choked, active := some { a with chokeCurrent := some i } }).raise
          (.pressHeld p .choke .none a.number) := by
    simp only [finishChoke, raisePressHeld, State.modPress, State.setPress_pressAt, State.setPress_setPress, ha, Option.map_some,
      Option.getD_some]
  rw [choke, endTransfer_feedOff]
  refine outcome_of_settle (runTasks_ended (fuel := 19998 + 1) (pressFeedEnded_waiting hwaiting p) ?_)
  rw [runTasks_cons, show handle (.finishChoke p i) _ = _ from congrArg State.done hfinish]
  exact runTasks_nil _ _

end holds

/-! ### The button, the timers and the running feedback -/

theorem pressButton_trigger {a : ActiveRun} (ha : (s.pressAt p).active = some a)
    (hset : (s.pressAt p).cfg.triggers.button = true) (hdelayed : (s.pressAt p).cfg.buttonImmediate = false)
    (hdelay : (s.pressAt p).delay = none) (hsignal : (s.pressAt p).signalPending = false) :
    pressButton s p = (s.setPress p { s.pressAt p with delay := some (s.pressAt p).cfg.delay }, []) := by
  simp only [pressButton, ha, hset, hdelayed, Option.isNone_some, Bool.not_true, Bool.or_self, Bool.false_eq_true, if_false,
    takeTrigger_starts ha hdelay hsignal, State.done]

theorem pressStartExpiry_starting (hstate : (s.pressAt p).state = .starting) (htimer : (s.pressAt p).timer = some (.start left)) :
    pressStartExpiry s p = holdPress s p .motor .none false := by
  simp only [pressStartExpiry, hstate, htimer]

theorem pressColdExpiry_starting (hstate : (s.pressAt p).state = .starting) (htimer : (s.pressAt p).timer = some (.cold left)) :
    pressColdExpiry s p = holdPress s p .cold .none true := by
  simp only [pressColdExpiry, hstate, htimer]

theorem pressFoundEvent_starting {a : ActiveRun} (hstate : (s.pressAt p).state = .starting)
    (htimer : (s.pressAt p).timer = some (.start left)) (ha : (s.pressAt p).active = some a) : pressFoundEvent s p =
      (s.setPress p { s.pressAt p with feedbackFound := true, timer := some (.cold (s.pressAt p).cfg.coldWait) }, []) := by
  simp only [pressFoundEvent, hstate, htimer, pressFound, State.modPress, State.setPress_pressAt, ha, Option.isSome_some, if_true,
    State.done]

theorem pressFeedbackLoss_running (hstate : (s.pressAt p).state = .running) (hfound : (s.pressAt p).feedbackFound = true) :
    pressFeedbackLoss s p = holdPress s p .motor .none false :=
  if_pos (by simp only [Press.motorRuns, hstate, hfound, Bool.and_self])

/-- A signal at a choked press is kept for the resume (R151). -/
theorem delayExpiry_choked {d : Tenths} (hdelay : (s.pressAt p).delay = some d) (hstate : (s.pressAt p).state = .choked) :
    delayExpiry s p = (s.setPress p { s.pressAt p with delay := none, signalPending := true }, []) := by
  simp only [delayExpiry, hdelay, Option.isSome_some, if_true, produceSignal, State.modPress, State.setPress_pressAt, hstate,
    State.setPress_setPress, State.done]
  rfl

theorem pressRundownExpiry_stopping (hstate : (s.pressAt p).state = .stopping)
    (htimer : (s.pressAt p).timer = some (.rundown left)) :
    pressRundownExpiry s p = (s.setPress p { s.pressAt p with state := .idle, timer := none }, []) := by
  simp only [pressRundownExpiry, hstate, htimer, State.modPress, State.done]

/-! ### The last count of a watch -/

theorem pressFeeding_engaged (hstate : (s.pressAt p).state = .running ∨ (s.pressAt p).state = .flushing)
    (hengaged : (s.pressAt p).engaged = true) : pressFeeding s p = true := by
  rw [pressFeeding, decide_eq_true hstate.symm, hengaged, Bool.and_self]

theorem chokeReached_last {a : ActiveRun} (ha : (s.pressAt p).active = some a) (hfeed : pressFeeding s p = true)
    (hlast : intervalsOf a.profile.tripTime 10 ≤ (s.pressAt p).chokeCount + 1) : chokeReached s p =
      choke (s.setPress p { s.pressAt p with chokeCount := (s.pressAt p).chokeCount + 1 }) p
        (s.readAnalog (currentInput p)).1 := by
  simp only [chokeReached, ha, hfeed, decide_eq_true hlast, Bool.and_self, if_true, State.modPress]

theorem coldReached_last (hfeed : pressFeeding s p = true)
    (hlast : intervalsOf (s.pressAt p).cfg.coldWait 10 ≤ (s.pressAt p).coldCount + 1) : coldReached s p =
      holdPress (s.setPress p { s.pressAt p with coldCount := (s.pressAt p).coldCount + 1 }) p .cold .none true := by
  simp only [coldReached, hfeed, decide_eq_true hlast, Bool.and_self, if_true, State.modPress]

end

end Sys2Proof.Machine

/-! PROOFS. A feeding interval of a press: the postings, the watches and the drive (R144 to R147). -/

namespace Sys2Proof.Machine

section

variable {s : State} {press b m : Nat} {p : PressId} {a : ActiveRun} {v w : Bin} {i : Int}

/-! ### Postings with lots -/

/-- A bin after a draw of `m` grams (R41, R49). -/
def drawnBin (v : Bin) (m : Nat) : Bin := { v with onHand := v.onHand - m, lots := (takeLots m v.lots).1 }

/-- A bin that keeps lots after a fill of `m` grams in pieces, as far as it has room (R40, R48). -/
def filledBin (v : Bin) (m : Nat) (pieces : List Piece) : Bin :=
  { v with
    onHand := v.onHand + min m (v.cfg.capacity - v.onHand)
    lots := addPieces v.lots (min m (v.cfg.capacity - v.onHand)) pieces }

/-- A draw within the on-hand of a bin without reservations (R41). -/
theorem draw_within (hv : s.bin b = some v) (hres : ∀ q ∈ s.inv.reservations, q.bin ≠ b) (hm : m ≤ v.onHand) :
    draw s b m none = ⟨((s.setBin b (drawnBin v m)).setRouter { s.router with
        waiting := s.router.waiting ++ lowMarks (drawnBin v m) b v.onHand .drawOrCount }, [.posted b]),
      m, (takeLots m v.lots).2, lotBoundaries m v.lots⟩ := by
  have huncharged : chargeReservation s.inv.reservations none b m = s.inv.reservations := by simp [chargeReservation]
  have hfall : (drawnBin v m).onHand ≤ v.onHand := Nat.sub_le _ _
  simp only [draw, hv, huncharged, min_eq_left hm]
  rw [show ({ v with onHand := v.onHand - m, lots := (takeLots m v.lots).1 } : Bin) = drawnBin v m from rfl,
    finishPosting_unreserved (State.setBin_bin _ _ _) (by exact hres), markEvents_eq (State.setBin_bin _ _ _),
    highMarks_of_fall hfall, List.append_nil]
  rfl

/-- A fill of a FINISHED bin without reservations (R40). -/
theorem fill_finished (hv : s.bin b = some v) (hkind : v.cfg.kind = .finished) (hres : ∀ q ∈ s.inv.reservations, q.bin ≠ b)
    (hpos : 0 < m) (pieces : List Piece) : (fill s b m pieces).result =
      ((s.setBin b (filledBin v m pieces)).setRouter { s.router with
        waiting := s.router.waiting ++
          highMarks (filledBin v m pieces) b v.onHand (decide (v.cfg.capacity - v.onHand < m)) }, [.posted b]) := by
  have hrise : v.onHand ≤ (filledBin v m pieces).onHand := Nat.le_add_right _ _
  have hkeeps : keepsLots v.cfg.kind = true := by rw [hkind]; rfl
  simp only [fill, hv, if_neg hpos.ne', hkeeps, if_true]
  rw [show ({ v with
      onHand := v.onHand + min m (v.cfg.capacity - v.onHand)
      lots := addPieces v.lots (min m (v.cfg.capacity - v.onHand)) pieces } : Bin) = filledBin v m pieces from rfl,
    finishPosting_unreserved (State.setBin_bin _ _ _) (by exact hres), markEvents_eq (State.setBin_bin _ _ _),
    lowMarks_of_rise hrise, List.append_nil]
  rfl

theorem boundaryTriggers_out (h : (s.pressAt p).cfg.triggers.lotBoundary = false) (tags : List Nat) :
    boundaryTriggers tags p s = s := by
  induction tags with
  | nil => rfl
  | cons _ tags ih => rw [boundaryTriggers, triggerIf_out (inSet := (·.lotBoundary)) h, ih]

/-- A posting to the surge bin of a RUNNING press, and of no other press, with no grind and no batch in the mixer
(R39, R149). -/
theorem leads_posted_surge (hgrind : s.currentGrind = none) (hmixer : s.mixerBatch = none)
    (hown : (s.pressAt p).cfg.surgeBin = b) (hother : ∀ q, q ≠ p → (s.pressAt q).cfg.surgeBin ≠ b)
    (hstate : (s.pressAt p).state = .running) : Leads (.posted b) s s := by
  have hfed : [PressId.one, PressId.two].filter (fun q => decide ((s.pressAt q).cfg.surgeBin = b)) = [p] := by
    cases p with
    | one => simp [hown, hother .two]
    | two => simp [hown, hother .one]
  have hjudged : starvedJudge s p = (s, []) := by simp only [starvedJudge, hstate, State.done]
  refine ⟨[.starvedJudge p, .roomCheckAt b], ?_, Nat.le_refl 2, ?_⟩
  · simp only [handle, millJudgePosting, hgrind, hfed, State.done, List.map_cons, List.map_nil, List.nil_append, List.cons_append]
  · rintro t ht
    rcases List.mem_cons.1 ht with rfl | ht
    · exact hjudged
    · rw [List.mem_singleton.1 ht]
      exact roomCheckAt_no_mixer hmixer b

/-! ### The postings of an interval -/

/-- An engaged press in DELIVER, its transfer flowing, that feeds `m` grams from its surge bin to its destination, two bins without
reservations that nobody else watches (R144). -/
structure PressFeeds (s : State) (p : PressId) (a : ActiveRun) (v w : Bin) (m : Nat) : Prop where
  active : (s.pressAt p).active = some a
  running : (s.pressAt p).state = .running
  engaged : (s.pressAt p).engaged = true
  deliver : a.phase = .deliver
  flowing : s.flowing (pressOwner p) = true
  source : s.bin (s.pressAt p).cfg.surgeBin = some v
  destination : s.bin a.destination = some w
  kind : w.cfg.kind = .finished
  product : w.cfg.code = a.product
  distinct : a.destination ≠ (s.pressAt p).cfg.surgeBin
  estimate : m = rdivNat (v.feederAsk * v.cfg.fullRate) 1000
  pos : 0 < m
  stock : m ≤ v.onHand
  reservations : ∀ q ∈ s.inv.reservations, q.bin ≠ (s.pressAt p).cfg.surgeBin ∧ q.bin ≠ a.destination
  others : ∀ q, q ≠ p → (s.pressAt q).cfg.surgeBin ≠ (s.pressAt p).cfg.surgeBin
  unfed : ∀ q, (s.pressAt q).cfg.surgeBin ≠ a.destination
  grind : s.currentGrind = none
  mixer : s.mixerBatch = none
  boundary : (s.pressAt p).cfg.triggers.lotBoundary = false

/-- The pieces that a draw of `m` grams passes on as the run's product (R144). -/
def pressPieces (a : ActiveRun) (v : Bin) (m : Nat) : List Piece := (takeLots m v.lots).2.map (fun e => ⟨e.1, a.product, e.2⟩)

/-- The run with the draw counted (R144). -/
def pressCounted (a : ActiveRun) (v : Bin) (m : Nat) : ActiveRun :=
  { a with
    drawn := min (a.drawn + m) 4294967295, delivered := min (a.delivered + m) 4294967295
    tally := a.tally.addAll (takeLots m v.lots).2 }

/-- The mark events of an interval's postings (R47). -/
def pressMarks (s : State) (p : PressId) (a : ActiveRun) (v w : Bin) (m : Nat) : List Event :=
  lowMarks (drawnBin v m) (s.pressAt p).cfg.surgeBin v.onHand .drawOrCount ++
    highMarks (filledBin w m (pressPieces a v m)) a.destination w.onHand (decide (w.cfg.capacity - w.onHand < m))

/-- The plant after the postings of an interval (R144). -/
def pressFed (s : State) (p : PressId) (a : ActiveRun) (v w : Bin) (m : Nat) : State :=
  (((s.setBin (s.pressAt p).cfg.surgeBin (drawnBin v m)).setBin a.destination (filledBin w m (pressPieces a v m))).setPress p
    { s.pressAt p with active := some (pressCounted a v m) }).setRouter { s.router with
      waiting := s.router.waiting ++ pressMarks s p a v w m }

theorem pressFed_pressAt (s : State) (p : PressId) (a : ActiveRun) (v w : Bin) (m : Nat) :
    (pressFed s p a v w m).pressAt p = { s.pressAt p with active := some (pressCounted a v m) } := State.setPress_pressAt _ _ _

namespace PressFeeds

variable (h : PressFeeds s p a v w m)

include h

/-- The draw goes on into the destination and is counted (R144). -/
theorem passOn_feeds : passOn (draw s (s.pressAt p).cfg.surgeBin m none).result.1 p m (takeLots m v.lots).2 =
    (pressFed s p a v w m, [.posted a.destination]) := by
  rw [draw_within h.source (fun q hq => (h.reservations q hq).1) h.stock]
  have hactive : (((s.setBin (s.pressAt p).cfg.surgeBin (drawnBin v m)).setRouter { s.router with
      waiting := s.router.waiting ++ lowMarks (drawnBin v m) (s.pressAt p).cfg.surgeBin v.onHand .drawOrCount }).pressAt p).active =
        some a := h.active
  have hcounted : countDraw a m (takeLots m v.lots).2 = pressCounted a v m := by
    simp [countDraw, pressCounted, satAdd, h.deliver]
  have hfill := fill_finished (s := (s.setBin (s.pressAt p).cfg.surgeBin (drawnBin v m)).setRouter { s.router with
      waiting := s.router.waiting ++ lowMarks (drawnBin v m) (s.pressAt p).cfg.surgeBin v.onHand .drawOrCount })
    ((State.setBin_bin_other _ _ h.distinct.symm).trans h.destination) h.kind (fun q hq => (h.reservations q hq).2) h.pos
    (pressPieces a v m)
  have houtput (u : State) : outputBin u a = a.destination := by simp only [outputBin, h.deliver]
  simp only [passOn, hactive, houtput]
  rw [show (takeLots m v.lots).2.map (fun e => (⟨e.1, a.product, e.2⟩ : Piece)) = pressPieces a v m from rfl, hfill]
  simp only [State.modPress, pressFed, pressMarks, ← List.append_assoc]
  show (State.setPress _ p { s.pressAt p with
    active := (s.pressAt p).active.map fun b => countDraw b m (takeLots m v.lots).2 }, _) = _
  rw [h.active, Option.map_some, hcounted]
  rfl

/-- Step 1 of the interval: the postings, then the judgement of the mass limit (R144). -/
theorem pressPost_feeds : pressPost s p a m =
    (judgeFlush (judgeLimit (pressFed s p a v w m) p) p,
      [.posted (s.pressAt p).cfg.surgeBin, .posted a.destination] ++
        zeroDelay s (judgeFlush (judgeLimit (pressFed s p a v w m) p) p) p ++ [.pressWatch p]) := by
  have hok : destinationOk s a = true := by
    simp only [destinationOk, h.destination, h.kind, h.product, and_self, decide_true]
  have hdraw := draw_within h.source (fun q hq => (h.reservations q hq).1) h.stock
  have hpass := h.passOn_feeds
  have hboundary (tags : List Nat) : boundaryTriggers tags p (pressFed s p a v w m) = pressFed s p a v w m := by
    refine boundaryTriggers_out ?_ tags
    rw [pressFed_pressAt]
    exact h.boundary
  have hdeliver : ¬(a.phase = .flush ∧ s.reworkBin = none) := by simp [h.deliver]
  simp only [pressPost, if_neg hdeliver, hok, Bool.not_true, Bool.and_false, Bool.false_eq_true, if_false]
  rw [show (draw s (s.pressAt p).cfg.surgeBin m none).removed = m by rw [hdraw],
    show (draw s (s.pressAt p).cfg.surgeBin m none).consumed = (takeLots m v.lots).2 by rw [hdraw], hpass]
  simp only [hboundary]
  rw [hdraw]
  rfl

theorem controlInterval_feeds : controlInterval s p = pressPost s p a m := by
  have hestimate : pressEstimate (((s.bin (s.pressAt p).cfg.surgeBin).map (·.feederAsk)).getD 0)
      (((s.bin (s.pressAt p).cfg.surgeBin).map (·.cfg.fullRate)).getD 0) = m := by
    rw [h.source, h.estimate]
    rfl
  simp only [controlInterval, h.active, hestimate]
  rw [if_neg (by rw [h.running]; decide), if_pos ⟨.inr h.running, h.flowing⟩, if_pos h.engaged, if_neg h.pos.ne']

/-- A flush is not judged while the run delivers (R144). -/
theorem judgeFlush_fed : judgeFlush (pressFed s p a v w m) p = pressFed s p a v w m := by
  have hdeliver : ¬((pressCounted a v m).phase = .flush ∧ (pressCounted a v m).flushMass ≤ (pressCounted a v m).flushed) := by
    simp [pressCounted, h.deliver]
  simp only [judgeFlush, pressFed_pressAt, if_neg hdeliver]

theorem source_fed : (pressFed s p a v w m).bin (s.pressAt p).cfg.surgeBin = some (drawnBin v m) :=
  (State.setBin_bin_other _ _ h.distinct).trans (State.setBin_bin _ _ _)

/-- A posting of the interval tells nobody who acts on it (R39). -/
theorem course_posted {u : State} (hmill : u.mill = s.mill) (hline : u.line = s.line)
    (hcfg : ∀ q, (u.pressAt q).cfg = (s.pressAt q).cfg) (hstate : (u.pressAt p).state = .running) :
    Course [.posted (s.pressAt p).cfg.surgeBin, .posted a.destination] u u := by
  have hgrind : u.currentGrind = none := (currentGrind_of_mill hmill).trans h.grind
  have hmixer : u.mixerBatch = none := by rw [State.mixerBatch, hline]; exact h.mixer
  refine .cons (leads_posted_surge hgrind hmixer (by rw [hcfg]) (fun q hq => ?_) hstate)
    (.cons (leads_posted_unjudged ?_ (fun q => ?_) hmixer) (.nil _))
  · rw [hcfg]
    exact h.others q hq
  · simp only [millJudgePosting, hgrind, State.done]
  · rw [hcfg]
    exact h.unfed q

end PressFeeds

/-! ### The watches and the drive -/

/-- A press that is driven at a rate, no choke reading and no cold reading counted (R145). -/
def pressDriven (s : State) (p : PressId) (a : ActiveRun) (v : Bin) (rate : Nat) : State :=
  (s.setPress p { s.pressAt p with chokeCount := 0, coldCount := 0, active := some { a with activeRate := rate } }).askFeeder
    (s.pressAt p).cfg.surgeBin (pressPermille rate v.cfg.fullRate)

/-- Steps 2 to 6 of an interval of a press that feeds, with stock, without a choke reading and without a cold reading (R144 to
R147). -/
theorem pressWatch_drives (ha : (s.pressAt p).active = some a) (hv : s.bin (s.pressAt p).cfg.surgeBin = some v)
    (hstate : (s.pressAt p).state = .running) (hengaged : (s.pressAt p).engaged = true) (hstock : 0 < v.onHand)
    (hi : (s.readAnalog (currentInput p)).1 = i) (htrip : i ≤ a.profile.tripLevel) (hcount : (s.pressAt p).coldCount = 0)
    (hwarm : tooCold s p a = false) : pressWatch s p = (pressDriven s p a v (clampRate a i), []) := by
  have hchoke : ¬intervalsOf a.profile.tripTime 10 ≤ 0 := Nat.not_le.2 (intervalsOf_pos _ _)
  have hcold : ¬intervalsOf (s.pressAt p).cfg.coldWait 10 ≤ 0 := Nat.not_le.2 (intervalsOf_pos _ _)
  have hpaused : ¬0 < (s.pressAt p).coldCount := by omega
  simp only [pressWatch, ha, hv, hi, hwarm]
  rw [if_pos ⟨.inr hstate, hengaged⟩, if_neg hstock.ne', if_neg (not_lt.2 htrip), if_neg hchoke, if_neg hpaused]
  simp only [Bool.false_eq_true, if_false, State.done, State.modPress, State.setPress_pressAt, State.setPress_setPress]
  rw [if_neg hcold, pressDriven, ha]
  rfl

end

end Sys2Proof.Machine

/-! PROOFS. The press's events: the button, the timers, the feedback, the watches and a feeding interval (R141, R144 to R151, R154,
R156). -/

namespace Sys2Proof.Machine

section

variable {s : State} {press m : Nat} {p : PressId} {a : ActiveRun} {v w : Bin} {i : Int}

theorem pressFed_cfg (s : State) (p : PressId) (a : ActiveRun) (v w : Bin) (m : Nat) (q : PressId) :
    ((pressFed s p a v w m).pressAt q).cfg = (s.pressAt q).cfg := by
  cases p <;> cases q <;> rfl

theorem destination_fed (s : State) (p : PressId) (a : ActiveRun) (v w : Bin) (m : Nat) :
    (pressFed s p a v w m).bin a.destination = some (filledBin w m (pressPieces a v m)) := State.setBin_bin _ _ _

namespace PressFeeds

variable (h : PressFeeds s p a v w m)

include h

/-- An interval of a run without a mass limit ends in the drive (R144, R145). -/
theorem outcome_driven (hlimit : a.massLimit = 0) (hrest : m < v.onHand) (hi : (s.readAnalog (currentInput p)).1 = i)
    (htrip : i ≤ a.profile.tripLevel) (hcount : (s.pressAt p).coldCount = 0) (hwarm : tooCold s p a = false) :
    outcome (controlInterval s p) =
      .next (pressDriven (pressFed s p a v w m) p (pressCounted a v m) (drawnBin v m) (clampRate a i)) := by
  have hjudged : judgeFlush (judgeLimit (pressFed s p a v w m) p) p = pressFed s p a v w m := by
    have hunlimited : ¬(0 < (pressCounted a v m).massLimit ∧ (pressCounted a v m).limitMark = false ∧
        (pressCounted a v m).massLimit ≤ (pressCounted a v m).drawn) := fun hreached => hreached.1.ne' hlimit
    have hsame : judgeLimit (pressFed s p a v w m) p = pressFed s p a v w m := by
      simp only [judgeLimit, pressFed_pressAt, if_neg hunlimited]
    rw [hsame, h.judgeFlush_fed]
  have hdelay : zeroDelay s (pressFed s p a v w m) p = [] := by
    refine if_neg fun hzero => ?_
    rw [pressFed_pressAt] at hzero
    exact absurd (hzero.1.symm.trans hzero.2) nofun
  have hstate : ((pressFed s p a v w m).pressAt p).state = .running := by rw [pressFed_pressAt]; exact h.running
  have hwatch : pressWatch (pressFed s p a v w m) p =
      (pressDriven (pressFed s p a v w m) p (pressCounted a v m) (drawnBin v m) (clampRate a i), []) := by
    refine pressWatch_drives (a := pressCounted a v m) (v := drawnBin v m) (i := i) ?_ ?_ hstate ?_ ?_ hi htrip ?_ hwarm
    · rw [pressFed_pressAt]
    · rw [pressFed_pressAt]; exact h.source_fed
    · rw [pressFed_pressAt]; exact h.engaged
    · exact Nat.sub_pos_of_lt hrest
    · rw [pressFed_pressAt]; exact hcount
  have hposted := h.course_posted (u := pressFed s p a v w m) rfl rfl (pressFed_cfg s p a v w m) hstate
  have hdrive : Leads (.pressWatch p) (pressFed s p a v w m) _ := .of_eq hwatch
  rw [h.controlInterval_feeds, h.pressPost_feeds, hjudged, hdelay, List.append_nil]
  exact (hposted.append (.cons hdrive (.nil _))).outcome

/-- After the drive the surge bin has its feeder's new request, and the press no counts (R145). -/
theorem driven_eq (rate : Nat) : pressDriven (pressFed s p a v w m) p (pressCounted a v m) (drawnBin v m) rate =
    ((pressFed s p a v w m).setBin (s.pressAt p).cfg.surgeBin
      { drawnBin v m with feederAsk := pressPermille rate v.cfg.fullRate }).setPress p { s.pressAt p with
        chokeCount := 0, coldCount := 0, active := some { pressCounted a v m with activeRate := rate } } := by
  rw [pressDriven, askFeeder_setPress, pressFed_pressAt, askFeeder_of_bin h.source_fed]
  rfl

/-- An interval changes the bins, the press and the router. -/
theorem driven_frame (rate : Nat) : ∃ bins presses router,
    pressDriven (pressFed s p a v w m) p (pressCounted a v m) (drawnBin v m) rate =
      ((s.setInv { s.inv with bins := bins }).setPresses presses).setRouter router := by
  rw [h.driven_eq]
  exact ⟨_, _, _, rfl⟩

end PressFeeds

/-- Settles O49: the holds end the press's transfer (`outcome_holdPress_turning`, `outcome_holdPress_still`), and the interval's
postings are followed by the drive (`PressFeeds.outcome_driven`). -/
theorem pressEvents : Obligations.PressEvents := by
  intro s press p left hp hwaiting
  refine ⟨?_, ?_, ?_, ?_, ?_, ?_, ?_, ?_, ?_, ?_, ?_⟩
  · intro a ha hset hdelayed hdelay hsignal
    show atPress press s (fun p => pressButton (s.takeOffered (.pressButton press)) p) = _
    rw [atPress_of_pressOf _ hp, pressButton_trigger (s := s.takeOffered (.pressButton press)) ha hset hdelayed hdelay hsignal]
    rfl
  · intro hstate htimer
    show atPress press s (pressStartExpiry s) = _
    rw [atPress_of_pressOf _ hp, pressStartExpiry_starting hstate htimer, outcome_holdPress_still hwaiting]
    rfl
  · intro a hstate htimer ha
    show atPress press s (pressFoundEvent (s.takeOffered (.pressFeedbackFound press))) = _
    rw [atPress_of_pressOf _ hp, pressFoundEvent_starting (s := s.takeOffered (.pressFeedbackFound press)) hstate htimer ha]
    rfl
  · intro hstate htimer
    show atPress press s (pressColdExpiry s) = _
    rw [atPress_of_pressOf _ hp, pressColdExpiry_starting hstate htimer, outcome_holdPress_turning hwaiting]
    rfl
  · intro hstate hfound
    show atPress press s (pressFeedbackLoss (s.takeOffered (.pressFeedbackLost press))) = _
    rw [atPress_of_pressOf _ hp, pressFeedbackLoss_running (s := s.takeOffered (.pressFeedbackLost press)) hstate hfound,
      outcome_holdPress_still (s := s.takeOffered (.pressFeedbackLost press)) hwaiting]
    rfl
  · intro a ha hstate
    show atPress press s (starveExpiry s) = _
    rw [atPress_of_pressOf _ hp, outcome_starveExpiry hwaiting ha hstate]
    rfl
  · intro d hdelay hstate
    show atPress press s (delayExpiry s) = _
    rw [atPress_of_pressOf _ hp, delayExpiry_choked hdelay hstate]
    rfl
  · intro hstate htimer
    show atPress press s (pressRundownExpiry s) = _
    rw [atPress_of_pressOf _ hp, pressRundownExpiry_stopping hstate htimer]
    rfl
  · intro a ha hstate hengaged hlast
    show atPress press s (chokeReached s) = _
    rw [atPress_of_pressOf _ hp, chokeReached_last ha (pressFeeding_engaged hstate hengaged) hlast,
      outcome_choke (a := a) (by exact hwaiting) (by rw [State.setPress_pressAt, ha]), pressFeedEnded_setPress (by rfl),
      State.setPress_pressAt, State.setPress_setPress]
    rfl
  · intro hstate hengaged hlast
    show atPress press s (coldReached s) = _
    rw [atPress_of_pressOf _ hp, coldReached_last (pressFeeding_engaged hstate hengaged) hlast,
      outcome_holdPress_turning (by exact hwaiting), pressHeldTurning, pressFeedEnded_setPress (by rfl), State.setPress_pressAt,
      State.setPress_setPress]
    rfl
  · rintro a v w u currentPos tempPos i m taken ha hstate hengaged hdeliver hflow hv hw hkind hproduct hdistinct rfl rfl hm hpos
      hrest hroom rfl hres hothers hunfed hgrind hmixer hboundary hlimit htrip hcount hwarm
    have h : PressFeeds ((s.setAnalogPin (currentInput p) currentPos).setAnalogPin (temperatureInput p) tempPos) p a v w m :=
      ⟨ha, hstate, hengaged, hdeliver, hflow, hv, hw, hkind, hproduct, hdistinct, hm, hpos, hrest.le, hres, hothers, hunfed,
        hgrind, hmixer, hboundary⟩
    have htaken : min m (w.cfg.capacity - w.onHand) = m := min_eq_left (Nat.le_sub_of_add_le' hroom)
    have hwarm_reading : tooCold _ p a = false := decide_eq_false (not_lt.2 hwarm)
    refine ⟨_, (atPress_of_pressOf _ hp).trans (h.outcome_driven hlimit hrest rfl htrip hcount hwarm_reading), ?_, ?_, ?_, ?_⟩
    · rw [h.driven_eq]
      exact State.setBin_bin _ _ _
    · rw [h.driven_eq]
      refine (State.setBin_bin_other _ _ hdistinct.symm).trans ((destination_fed _ _ _ _ _ _).trans ?_)
      rw [filledBin, htaken]
      rfl
    · have hcold : (0 : Nat) = (s.pressAt p).coldCount := hcount.symm
      rw [h.driven_eq, State.setPress_pressAt, hcold]
      rfl
    · obtain ⟨bins, presses, router, hframe⟩ := h.driven_frame (clampRate a _)
      rw [hframe]
      exact ⟨rfl, rfl, rfl, rfl, rfl, rfl, rfl, rfl, rfl⟩

end

end Sys2Proof.Machine

/-! PROOFS. Two statements on the changeover that fail, because they speak of every state, also of one whose table of bins is not in
rising order. There the end of the old transfer can put another REWORK bin before the first one, and the new transfer is judged
by that bin (R32, R80, R153). -/

namespace Sys2Proof.Machine

section

/-! ### A plant whose bins are out of order -/

/-- A bin of a kind and an outlet that holds 1 g, its feeder asked at 1 permille of 1,000 g/s. -/
def oneGramBin (kind : BinKind) (outlet : Outlet) (locked : Bool) : Bin where
  cfg := ⟨kind, 1, 10, 0, 10, outlet, .speed 0, 1, 1, 1000, 1, 0, 1, 0, 1, 0, 0, 0, none, none, 0, 0, .off⟩
  onHand := 1
  counted := true
  locked := locked
  lots := []
  writeOff := 0
  inflight := 0
  highCovered := none
  lowCovered := none
  renamed := false
  feederAsk := 1

/-- A profile of 100 kg/h without carry-back. -/
def slowProfile : Profile := ⟨100, 0, 100, 200, 30, 10, 0, false⟩

/-- The active run, 1 g short of its mass limit. -/
def shortRun : ActiveRun :=
  ⟨1, 1, 1, 2, 0, 1, slowProfile, 0, 0, 100, .deliver, 0, 0, 0, ⟨[], false⟩, 0, false, false, false, none⟩

/-- The run that is to follow it. -/
def nextRun : Run := ⟨2, 1, 1, 2, 0, 0, 0, false, 0⟩

/-- Press 1 feeds from bin 1 to bin 2. The REWORK bins 4 and 3 stand in this order, so that 4 is the REWORK bin; bin 3 is locked,
and the press's transfer empties it. -/
def disorderedPlant : State :=
  (((State.reset.setInv ⟨[(1, oneGramBin .surge .press1 false), (2, oneGramBin .finished .truck false),
    (4, oneGramBin .rework .main false), (3, oneGramBin .rework .main true)], [], 1⟩).setArb { State.reset.arb with
      transfers := [(1, ⟨.press1, [⟨3, false, 0⟩], [], .flowing, [], none, false, none⟩)] }).setPresses
        { State.reset.press with profiles := [(1, slowProfile)] }).setPress .one { State.reset.press.one with
          cfg := ⟨1, ⟨false, false, false, none, true⟩, 0, false, 0, 0, 0, 0, 10⟩
          state := .running, queue := [nextRun], active := some shortRun, engaged := true }

/-- The end of the transfer enters bin 3 anew, before bin 4 (`Table.set`), and so makes it the REWORK bin. -/
theorem disorderedPlant_reworkBin :
    disorderedPlant.reworkBin = some 4 ∧ (pressFeedEnded disorderedPlant .one).reworkBin = some 3 := ⟨rfl, rfl⟩

theorem disorderedPlant_open {k : Nat} (hk : k = 1 ∨ k = 2 ∨ disorderedPlant.reworkBin = some k) {v : Bin}
    (hv : disorderedPlant.bin k = some v) : v.locked = false ∧ v.highCovered = none ∧
      disorderedPlant.route v.cfg.outletRoute = ⟨[], []⟩ ∧ disorderedPlant.route v.cfg.inletRoute = ⟨[], []⟩ := by
  rcases hk with rfl | rfl | hk
  · obtain rfl := Option.some.inj hv
    exact ⟨rfl, rfl, rfl, rfl⟩
  · obtain rfl := Option.some.inj hv
    exact ⟨rfl, rfl, rfl, rfl⟩
  · obtain rfl : 4 = k := Option.some.inj hk
    obtain rfl := Option.some.inj hv
    exact ⟨rfl, rfl, rfl, rfl⟩

/-- The state of press 1 after a command, if the command leaves a state. -/
def pressOneAfter (c : Instr) (s : State) : Option PressState :=
  match exec c s with
  | .next t => some (t.pressAt .one).state
  | _ => none

theorem pressOneAfter_of_next {c : Instr} {s t : State} (h : exec c s = .next t) :
    pressOneAfter c s = some (t.pressAt .one).state := by
  rw [pressOneAfter, h]

theorem disorderedPlant_others {q : PressId} (hq : q ≠ .one) :
    (disorderedPlant.pressAt q).cfg.surgeBin ≠ (disorderedPlant.pressAt .one).cfg.surgeBin := by
  cases q with
  | one => exact absurd rfl hq
  | two => decide

theorem disorderedPlant_unfed (q : PressId) : (disorderedPlant.pressAt q).cfg.surgeBin ≠ shortRun.destination := by
  cases q with
  | one => decide
  | two => decide

/-! ### The changeover whose new transfer is refused -/

theorem changeoverNow_disordered : pressOneAfter (.changeoverNow 0 1) disorderedPlant = some (.held .noPermit .none) := rfl

/-- Refutes O48: at `disorderedPlant` the new transfer of CHANGEOVER_NOW is refused for the locked bin 3, and the press is held
NO_PERMIT, not RUNNING. -/
theorem not_pressStopResumeAndChangeover : ¬ Obligations.PressStopResumeAndChangeover := by
  intro hall
  obtain ⟨-, -, -, -, -, -, -, hchange⟩ := hall disorderedPlant 0 1 .one rfl rfl
  obtain ⟨t, hnext, -, hpress, -⟩ := hchange shortRun nextRun [] slowProfile slowProfile rfl rfl rfl rfl rfl rfl rfl rfl rfl rfl
    rfl rfl rfl ⟨1, by decide⟩ fun _ hk _ hv => disorderedPlant_open hk hv
  have hruns : (t.pressAt .one).state = .running := congrArg Press.state hpress
  have hafter := pressOneAfter_of_next hnext
  rw [changeoverNow_disordered, hruns] at hafter
  cases hafter

theorem pressControlInterval_disordered :
    pressOneAfter (.pressControlInterval 1 0 0) disorderedPlant = some (.held .noPermit .none) := rfl

/-- Refutes O50: at `disorderedPlant` an interval posts 1 g and reaches the mass limit, and the changeover within it ends as in
O48's counterexample. -/
theorem not_controlIntervalAndClamp : ¬ Obligations.ControlIntervalAndClamp := by
  rintro ⟨hall, -⟩
  obtain ⟨-, -, hchange⟩ := hall disorderedPlant 1 .one 0 0 _ shortRun _ rfl rfl rfl rfl
  obtain ⟨t, hnext, hpress, -⟩ := hchange (oneGramBin .surge .press1 false) (oneGramBin .finished .truck false) 1 [] nextRun
    rfl rfl rfl rfl rfl rfl rfl rfl rfl rfl rfl (by decide) (by decide) rfl nofun (fun _ => disorderedPlant_others)
    disorderedPlant_unfed rfl rfl rfl rfl rfl rfl rfl (by decide) rfl (by decide) rfl rfl rfl rfl rfl ⟨1, by decide⟩
    fun _ hk _ hv => disorderedPlant_open hk hv
  have hruns : (t.pressAt .one).state = .running := congrArg Press.state hpress
  have hafter := pressOneAfter_of_next hnext
  rw [pressControlInterval_disordered, hruns] at hafter
  cases hafter

end

end Sys2Proof.Machine

/-! PROOFS. The Bagger Controller's requests: BAGGER_SET, BAG_QUEUE behind other runs, BAG_RUN_START and BAG_RUN_STOP (R160 to
R162, R164, R165, R170). -/

namespace Sys2Proof.Machine

section

variable {s : State} {tag : Byte}

/-! ### BAGGER_SET -/

theorem execBaggerSet_accepted {check release : Nat} (hroom : s.replyRoom = true) (hsave : s.saving = false)
    (hcheck : check ≤ 100) (hlow : 1 ≤ release) (hhigh : release ≤ 600) :
    execBaggerSet tag check release s = accepted s (.baggerSet tag check release)
      (fun u => u.setBag { u.bag with checkTime := check, releaseTime := release }) (fun _ => []) := by
  have hranged : decide (check ≤ 100 ∧ 1 ≤ release ∧ release ≤ 600) = true := decide_eq_true ⟨hcheck, hlow, hhigh⟩
  refine serve_plainly hroom fun l => ?_
  rw [hranged, checked_pass, State.setLink_saving, hsave, Bool.not_false, checked_pass, checked_nil]

/-! ### BAG_QUEUE -/

/-- A claim on an unlocked bin that finds room in the ledger is not refused (R53). -/
theorem claimRefusal_single {b wanted : Nat} {h : Holder} {v : Bin} (hv : s.bin b = some v) (hlocked : v.locked = false)
    (hledger : s.inv.reservations.length < Config.reservationCap) : claimRefusal s [(b, h, wanted)] = none := by
  simp only [claimRefusal, List.any_cons, List.any_nil, hv, hlocked, Option.isNone_some, Option.map_some, Option.getD_some,
    Bool.or_self, Bool.false_eq_true, if_false, List.length_singleton, if_neg (Nat.not_lt.2 (Nat.succ_le_of_lt hledger))]

/-- BAG_QUEUE passes every check of R162. -/
structure BagQueueable (s : State) (f : BagFields) (start : StartTrigger) (arming : BagArming) (stop : StopTrigger) (v : Bin) :
    Prop where
  start : startTriggerOf f.startTrigger f.startSource = some start
  arming : bagArmingOf f.arming f.burstSize = some arming
  stop : stopTriggerOf f.stopTrigger f.stopSource = some stop
  ranged : bagInRange s f = true
  fresh : ∀ r ∈ s.bag.queue, r.number ≠ f.number
  place : s.bag.queue.length < Config.bagCap
  defined : s.bin f.bin = some v
  kind : v.cfg.kind = .finished
  outlet : v.cfg.outlet = .bagger
  unlocked : v.locked = false
  ledger : s.inv.reservations.length < Config.reservationCap

variable {f : BagFields} {start : StartTrigger} {arming : BagArming} {stop : StopTrigger} {v : Bin}

theorem BagQueueable.fresh_all (h : BagQueueable s f start arming stop v) :
    s.bag.queue.all (fun r => decide (r.number ≠ f.number)) = true :=
  List.all_eq_true.2 fun r hr => decide_eq_true (h.fresh r hr)

theorem BagQueueable.claim_free (h : BagQueueable s f start arming stop v) : claimRefusal s [bagClaim f] = none :=
  claimRefusal_single h.defined h.unlocked h.ledger

/-- Behind a head run no run becomes head, so that nothing follows the execution (R162). -/
theorem acceptBagRun_behind (hqueue : s.bag.queue ≠ []) {made : State × Nat}
    (hmade : made = createOne s f.bin (.bagRun f.number) (f.target * f.count)) : acceptBagRun s f start arming stop =
      plain (made.1.setBag { made.1.bag with queue := made.1.bag.queue ++ [bagRunOf f start arming stop made.2] })
        [.u16 made.2, .u8 (flagCode (!made.1.reservationFull made.2))] := by
  subst hmade
  simp only [acceptBagRun, List.isEmpty_eq_false_iff.2 hqueue, Bool.false_eq_true, if_false]
  rfl

theorem execBagQueue_behind (hroom : s.replyRoom = true) (h : BagQueueable (dropFrame s) f start arming stop v)
    (hqueue : s.bag.queue ≠ []) {made : State × Nat}
    (hmade : made = createOne (dropFrame s) f.bin (.bagRun f.number) (f.target * f.count)) :
    execBagQueue tag f s = inTurn s (.bagQueue tag f) (answer (made.1.setBag { made.1.bag with
        queue := made.1.bag.queue ++ [bagRunOf f start arming stop made.2] })
      (replyTo (.bagQueue tag f) .ok 0 [.u16 made.2, .u8 (flagCode (!made.1.reservationFull made.2))])) := by
  refine serve_inTurn hroom fun ht => serve_plain ht ?_
  simp only [h.start, h.arming, h.stop, h.ranged, h.fresh_all, decide_eq_true h.place, h.defined, h.kind, h.outlet, and_self,
    decide_true, Option.isSome_some, Option.map_some, Option.getD_some, checked_pass, checked_nil, h.claim_free]
  exact acceptBagRun_behind (s := dropFrame s) hqueue hmade

/-! ### BAG_RUN_START -/

theorem headRun_empty (hqueue : s.bag.queue = []) : s.headRun = none := by rw [State.headRun, hqueue, List.head?_nil]

theorem startForeign_empty (hqueue : s.bag.queue = []) : startForeign s = false := by rw [startForeign, headRun_empty hqueue]

/-- A COMMAND start that finds an empty queue sets the start mark, or finds it set (R164, R165). -/
theorem commandStart_empty (hqueue : s.bag.queue = []) (hrun : s.stopped = false) : commandStart s =
    ((s.setBag { s.bag with startMark := true }, []), if s.bag.startMark = true then .already else .marked) := by
  simp only [commandStart, hrun, Bool.false_eq_true, if_false, headRun_empty hqueue, markStart]
  by_cases hmark : s.bag.startMark = true
  · have hsame : { s.bag with startMark := true } = s.bag := by rw [← hmark]
    rw [if_pos hmark, if_pos hmark, hsame]
    rfl
  · rw [if_neg hmark, if_neg hmark]
    rfl

theorem execBagRunStart_empty (hroom : s.replyRoom = true) (hqueue : s.bag.queue = []) (hrun : s.stopped = false) :
    execBagRunStart tag s = accepted s (.bagRunStart tag) (fun u => u.setBag { u.bag with startMark := true })
      (fun _ => [.u8 (if s.bag.startMark then 2 else 1)]) := by
  refine serve_plainly hroom fun l => ?_
  rw [State.setLink_stopped, hrun, startForeign_empty (s := s.setLink l) hqueue, Bool.not_false, checked_pass, checked_pass,
    checked_nil, commandStart_empty (s := s.setLink l) hqueue hrun, State.setLink_bag, apply_ite startCode]
  rfl

theorem execBagRunStart_stopped (hroom : s.replyRoom = true) (hstop : s.stopped = true) :
    execBagRunStart tag s = refusedWith s (.bagRunStart tag) .lineStopped 0 := by
  refine serve_refused hroom fun l => ?_
  rw [State.setLink_stopped, hstop, Bool.not_true, checked_fail]

/-! ### BAG_RUN_STOP -/

theorem withHead_empty (f : BagRun → Verdict) (hqueue : s.bag.queue = []) : withHead s f = .refuse .noSuch 0 := by
  rw [withHead, headRun_empty hqueue]

theorem withHead_of_queue {r : BagRun} {rest : List BagRun} (f : BagRun → Verdict) (hqueue : s.bag.queue = r :: rest) :
    withHead s f = f r := by
  rw [withHead, headRun_of_queue hqueue]

theorem execBagRunStop_empty (hroom : s.replyRoom = true) (hqueue : s.bag.queue = []) :
    execBagRunStop tag s = refusedWith s (.bagRunStop tag) .noSuch 0 :=
  serve_refused hroom fun l => withHead_empty (s := s.setLink l) _ hqueue

/-- The stop of a run that stays head leaves its whole tail (R170). -/
theorem tailRemaining_stopped {r : BagRun} {rest : List BagRun} (hqueue : s.bag.queue =
    { r with stopTaken := true, tailLeft := r.tail } :: rest) : tailRemaining s r = r.tail := by
  rw [tailRemaining, headRun_of_queue hqueue]
  exact if_pos rfl

theorem execBagRunStop_withBag {r : BagRun} {rest : List BagRun} (hroom : s.replyRoom = true) (hqueue : s.bag.queue = r :: rest)
    (hclass : r.stop = .command) (htaken : r.stopTaken = false)
    (hstate : r.state = .filling ∨ r.state = .checking ∨ r.state = .releasing) :
    execBagRunStop tag s = accepted s (.bagRunStop tag)
      (fun u => u.setBag { u.bag with queue := { r with stopTaken := true, tailLeft := r.tail } :: rest })
      (fun _ => [.u8 r.tail]) := by
  have hown : decide (r.stop = .command ∧ r.stopTaken = false) = true := decide_eq_true ⟨hclass, htaken⟩
  refine serve_accepted hroom fun l => ⟨stopRun (s.setLink l) r, fun u => [.u8 (tailRemaining u r)], ?_, ?_, ?_⟩
  · rw [withHead_of_queue (s := s.setLink l) _ hqueue, hown, checked_pass, checked_nil]
  · rw [stopRun_withBag hstate, putHead_of_queue (s := s.setLink l) hqueue]
    rfl
  · exact congrArg (fun n => [Item.u8 n]) (tailRemaining_stopped (rest := rest) rfl)

/-- Settles O51: each request passes its checks, or fails the one that its clause names, and nothing follows its execution. -/
theorem baggerRequests : Obligations.BaggerRequests := by
  intro s tag hroom
  refine ⟨fun check release hsave hcheck hlow hhigh => ?_,
    fun f start arming stop v made c hstart harming hstop hranged hfresh hplace hqueue hv hkind houtlet hlocked hledger hc
      hmade => ?_, fun hqueue hrun => ?_, fun hstop => ?_, fun hqueue => ?_, fun r rest hqueue hclass htaken hstate => ?_⟩
  · exact execBaggerSet_accepted hroom hsave hcheck hlow hhigh
  · have h : BagQueueable (dropFrame s) f start arming stop v :=
      ⟨hstart, harming, hstop, hranged, hfresh, hplace, hv, hkind, houtlet, hlocked, hledger⟩
    subst hc
    exact execBagQueue_behind hroom h hqueue hmade
  · exact execBagRunStart_empty hroom hqueue hrun
  · exact execBagRunStart_stopped hroom hstop
  · exact execBagRunStop_empty hroom hqueue
  · exact execBagRunStop_withBag hroom hqueue hclass htaken hstate

end

end Sys2Proof.Machine

/-! PROOFS. The dispatch list: DISPATCH_TAKE, TRUCK_OUT, and the bound that every command keeps (R190, R191). -/

namespace Sys2Proof.Machine

section

variable {s t u : State} {c : Instr} {tag : Byte} {o : Order}

/-! ### Commands that leave the book alone -/

theorem relevelNotice_book (s : State) (source level : Nat) : (relevelNotice s source level).book = s.book := by
  unfold relevelNotice
  split <;> rfl

theorem judgeFrame_book (s : State) (l : Link) (bytes : List Byte) : (judgeFrame s l bytes).book = s.book := by
  unfold judgeFrame
  dsimp only
  split_ifs <;> rfl

theorem takeChar_book (s : State) (x : Byte) : (takeChar s x).book = s.book := by
  unfold takeChar
  dsimp only
  split
  case h_7 => exact judgeFrame_book _ _ _
  all_goals repeat' split
  all_goals rfl

theorem receive_book (chars : List Byte) (s : State) : (chars.foldl takeChar s).book = s.book := by
  induction chars generalizing s with
  | nil => rfl
  | cons x chars ih => exact (ih _).trans (takeChar_book s x)

theorem framingError_book (s : State) : (framingError s).book = s.book := by
  unfold framingError
  split_ifs <;> rfl

theorem endSave_book (s : State) (ok : Bool) : (endSave s ok).book = s.book := by
  unfold endSave
  split <;> rfl

theorem chooseSend_book (s : State) : (chooseSend s).book = s.book := by
  unfold chooseSend
  split
  · rfl
  · split <;> rfl

theorem offerLineStop_book (old s : State) : (offerLineStop old s).book = s.book := by
  unfold offerLineStop
  split
  · rfl
  · split_ifs
    · rfl
    · unfold State.offer
      split_ifs <;> rfl
    · rfl
    · rfl

/-- A full reset empties the book (R220). -/
theorem fullReset_book (s : State) (strapB strapA : Bool) : (fullReset s strapB strapA).book = bootBook := by
  unfold fullReset
  split <;> rfl

/-! ### The bound of the dispatch list -/

/-- From `s` to `t` the dispatch list stays within its eight records. -/
def DispatchKept (s t : State) : Prop :=
  s.book.dispatch.length ≤ Config.dispatchCap → t.book.dispatch.length ≤ Config.dispatchCap

namespace DispatchKept

theorem trans (h : DispatchKept s t) (k : DispatchKept t u) : DispatchKept s u := k ∘ h

theorem of_book (h : t.book = s.book) : DispatchKept s t := fun hs => by rwa [h]

theorem refl (s : State) : DispatchKept s s := id

theorem of_empty (h : t.book.dispatch = []) : DispatchKept s t := fun _ => by
  rw [h]
  exact Nat.zero_le _

theorem of_keeps (h : Keeps s t) : DispatchKept s t := h.dispatch

theorem of_requestKeeps (h : RequestKeeps c s t) : DispatchKept s t := by
  rcases h with rfl | ⟨-, u, r, hu, rfl⟩
  · exact refl _
  · exact fun hs => hu.dispatch hs

theorem settle {r : Result} (h : DispatchKept s r.1) (hu : Sys2Proof.Machine.settle r = some u) : DispatchKept s u :=
  h.trans (of_keeps ((Keeps.refl r.1).settle hu))

theorem outcome {r : Result} (h : DispatchKept s r.1) (hu : Sys2Proof.Machine.outcome r = .next u) : DispatchKept s u :=
  h.settle (outcome_next hu)

/-- A request keeps the bound when each execution that its judge accepts does. -/
theorem serve {judge : State → Verdict} (hj : ∀ u r items, judge u = .accept r items → DispatchKept u r.1)
    (h : Sys2Proof.Machine.serve c judge s = .next t) : DispatchKept s t := by
  rcases serve_next h with ⟨-, rfl⟩ | ⟨-, code, index, -, rfl⟩ | ⟨-, r, items, u, hr, hu, rfl⟩
  · exact refl _
  · exact of_book rfl
  · exact fun hs => ((hj _ r items hr).settle hu) hs

end DispatchKept

theorem execLinkStatus_dispatchKept {clear : Nat} (h : execLinkStatus tag clear s = .next t) : DispatchKept s t := by
  refine .serve (fun u r items hr => ?_) h
  split at hr
  · cases hr
  · cases hr; exact .refl u
  · cases hr; exact .of_book rfl

theorem execSettingsSave_dispatchKept (h : execSettingsSave tag s = .next t) : DispatchKept s t := by
  refine .serve (fun u r items hr => ?_) h
  cases checked_accept hr
  exact .of_book rfl

theorem execSourceLevelSet_dispatchKept {source level : Nat} (h : execSourceLevelSet tag source level s = .next t) :
    DispatchKept s t := by
  refine .serve (fun u r items hr => ?_) h
  cases checked_accept hr
  exact .of_book (relevelNotice_book _ _ _)

theorem execFloorSet_dispatchKept {floor : Nat} (h : execFloorSet tag floor s = .next t) : DispatchKept s t := by
  refine .serve (fun u r items hr => ?_) h
  cases checked_accept hr
  exact .of_book rfl

theorem execUnknownKind_dispatchKept {kind : Byte} {body : List Byte} (h : execUnknownKind tag kind body s = .next t) :
    DispatchKept s t := by
  unfold execUnknownKind at h
  dsimp only at h
  split at h
  · cases h; exact .refl s
  · split at h
    all_goals cases h; exact .of_book rfl

theorem sendNext_dispatchKept (s : State) : DispatchKept s (sendNext s) := by
  unfold sendNext
  split
  · exact .of_book (chooseSend_book s)
  · split_ifs
    · exact .of_empty (by rw [fullReset_book]; rfl)
    · exact .of_book (chooseSend_book _)
    · exact .of_book rfl

theorem takeInputSample_dispatchKept (s : State) (levels : Nat) (analog : List Int) :
    DispatchKept s (takeInputSample s levels analog).1 := by
  have hsampled : Keeps s (setAnalogPins 0 analog (sampleInputs s levels)) :=
    Keeps.setAnalogPins analog 0 ((Keeps.refl s).sampleInputs levels)
  have hprobes := Keeps.foldResult (f := fun b u => sampleProbes s u b) (fun b u => (Keeps.refl u).sampleProbes s b)
    ((setAnalogPins 0 analog (sampleInputs s levels)).inv.bins.map (·.1)) (State.done _) hsampled
  have hoffers : ∀ v : State, Keeps v
      (offerMixerEmpty (offerMillFeedback (offerPressFeedback (offerPressFeedback v .one) .two))) := fun v =>
    ((((Keeps.refl v).offerPressFeedback .one).offerPressFeedback .two).offerMillFeedback).offerMixerEmpty
  exact ((DispatchKept.of_keeps (hprobes.offerEdges s)).trans (.of_book (offerLineStop_book s _))).trans
    (.of_keeps ((hoffers _).setIO _))

theorem bringLineStop_dispatchKept (s : State) (cause : StopCause) : DispatchKept s (bringLineStop s cause).1 := by
  unfold bringLineStop
  split
  · exact .of_book rfl
  · have hdrop : Keeps s ((s.arb.transfers.map (·.2)).foldl dropOutputs s) :=
      Keeps.foldl (fun u x => (Keeps.refl u).dropOutputs x) _ (Keeps.refl s)
    exact (DispatchKept.of_keeps hdrop).trans (.of_book rfl)

theorem execLineStop_dispatchKept (h : execLineStop tag s = .next t) : DispatchKept s t := by
  refine .serve (fun u r items hr => ?_) h
  cases hr
  exact bringLineStop_dispatchKept u .request

theorem execLineResume_dispatchKept (h : execLineResume tag s = .next t) : DispatchKept s t := by
  refine .serve (fun u r items hr => ?_) h
  split at hr
  · cases hr; exact .refl u
  · cases checked_accept hr
    exact .of_book rfl

/-- Every command keeps the dispatch list within its bound: what `exec_keeps` leaves out does not write it, or empties it. -/
theorem exec_dispatchKept (h : exec c s = .next t) : DispatchKept s t := by
  cases hc : changesKept c with
  | false => exact (exec_keeps hc h).elim .of_requestKeeps .of_keeps
  | true =>
    cases c with
    | linkStatus => exact execLinkStatus_dispatchKept h
    | settingsSave => exact execSettingsSave_dispatchKept h
    | lineStop => exact execLineStop_dispatchKept h
    | lineResume => exact execLineResume_dispatchKept h
    | sourceLevelSet => exact execSourceLevelSet_dispatchKept h
    | floorSet => exact execFloorSet_dispatchKept h
    | unknownKind => exact execUnknownKind_dispatchKept h
    | frameReceive chars => cases h; exact .of_book (receive_book chars s)
    | receiveError => cases h; exact .of_book (framingError_book s)
    | linkBreak => cases h; exact .of_book rfl
    | frameSent => cases h; exact sendNext_dispatchKept s
    | fullReset b a => cases h; exact .of_empty (by rw [fullReset_book]; rfl)
    | settingsSaveEnd ok => cases h; exact .of_book (endSave_book s ok)
    | inputSample levels analog => exact (takeInputSample_dispatchKept s levels analog).outcome h
    | lineStopInputActive => exact (bringLineStop_dispatchKept (s.takeOffered .lineStopInput) .input).outcome h
    | _ => cases hc

/-! ### DISPATCH_TAKE -/

theorem execDispatchTake_empty (hroom : s.replyRoom = true) (hlist : s.book.dispatch = []) :
    execDispatchTake tag s = refusedWith s (.dispatchTake tag) .noSuch 0 :=
  serve_refused hroom fun l => by simp only [State.setLink_book, hlist]

theorem execDispatchTake_oldest {d : Dispatch} {rest : List Dispatch} (hroom : s.replyRoom = true)
    (hlist : s.book.dispatch = d :: rest) : execDispatchTake tag s = accepted s (.dispatchTake tag)
      (fun u => u.setBook { u.book with dispatch := rest }) (fun _ => dispatchItems d) :=
  serve_plainly hroom fun l => by simp only [State.setLink_book, hlist]

/-! ### TRUCK_OUT -/

theorem Order.map_snd_indexed (o : Order) : o.indexed.map Prod.snd = o.lines :=
  List.map_snd_zip (by rw [List.length_map, List.length_range])

theorem Order.mem_lines_of_mem_indexed {e : Nat × OrderLine} (h : e ∈ o.indexed) : e.2 ∈ o.lines := (List.of_mem_zip h).2

/-- An order none of whose lines names a reservation claims nothing. -/
theorem Order.claims_of_unreserved (h : ∀ l ∈ o.lines, l.reservation = none) : o.claims = [] :=
  List.filterMap_eq_nil_iff.2 fun e he => by rw [h e.2 (Order.mem_lines_of_mem_indexed he), Option.map_none]

/-- A line of the dispatch record of an order that leaves a loadout that is not held: open lines are closed short (R190). -/
def departedLine (l : OrderLine) : DispatchLine :=
  ⟨l.product, l.bulk, if l.final then l.status else .closedShort, l.quantity, l.delivered, l.tally⟩

theorem dispatchOf_departed (o : Order) (x : Truck) (tare gross : Int) :
    dispatchOf o x tare gross (o.indexed.map fun e => leavingLine none e.1 e.2) =
      ⟨o.number, o.customer, tare, gross, gross - tare, x.compartments, o.lines.map departedLine⟩ := by
  have hline : ∀ e : Nat × OrderLine, (⟨(leavingLine none e.1 e.2).product, (leavingLine none e.1 e.2).bulk,
      (leavingLine none e.1 e.2).status, (leavingLine none e.1 e.2).quantity, (leavingLine none e.1 e.2).delivered,
      (leavingLine none e.1 e.2).tally⟩ : DispatchLine) = departedLine e.2 := fun e => by
    by_cases hfinal : e.2.final = true
    · simp only [leavingLine, departedLine, if_pos hfinal]
    · simp only [leavingLine, departedLine, if_neg hfinal, reduceCtorEq, if_false]
  simp only [dispatchOf, List.map_map, Function.comp_def, hline]
  rw [← o.map_snd_indexed, List.map_map]
  rfl

/-- The book after the truck has left with its order: the record is at the tail of the dispatch list (R190). -/
def departed (b : Book) (o : Order) (d : Dispatch) : Book where
  orders := b.orders.filter (fun y => decide (y.number ≠ o.number))
  loadout := ⟨.noTruck, none, false, false⟩
  dispatch := b.dispatch ++ [d]

theorem loadHeld_finished (h : s.book.loadout.state = .finished) : loadHeld s = false := by rw [loadHeld, h]

theorem sendTruck_unreserved {x : Truck} {tare : Int} (hstate : s.book.loadout.state = .finished) (htare : x.tare = some tare)
    (hfree : ∀ l ∈ o.lines, l.reservation = none) : sendTruck s o x =
      (s.setBook (departed s.book o ⟨o.number, o.customer, tare, (s.chan .truck).gross, (s.chan .truck).gross - tare,
        x.compartments, o.lines.map departedLine⟩), []) := by
  simp only [sendTruck, loadHeld_finished hstate, Bool.false_eq_true, if_false, Order.claims_of_unreserved hfree,
    htare, Option.getD_some, dispatchOf_departed]
  rfl

/-- A truck that is weighed full at a FINISHED loadout, its order still in the book (R190). -/
structure TruckReady (s : State) (x : Truck) (o : Order) (tare : Int) : Prop where
  truck : s.book.loadout.truck = some x
  order : s.truckOrder = some o
  tare : x.tare = some tare
  finished : s.book.loadout.state = .finished
  ok : (s.chan .truck).status = .ok
  stable : (s.chan .truck).stable = true

namespace TruckReady

variable {x : Truck} {tare : Int} {force : Nat}

theorem refused (h : TruckReady s x o tare) (hroom : s.replyRoom = true) (hforce : force ≤ 1)
    (hfull : Config.dispatchCap ≤ s.book.dispatch.length) :
    execTruckOut tag force s = refusedWith s (.truckOut tag force) .noRoom 0 := by
  refine serve_refused hroom fun l => ?_
  simp only [flagOf_of_le hforce, State.setLink_book, State.setLink_truckOrder, State.setLink_chan, h.truck, h.order, h.finished,
    h.ok, h.stable, decide_true, Bool.true_or, Bool.and_self, checked_pass, Nat.not_lt.2 hfull, decide_false, checked_fail]

theorem accepted (h : TruckReady s x o tare) (hroom : s.replyRoom = true) (hforce : force ≤ 1)
    (hplace : s.book.dispatch.length < Config.dispatchCap) (hfree : ∀ l ∈ o.lines, l.reservation = none) :
    execTruckOut tag force s = Sys2Proof.Machine.accepted s (.truckOut tag force)
      (fun u => u.setBook (departed u.book o ⟨o.number, o.customer, tare, (s.chan .truck).gross,
        (s.chan .truck).gross - tare, x.compartments, o.lines.map departedLine⟩))
      (fun _ => [.i32 (s.chan .truck).gross, .i32 ((s.chan .truck).gross - tare)]) := by
  refine serve_plainly hroom fun l => ?_
  have hsent := sendTruck_unreserved (s := s.setLink l) h.finished h.tare hfree
  simp only [flagOf_of_le hforce, State.setLink_book, State.setLink_truckOrder, State.setLink_chan, h.truck, h.order, h.finished,
    h.ok, h.stable, decide_true, Bool.true_or, Bool.and_self, checked_pass, hplace, checked_nil, hsent, h.tare,
    Option.getD_some]
  rfl

end TruckReady

/-- Settles O56: a reset empties the book, the two requests work on the list's ends, and every command keeps its bound by
`exec_dispatchKept`. -/
theorem dispatchListIsTakenOldestFirst : Obligations.DispatchListIsTakenOldestFirst := by
  refine ⟨fun s b a => ⟨_, rfl, by rw [fullReset_book]; rfl⟩, fun s tag hroom => ⟨?_, fun d rest => ?_⟩,
    fun s tag force x o tare hroom hx ho htare hstate hok hstable hforce => ?_, fun c s t hs h => exec_dispatchKept h hs⟩
  · exact execDispatchTake_empty hroom
  · exact execDispatchTake_oldest hroom
  · have h : TruckReady s x o tare := ⟨hx, ho, htare, hstate, hok, hstable⟩
    exact ⟨h.refused hroom hforce, h.accepted hroom hforce⟩

end

end Sys2Proof.Machine

/-! PROOFS. ORDER_ENTER; LINE_ASSIGN, LINE_CLOSE and ORDER_CANCEL while no truck is at the spout; TRUCK_IN; and LOADOUT_RESUME on a
line that is OVER (R178, R179, R181, R182, R184, R185, R189). -/

namespace Sys2Proof.Machine

section

variable {s : State} {tag : Byte} {order line bin : Nat} {o : Order} {l : OrderLine} {v : Bin}

/-! ### ORDER_ENTER -/

theorem firstFailing_eq_zero {checks : List Bool} (h : ∀ ok ∈ checks, ok = true) : firstFailing checks = 0 := by
  have hnone : checks.findIdx? (fun ok => !ok) = none := List.findIdx?_eq_none_iff.2 fun ok hok => by rw [h ok hok]; rfl
  rw [firstFailing, hnone]

theorem execOrderEnter_accepted {customer : Nat} {lines : List LineFields} (hroom : s.replyRoom = true) (hlow : 1 ≤ order)
    (hhigh : order ≤ max32) (hcustomer : customer ≤ max32) (hsome : lines ≠ []) (hsix : lines.length ≤ 6)
    (hranged : ∀ f ∈ lines, lineInRange f = true) (hnew : s.order order = none)
    (hplace : s.book.orders.length < Config.orderCap) :
    execOrderEnter tag order customer lines s = accepted s (.orderEnter tag order customer lines)
      (fun u => u.setBook { u.book with orders := u.book.orders ++ [⟨order, customer, .opened, lines.map newLine⟩] })
      (fun _ => []) := by
  have hfields : ¬(order = 0 ∨ max32 < order ∨ max32 < customer ∨ lines = [] ∨ 6 < lines.length) := by
    simp only [hsome, false_or]
    omega
  have hlines : firstFailing (lines.map lineInRange) = 0 := firstFailing_eq_zero (List.forall_mem_map.2 hranged)
  refine serve_plainly hroom fun k => ?_
  simp only [if_neg hfields, hlines, ne_eq, not_true_eq_false, if_false, State.setLink_order, hnew, Option.isNone_none,
    State.setLink_book, hplace, decide_true, checked_pass, checked_nil]

/-! ### A line named by a request -/

theorem order_number (h : s.order order = some o) : o.number = order := by
  simpa using List.find?_some h

theorem Order.line_pos (h : o.line line = some l) : line ≠ 0 := by
  rintro rfl
  cases h

theorem withLine_named (f : Order → OrderLine → Verdict) (ho : s.order order = some o) (hl : o.line line = some l)
    (hsix : line ≤ 6) : withLine s order line f = f o l := by
  have hrange : ¬(line = 0 ∨ 6 < line) := not_or.2 ⟨Order.line_pos hl, Nat.not_lt.2 hsix⟩
  simp only [withLine, if_neg hrange, ho, hl]

/-! ### Orders away from the spout -/

theorem atSpout_noTruck (h : s.book.loadout.truck = none) (order : Nat) : atSpout s order = false := by
  simp only [atSpout, h, Option.map_none, reduceCtorEq, decide_false]

theorem waitsOn_noTruck (h : s.book.loadout.truck = none) (o : Order) (line : Nat) : waitsOn s o line = false := by
  rw [waitsOn, atSpout_noTruck h, Bool.false_and]

/-- A line that holds nothing gets its reservation, and nothing follows (R179). -/
theorem assignLine_away (htruck : s.book.loadout.truck = none) (hfree : l.reservation = none) {made : State × Nat}
    (hmade : made = createOne s bin (.orderLine o.number line) l.remaining) : assignLine s o line l bin =
      plain (made.1.putOrder (o.putLine line { l with bin := some bin, reservation := some made.2, status := .assigned }))
        [.u16 made.2, .u8 (flagCode (!made.1.reservationFull made.2))] := by
  subst hmade
  simp only [assignLine, hfree, Option.filter_none, closeHeld, State.done, waitsOn_noTruck htruck, Bool.and_false,
    Bool.false_eq_true, if_false, List.append_nil]
  rfl

/-- LINE_ASSIGN passes every check of R179, on an open line that holds nothing. -/
structure LineAssignable (s : State) (o : Order) (line bin : Nat) (l : OrderLine) (v : Bin) : Prop where
  order : s.order o.number = some o
  named : o.line line = some l
  six : line ≤ 6
  binLow : 1 ≤ bin
  binHigh : bin ≤ Config.binCount
  bulk : l.bulk = true
  opened : l.status = .opened
  defined : s.bin bin = some v
  kind : v.cfg.kind = .finished
  outlet : v.cfg.outlet = .truck
  code : v.cfg.code = l.product
  unlocked : v.locked = false
  ledger : s.inv.reservations.length < Config.reservationCap

theorem execLineAssign_away (hroom : s.replyRoom = true) (h : LineAssignable (dropFrame s) o line bin l v)
    (htruck : s.book.loadout.truck = none) (hfree : l.reservation = none) {made : State × Nat}
    (hmade : made = createOne (dropFrame s) bin (.orderLine o.number line) l.remaining) :
    execLineAssign tag o.number line bin s = inTurn s (.lineAssign tag o.number line bin)
      (answer (made.1.putOrder (o.putLine line { l with bin := some bin, reservation := some made.2, status := .assigned }))
        (replyTo (.lineAssign tag o.number line bin) .ok 0 [.u16 made.2, .u8 (flagCode (!made.1.reservationFull made.2))])) := by
  have hbin : ¬(bin = 0 ∨ Config.binCount < bin) := not_or.2 ⟨Nat.ne_zero_of_lt h.binLow, Nat.not_lt.2 h.binHigh⟩
  refine serve_inTurn hroom fun ht => serve_plain ht (Eq.trans ?_ (assignLine_away (s := dropFrame s) htruck hfree hmade))
  simp only [if_neg hbin, withLine_named _ h.order h.named h.six, h.bulk, h.opened, h.defined, h.kind, h.outlet, h.code,
    true_or, and_self, decide_true, Bool.and_self, Option.isSome_some, Option.map_some, Option.getD_some, checked_pass, checked_nil,
    claimRefusal_single h.defined h.unlocked h.ledger]

/-- A line can be closed while it is open or assigned (R181). -/
theorem OrderLine.closable_eq (l : OrderLine) :
    (decide (l.status ≠ .loading) && !l.final) = decide (l.status = .opened ∨ l.status = .assigned) := by
  unfold OrderLine.final
  cases l.status <;> rfl

theorem closeLine_away (htruck : s.book.loadout.truck = none) (hfree : l.reservation = none) :
    closeLine s o line l = (s.putOrder (o.putLine line { l with status := .closedShort }), []) := by
  simp only [closeLine, hfree, closeHeld, State.done, atSpout_noTruck htruck, waitsOn_noTruck htruck, Bool.and_false,
    Bool.false_eq_true, if_false, List.append_nil]

theorem execLineClose_away (hroom : s.replyRoom = true) (ho : s.order order = some o) (hl : o.line line = some l)
    (hsix : line ≤ 6) (htruck : s.book.loadout.truck = none) (hstatus : l.status = .opened ∨ l.status = .assigned)
    (hfree : l.reservation = none) : execLineClose tag order line s = accepted s (.lineClose tag order line)
      (fun u => u.putOrder (o.putLine line { l with status := .closedShort })) (fun _ => [.u32 l.delivered]) := by
  refine serve_plainly hroom fun k => ?_
  have hclosed := closeLine_away (s := s.setLink k) (o := o) (line := line) htruck hfree
  rw [withLine_named (s := s.setLink k) _ ho hl hsix, l.closable_eq, decide_eq_true hstatus, checked_pass, checked_nil, hclosed]
  rfl

theorem execLineClose_refused (hroom : s.replyRoom = true) (ho : s.order order = some o) (hl : o.line line = some l)
    (hsix : line ≤ 6) (hstatus : ¬(l.status = .opened ∨ l.status = .assigned)) :
    execLineClose tag order line s = refusedWith s (.lineClose tag order line) .wrongState 0 := by
  refine serve_refused hroom fun k => ?_
  rw [withLine_named (s := s.setLink k) _ ho hl hsix, l.closable_eq, decide_eq_false hstatus, checked_fail]

/-! ### ORDER_CANCEL -/

theorem listItems_single {α : Type} (l : List α) (f : α → Item) :
    listItems l (fun x => [f x]) = .u8 l.length :: l.map f := by
  rw [listItems, List.map_eq_flatMap]

theorem execOrderCancel_unreserved (hroom : s.replyRoom = true) (ho : s.order order = some o) (hstate : o.state = .opened)
    (hfree : ∀ l ∈ o.lines, l.reservation = none) : execOrderCancel tag order s = accepted s (.orderCancel tag order)
      (fun u => u.dropOrder order) (fun _ => .u8 o.lines.length :: o.lines.map (fun l => .u32 l.delivered)) := by
  refine serve_plainly hroom fun k => ?_
  simp only [State.setLink_order, ho, hstate, decide_true, checked_pass, checked_nil, Order.claims_of_unreserved hfree,
    listItems_single]
  rfl

theorem execOrderCancel_refused (hroom : s.replyRoom = true) (ho : s.order order = some o) (hstate : o.state ≠ .opened) :
    execOrderCancel tag order s = refusedWith s (.orderCancel tag order) .wrongState 0 := by
  refine serve_refused hroom fun k => ?_
  simp only [State.setLink_order, ho, decide_eq_false hstate, checked_fail]

/-- Settles O54: each request passes its checks, or fails the one that its clause names; without a truck at the spout and without
a reservation to close nothing follows. -/
theorem orderRequests : Obligations.OrderRequests := by
  intro s tag order hroom
  refine ⟨fun customer lines hlow hhigh hcustomer hsome hsix hranged hnew hplace => ?_, fun o ho htruck => ⟨?_, ?_, ?_, ?_⟩⟩
  · exact execOrderEnter_accepted hroom hlow hhigh hcustomer hsome hsix hranged hnew hplace
  · intro line bin l v made c hsix hl hbinLow hbinHigh hbulk hopened hfree hv hkind houtlet hcode hunlocked hledger hc hmade
    obtain rfl := order_number ho
    subst hc
    have h : LineAssignable (dropFrame s) o line bin l v :=
      ⟨ho, hl, hsix, hbinLow, hbinHigh, hbulk, hopened, hv, hkind, houtlet, hcode, hunlocked, hledger⟩
    exact execLineAssign_away hroom h htruck hfree hmade
  · exact fun line l hsix hl => ⟨execLineClose_away hroom ho hl hsix htruck,
      fun hopened hassigned => execLineClose_refused hroom ho hl hsix (not_or.2 ⟨hopened, hassigned⟩)⟩
  · exact execOrderCancel_unreserved hroom ho
  · exact execOrderCancel_refused hroom ho

/-! ### TRUCK_IN -/

/-- TRUCK_IN names an order of the book and capacities in their range (R184). -/
structure TruckNamed (s : State) (order : Nat) (capacities : List Nat) (o : Order) : Prop where
  nonempty : capacities ≠ []
  six : capacities.length ≤ 6
  ranged : ∀ c ∈ capacities, 1 ≤ c ∧ c ≤ 60000000
  order : s.order order = some o

namespace TruckNamed

variable {capacities : List Nat}

theorem fields (h : TruckNamed s order capacities o) : ¬(capacities = [] ∨ 6 < capacities.length ∨
    capacities.all (fun c => decide (1 ≤ c ∧ c ≤ 60000000)) = false) := by
  have hall : capacities.all (fun c => decide (1 ≤ c ∧ c ≤ 60000000)) = true :=
    List.all_eq_true.2 fun c hc => decide_eq_true (h.ranged c hc)
  exact not_or.2 ⟨h.nonempty, not_or.2 ⟨Nat.not_lt.2 h.six, by rw [hall]; exact nofun⟩⟩

theorem comes (h : TruckNamed s order capacities o) (hroom : s.replyRoom = true) (hspout : s.book.loadout.state = .noTruck)
    (hopened : o.state = .opened) (hfits : truckMisfit o capacities = 0) :
    execTruckIn tag order capacities s = accepted s (.truckIn tag order capacities)
      (fun u => bringTruck u o capacities) (fun _ => []) := by
  refine serve_plainly hroom fun k => ?_
  simp only [if_neg h.fields, State.setLink_order, h.order, State.setLink_book, hspout, hopened, and_self, decide_true,
    checked_pass, checked_nil, hfits, ne_eq, not_true_eq_false, if_false]

theorem wrongState (h : TruckNamed s order capacities o) (hroom : s.replyRoom = true)
    (hstate : s.book.loadout.state ≠ .noTruck ∨ o.state ≠ .opened) :
    execTruckIn tag order capacities s = refusedWith s (.truckIn tag order capacities) .wrongState 0 := by
  have hblocked : ¬(s.book.loadout.state = .noTruck ∧ o.state = .opened) := not_and_or.2 hstate
  refine serve_refused hroom fun k => ?_
  simp only [if_neg h.fields, State.setLink_order, h.order, State.setLink_book, hblocked, decide_false, checked_fail]

theorem misfits {n : Nat} (h : TruckNamed s order capacities o) (hroom : s.replyRoom = true)
    (hspout : s.book.loadout.state = .noTruck) (hopened : o.state = .opened) (hmisfit : truckMisfit o capacities = n + 1) :
    execTruckIn tag order capacities s = refusedWith s (.truckIn tag order capacities) .outOfRange (n + 1) := by
  refine serve_refused hroom fun k => ?_
  simp only [if_neg h.fields, State.setLink_order, h.order, State.setLink_book, hspout, hopened, and_self, decide_true,
    checked_pass, checked_nil, hmisfit, ne_eq, Nat.succ_ne_zero, not_false_eq_true, if_true]

end TruckNamed

/-- Settles O55: the truck comes for an OPEN order that fits, at a free spout. -/
theorem truckInBringsTheTruck : Obligations.TruckInBringsTheTruck := by
  intro s tag order capacities o hroom hsome hsix hranged ho
  have h : TruckNamed s order capacities o := ⟨hsome, hsix, hranged, ho⟩
  refine ⟨fun hspout hopened hfits => ?_, h.wrongState hroom, fun n => h.misfits hroom⟩
  obtain rfl := order_number ho
  exact h.comes hroom hspout hopened hfits

/-! ### LOADOUT_RESUME -/

theorem nextBulk_of_final (h : ∀ x ∈ o.lines, x.final = true) : o.nextBulk = none :=
  List.find?_eq_none.2 fun e he => by
    rw [h e.2 (Order.mem_lines_of_mem_indexed he), Bool.not_true, Bool.and_false]
    exact Bool.false_ne_true

theorem truckOrder_of_currentLine (h : s.currentLine = some (o, line, l)) : s.truckOrder = some o := by
  obtain ⟨x, hx, ho, -, -⟩ := currentLine_inv h
  rw [State.truckOrder, hx, Option.bind_some, ho]

/-- Which line is current does not tell which order the truck has. -/
theorem setCurrent_truckOrder (s : State) (i : Option Nat) : (s.setCurrent i).truckOrder = s.truckOrder := by
  unfold State.setCurrent
  split
  · next x hx =>
    rw [State.truckOrder, State.truckOrder, hx]
    rfl
  · rfl

/-- The loadout FINISHED and its order LOADED (R185). -/
def loadoutFinished (s : State) (o : Order) : State :=
  (((s.setCurrent none).setLoadState .finished).putOrder { o with state := .loaded }).raise (.orderLoaded o.number)

theorem chooseLine_finished (ho : s.truckOrder = some o) (hfinal : ∀ x ∈ o.lines, x.final = true)
    (hstate : o.state = .loading) : chooseLine s = (loadoutFinished s o, []) := by
  have hjudged : ((s.setCurrent none).setLoadState .finished).truckOrder = some o := (setCurrent_truckOrder s none).trans ho
  have hloaded : ((s.setCurrent none).setLoadState .finished).book.loadout.state = .finished ∧ o.state = .loading ∧
      o.lines.all OrderLine.final = true := ⟨rfl, hstate, List.all_eq_true.2 hfinal⟩
  simp only [chooseLine, ho, nextBulk_of_final hfinal, judgeLoaded, hjudged, if_pos hloaded]
  rfl

theorem leads_chooseLine_finished (ho : s.truckOrder = some o) (hfinal : ∀ x ∈ o.lines, x.final = true)
    (hstate : o.state = .loading) : Leads .chooseLine s (loadoutFinished s o) :=
  .of_eq (chooseLine_finished ho hfinal hstate)

/-- The loadout is held, its current line OVER (R183, R187). -/
structure HeldOver (s : State) (o : Order) (i : Nat) (l : OrderLine) : Prop where
  running : s.stopped = false
  current : s.currentLine = some (o, i, l)
  held : loadHeld s = true
  overweight : l.status = .overWeight

namespace HeldOver

variable {i : Nat}

theorem final (h : HeldOver s o i l) : l.final = true := by rw [OrderLine.final, h.overweight]

theorem accepted (h : HeldOver s o i l) (hroom : s.replyRoom = true) (hfinal : ∀ x ∈ o.lines, x.final = true)
    (hstate : o.state = .loading) : execLoadoutResume tag 0 s =
      Sys2Proof.Machine.accepted s (.loadoutResume tag 0) (fun u => loadoutFinished u o) (fun _ => []) := by
  refine serve_accepted hroom fun k => ⟨(s.setLink k, [.chooseLine]), fun _ => [], ?_, ?_, rfl⟩
  · have hheld : loadHeld (s.setLink k) = true := h.held
    simp only [flagOf, State.setLink_stopped, h.running, hheld, State.setLink_currentLine, h.current, Bool.not_false, checked_pass,
      checked_nil, Bool.false_eq_true, if_false, acceptLoad, h.final, if_true]
  · exact Course.settle (.cons (leads_chooseLine_finished (truckOrder_of_currentLine h.current) hfinal hstate) (.nil _))

/-- RETRY finds the line final (R177, R189). -/
theorem refused (h : HeldOver s o i l) (hroom : s.replyRoom = true) :
    execLoadoutResume tag 1 s = refusedWith s (.loadoutResume tag 1) .wrongState 0 := by
  refine serve_refused hroom fun k => ?_
  have hheld : loadHeld (s.setLink k) = true := h.held
  simp only [flagOf, State.setLink_stopped, h.running, hheld, State.setLink_currentLine, h.current, Bool.not_false, checked_pass,
    checked_nil, if_true, retryChecks, h.final, Bool.not_true, Bool.and_false, Bool.false_and, checked_fail]

end HeldOver

theorem loadHeld_of_held {reason : LoadReason} {cause : LoadCause} (h : s.book.loadout.state = .held reason cause) :
    loadHeld s = true := by rw [loadHeld, h]

theorem loadHeld_of_ne (h : ∀ reason cause, s.book.loadout.state ≠ .held reason cause) : loadHeld s = false := by
  unfold loadHeld
  split
  · next reason cause hheld => exact absurd hheld (h reason cause)
  · rfl

theorem execLoadoutResume_notHeld {action : Nat} (hroom : s.replyRoom = true) (hrun : s.stopped = false) (haction : action ≤ 1)
    (h : ∀ reason cause, s.book.loadout.state ≠ .held reason cause) :
    execLoadoutResume tag action s = refusedWith s (.loadoutResume tag action) .wrongState 0 := by
  refine serve_refused hroom fun k => ?_
  have hheld : loadHeld (s.setLink k) = false := loadHeld_of_ne (s := s.setLink k) h
  simp only [flagOf_of_le haction, State.setLink_stopped, hrun, hheld, Bool.not_false, checked_pass, checked_fail]

/-- Settles O58: ACCEPT leaves a line that is OVER as it is, so that the loadout finds no line to choose. -/
theorem loadoutResumeAcceptsALine : Obligations.LoadoutResumeAcceptsALine := by
  intro s tag o i l hroom hrun hcurrent
  refine ⟨fun reason cause hheld hover hfinal hstate => ?_, execLoadoutResume_notHeld hroom hrun (Nat.zero_le 1)⟩
  have h : HeldOver s o i l := ⟨hrun, hcurrent, loadHeld_of_held hheld, hover⟩
  exact ⟨h.accepted hroom hfinal hstate, h.refused hroom⟩

end

end Sys2Proof.Machine

/-! PROOFS. The bounds of the Event Router, which every step keeps (R194, R197, R198, R200). -/

namespace Sys2Proof.Machine

section

variable {s t u : State} {c : Instr} {tag : Byte}

/-! ### What keeps the bounds -/

theorem State.RouterOk.keeps (hs : s.RouterOk) (h : Keeps s t) : t.RouterOk := by
  refine ⟨h.router hs.1, ?_⟩
  rw [h.store]
  exact hs.2

/-- What follows from an execution keeps the bounds. -/
theorem State.RouterOk.settle {r : Result} (hr : r.1.RouterOk) (h : Sys2Proof.Machine.settle r = some t) : t.RouterOk :=
  hr.keeps ((Keeps.refl r.1).settle h)

theorem State.RouterOk.outcome {r : Result} (hr : r.1.RouterOk) (h : Sys2Proof.Machine.outcome r = .next t) : t.RouterOk :=
  hr.settle (outcome_next h)

theorem State.RouterOk.requestKeeps (hs : s.RouterOk) (h : RequestKeeps c s t) : t.RouterOk := by
  rcases h with rfl | ⟨-, u, r, hu, rfl⟩
  · exact hs
  · have hu : u.RouterOk := State.RouterOk.keeps (s := dropFrame s) hs hu
    exact hu

/-- A request keeps the bounds when each execution that its judge accepts does: its frame and its reply are the link's. -/
theorem State.RouterOk.serve {judge : State → Verdict} (hs : s.RouterOk) (h : Sys2Proof.Machine.serve c judge s = .next t)
    (hj : ∀ u r items, u.RouterOk → judge u = .accept r items → r.1.RouterOk) : t.RouterOk := by
  rcases serve_next h with ⟨-, rfl⟩ | ⟨-, code, index, -, rfl⟩ | ⟨-, r, items, u, hr, hu, rfl⟩
  · exact hs
  · exact hs
  · have hu : u.RouterOk := (hj (dropFrame s) r items hs hr).settle hu
    exact hu

/-- An accepted request has passed its first check. -/
theorem checked_accept_passed {ok : Bool} {code : ReplyCode} {l : List (Bool × ReplyCode)} {v : Verdict} {r : Result}
    {items : State → List Item} (h : checked ((ok, code) :: l) v = .accept r items) : ok = true := by
  cases ok with
  | true => rfl
  | false => cases h

/-! ### Levels and the floor -/

theorem levelInRange_le {source level : Nat} (h : levelInRange source level = true) : level ≤ 7 := by
  obtain ⟨-, hlevel⟩ := Bool.and_eq_true_iff.1 h
  have hlevel : if source ≤ 2 then level = 7 else level ≤ 6 := of_decide_eq_true hlevel
  split_ifs at hlevel
  · exact hlevel.le
  · exact hlevel.trans (Nat.le_succ 6)

theorem setLevel_routerOk {level : Nat} (hlevel : level ≤ 7) (source : Nat) (hs : s.RouterOk) :
    (s.setLevel source level).RouterOk := by
  obtain ⟨⟨hlevels, hbounds⟩, hstore⟩ := hs
  refine ⟨⟨fun e he => ?_, hbounds⟩, hstore⟩
  rcases Table.mem_put he with rfl | he
  · exact hlevel
  · exact hlevels e he

/-- A pending notice takes the level its source is set to, and leaves the table when that is 0 (R194). -/
theorem relevelNotice_routerOk {level : Nat} (hlevel : level ≤ 7) (source : Nat) (hs : s.RouterOk) :
    (relevelNotice s source level).RouterOk := by
  obtain ⟨⟨hlevels, hfloor, hnotices, hslots⟩, hstore⟩ := id hs
  unfold relevelNotice
  split
  · exact hs
  · next n hn =>
    obtain ⟨hcount, hcount', -⟩ := hnotices _ (Table.mem_of_get hn)
    refine ⟨⟨hlevels, hfloor, fun e he => ?_, hslots⟩, hstore⟩
    by_cases hzero : level = 0
    · rw [State.setRouter_router, if_pos hzero] at he
      exact hnotices e (Table.mem_del he).1
    · rw [State.setRouter_router, if_neg hzero] at he
      rcases Table.mem_set he with rfl | he
      · exact ⟨hcount, hcount', Nat.pos_of_ne_zero hzero, hlevel⟩
      · exact hnotices e he

theorem execSourceLevelSet_routerOk {source level : Nat} (hs : s.RouterOk)
    (h : execSourceLevelSet tag source level s = .next t) : t.RouterOk := by
  refine hs.serve h fun u r items hu hr => ?_
  have hlevel : level ≤ 7 := levelInRange_le (checked_accept_passed hr)
  cases checked_accept hr
  exact relevelNotice_routerOk hlevel source (setLevel_routerOk hlevel source hu)

/-- A floor above 6 is taken as 6 (R198). -/
theorem execFloorSet_routerOk {floor : Nat} (hs : s.RouterOk) (h : execFloorSet tag floor s = .next t) : t.RouterOk := by
  refine hs.serve h fun u r items hu hr => ?_
  obtain ⟨⟨hlevels, -, hbounds⟩, hstore⟩ := hu
  cases checked_accept hr
  exact ⟨⟨hlevels, Nat.min_le_right _ _, hbounds⟩, hstore⟩

/-! ### The settings store and the full reset -/

/-- The copy that a save takes holds the levels in force (R218, R219). -/
theorem execSettingsSave_routerOk (hs : s.RouterOk) (h : execSettingsSave tag s = .next t) : t.RouterOk := by
  refine hs.serve h fun u r items hu hr => ?_
  cases checked_accept hr
  refine ⟨hu.1, fun x hx => ?_⟩
  rcases hx with hx | hx
  · cases hx
  · cases hx
    exact hu.1.1

/-- At the end of a save the copy becomes the image, or is lost (R219). -/
theorem endSave_routerOk (ok : Bool) (hs : s.RouterOk) : (endSave s ok).RouterOk := by
  unfold endSave
  split
  · refine ⟨hs.1, fun x hx => hs.2 x (.inr ?_)⟩
    cases ok with
    | true => exact hx.resolve_right nofun
    | false => exact absurd hx (by rintro (hx | hx) <;> cases hx)
  · exact hs

/-- A full reset takes its levels from the image, or none, and leaves no notice and no armed slot (R218, R220). -/
theorem fullReset_routerOk (strapB strapA : Bool) (hs : s.RouterOk) : (fullReset s strapB strapA).RouterOk := by
  unfold fullReset
  cases himage : s.store.image with
  | none => exact ⟨bootRouter_boundsOk nofun, fun x hx => by rcases hx with hx | hx <;> cases hx⟩
  | some x =>
    have hlevels : levelsOk x.levels := hs.2 x (.inl himage)
    refine ⟨bootRouter_boundsOk hlevels, fun y hy => ?_⟩
    rcases hy with hy | hy
    · cases hy; exact hlevels
    · cases hy

/-! ### The Link Port -/

theorem judgeFrame_frame (s : State) (l : Link) (bytes : List Byte) :
    ∃ l' w, judgeFrame s l bytes = (s.setLink l').setRouter { s.router with waiting := w } := by
  unfold judgeFrame
  dsimp only
  split_ifs
  all_goals exact ⟨_, _, rfl⟩

/-- The receiver writes the link, and raises an overrun at most (R213). -/
theorem takeChar_frame (s : State) (x : Byte) :
    ∃ l w, takeChar s x = (s.setLink l).setRouter { s.router with waiting := w } := by
  unfold takeChar
  dsimp only
  split
  case h_7 => exact judgeFrame_frame _ _ _
  all_goals repeat' split
  all_goals exact ⟨_, _, rfl⟩

theorem receive_routerOk (chars : List Byte) (hs : s.RouterOk) : (chars.foldl takeChar s).RouterOk := by
  induction chars generalizing s with
  | nil => exact hs
  | cons x chars ih =>
    obtain ⟨l, w, h⟩ := takeChar_frame s x
    refine ih ?_
    rw [h]
    exact hs

theorem framingError_routerOk (hs : s.RouterOk) : (framingError s).RouterOk := by
  unfold framingError
  split_ifs
  · exact hs
  · exact hs

theorem execLinkStatus_routerOk {clear : Nat} (hs : s.RouterOk) (h : execLinkStatus tag clear s = .next t) : t.RouterOk := by
  refine hs.serve h fun u r items hu hr => ?_
  split at hr
  · cases hr
  · cases hr; exact hu
  · cases hr; exact hu

theorem execUnknownKind_routerOk {kind : Byte} {body : List Byte} (hs : s.RouterOk)
    (h : execUnknownKind tag kind body s = .next t) : t.RouterOk := by
  unfold execUnknownKind at h
  dsimp only at h
  split at h
  · cases h; exact hs
  · split at h
    · cases h; exact hs
    · cases h; exact hs

/-- The transmit choice takes a notice from the table at most (R199). -/
theorem chooseSend_routerOk (hs : s.RouterOk) : (chooseSend s).RouterOk := by
  obtain ⟨⟨hlevels, hfloor, hnotices, hslots⟩, hstore⟩ := id hs
  unfold chooseSend
  split
  · exact hs
  · split
    · exact ⟨⟨hlevels, hfloor, fun e he => hnotices e (Table.mem_del he).1, hslots⟩, hstore⟩
    · exact hs

theorem sendNext_routerOk (hs : s.RouterOk) : (sendNext s).RouterOk := by
  unfold sendNext
  split
  · exact chooseSend_routerOk hs
  · split_ifs
    · exact fullReset_routerOk _ _ hs
    · exact chooseSend_routerOk (s := s.setLink _) hs
    · exact hs

/-! ### Input samples and the Line Stop -/

/-- Of what `Keeps` lists an input sample changes the causes of a Line Stop alone (R60, R81). -/
theorem takeInputSample_routerOk (levels : Nat) (analog : List Int) (hs : s.RouterOk) :
    (takeInputSample s levels analog).1.RouterOk := by
  have hsampled : Keeps s (setAnalogPins 0 analog (sampleInputs s levels)) :=
    Keeps.setAnalogPins analog 0 ((Keeps.refl s).sampleInputs levels)
  have hprobes := Keeps.foldResult (f := fun b u => sampleProbes s u b) (fun b u => (Keeps.refl u).sampleProbes s b)
    ((setAnalogPins 0 analog (sampleInputs s levels)).inv.bins.map (·.1)) (State.done _) hsampled
  have hstop (v : State) (hv : v.RouterOk) : (offerLineStop s v).RouterOk := by
    unfold offerLineStop
    split
    · exact hv
    · split_ifs
      · exact hv
      · exact hv.keeps ((Keeps.refl v).offer _)
      · exact hv
      · exact hv
  have hoffers (v : State) : Keeps v
      (offerMixerEmpty (offerMillFeedback (offerPressFeedback (offerPressFeedback v .one) .two))) :=
    ((((Keeps.refl v).offerPressFeedback .one).offerPressFeedback .two).offerMillFeedback).offerMixerEmpty
  exact (hstop _ (hs.keeps (hprobes.offerEdges s))).keeps ((hoffers _).setIO _)

theorem bringLineStop_routerOk (cause : StopCause) (hs : s.RouterOk) : (bringLineStop s cause).1.RouterOk := by
  cases hstop : s.stopped with
  | true =>
    rw [bringLineStop_stopped hstop]
    exact hs
  | false =>
    obtain ⟨inv, io, arb, hframe⟩ := lineStopped_frame s cause
    rw [bringLineStop_running hstop, hframe]
    exact hs

theorem execLineStop_routerOk (hs : s.RouterOk) (h : execLineStop tag s = .next t) : t.RouterOk := by
  refine hs.serve h fun u r items hu hr => ?_
  cases hr
  exact bringLineStop_routerOk .request hu

theorem execLineResume_routerOk (hs : s.RouterOk) (h : execLineResume tag s = .next t) : t.RouterOk := by
  refine hs.serve h fun u r items hu hr => ?_
  split at hr
  · cases hr; exact hu
  · cases checked_accept hr
    exact hu

/-! ### Every command -/

/-- Every command keeps the bounds: what `exec_keeps` leaves out writes levels, floor, notices or the store within them, or none of
these. -/
theorem exec_routerOk (hs : s.RouterOk) (h : exec c s = .next t) : t.RouterOk := by
  cases hc : changesKept c with
  | false => exact (exec_keeps hc h).elim hs.requestKeeps hs.keeps
  | true =>
    cases c with
    | linkStatus => exact execLinkStatus_routerOk hs h
    | settingsSave => exact execSettingsSave_routerOk hs h
    | lineStop => exact execLineStop_routerOk hs h
    | lineResume => exact execLineResume_routerOk hs h
    | sourceLevelSet => exact execSourceLevelSet_routerOk hs h
    | floorSet => exact execFloorSet_routerOk hs h
    | unknownKind => exact execUnknownKind_routerOk hs h
    | frameReceive chars => cases h; exact receive_routerOk chars hs
    | receiveError => cases h; exact framingError_routerOk hs
    | linkBreak => cases h; exact hs
    | frameSent => cases h; exact sendNext_routerOk hs
    | fullReset b a => cases h; exact fullReset_routerOk b a hs
    | settingsSaveEnd ok => cases h; exact endSave_routerOk ok hs
    | inputSample levels analog => exact (takeInputSample_routerOk levels analog hs).outcome h
    | lineStopInputActive => exact (bringLineStop_routerOk (s := s.takeOffered .lineStopInput) .input hs).outcome h
    | _ => cases hc

/-- Settles O7: by `exec_routerOk`; a tick touches neither router nor store. -/
theorem stepKeepsRouterOk : Obligations.StepKeepsRouterOk := by
  intro s t hs h
  unfold step at h
  split at h
  · cases h
    exact hs
  · next c rest _ => exact exec_routerOk (s := s.setPending rest) hs h

end

end Sys2Proof.Machine

/-! PROOFS. The transmit choice at the end of a frame: replies before notices, and of the notices the best (R199, R214, R220). -/

namespace Sys2Proof.Machine

section

variable {s : State} {f : Frame}

/-! ### The best notice -/

theorem bestNotice_eq_none {l : List (Nat × Notice)} (h : bestNotice l = none) : l = [] := by
  cases l with
  | nil => rfl
  | cons e l =>
    unfold bestNotice at h
    split at h
    · cases h
    · split_ifs at h

/-- At least as good a notice to send: of a higher level, or of the same level and no higher source (R199). -/
def Outranks (e x : Nat × Notice) : Prop := x.2.level < e.2.level ∨ (x.2.level = e.2.level ∧ e.1 ≤ x.1)

theorem Outranks.refl (e : Nat × Notice) : Outranks e e := .inr ⟨rfl, le_rfl⟩

theorem Outranks.trans {e x y : Nat × Notice} (h : Outranks e x) (k : Outranks x y) : Outranks e y := by
  unfold Outranks at *
  omega

theorem outranks_of_not_better {e b : Nat × Notice} (h : ¬(e.2.level < b.2.level ∨ (e.2.level = b.2.level ∧ b.1 < e.1))) :
    Outranks e b := by
  unfold Outranks
  omega

theorem outranks_of_better {e b : Nat × Notice} (h : e.2.level < b.2.level ∨ (e.2.level = b.2.level ∧ b.1 < e.1)) :
    Outranks b e := by
  unfold Outranks
  omega

/-- The best notice is one of the list, and outranks all of it (R199). -/
theorem bestNotice_mem_outranks {l : List (Nat × Notice)} {e : Nat × Notice} (h : bestNotice l = some e) :
    e ∈ l ∧ ∀ x ∈ l, Outranks e x := by
  induction l generalizing e with
  | nil => cases h
  | cons a l ih =>
    cases hl : bestNotice l with
    | none =>
      cases bestNotice_eq_none hl
      cases h
      exact ⟨List.mem_cons_self, List.forall_mem_singleton.2 (Outranks.refl a)⟩
    | some b =>
      obtain ⟨hmem, hbest⟩ := ih hl
      simp only [bestNotice, hl] at h
      split_ifs at h with hbetter
      · cases h
        exact ⟨List.mem_cons_of_mem _ hmem, List.forall_mem_cons.2 ⟨outranks_of_better hbetter, hbest⟩⟩
      · cases h
        have hab : Outranks a b := outranks_of_not_better hbetter
        exact ⟨List.mem_cons_self, List.forall_mem_cons.2 ⟨Outranks.refl a, fun x hx => hab.trans (hbest x hx)⟩⟩

/-! ### The transmit choice -/

theorem chooseSend_reply {r : Reply} {rest : List Reply} (h : s.link.replies = r :: rest) :
    chooseSend s = s.setLink { s.link with replies := rest, tx := r.frames } := by
  simp only [chooseSend, h]

theorem chooseSend_notice {source : Nat} {n : Notice} (h : s.link.replies = [])
    (hbest : bestNotice s.eligible = some (source, n)) : chooseSend s =
      (s.setRouter { s.router with notices := Table.del s.router.notices source }).setLink
        { s.link with tx := [noticeFrame source n] } := by
  simp only [chooseSend, h, hbest]

theorem chooseSend_none (h : s.link.replies = []) (hnone : s.eligible = []) : chooseSend s = s := by
  simp only [chooseSend, h, hnone, bestNotice]

/-! ### The end of a frame -/

/-- The frames of one reply follow one another (R214). -/
theorem sendNext_more {g : Frame} {rest : List Frame} (h : s.link.tx = f :: g :: rest) (hf : isRestartReply f = false) :
    sendNext s = s.setLink { s.link with tx := g :: rest } := by
  simp only [sendNext, h, hf, Bool.false_eq_true, if_false, List.isEmpty_cons]

theorem sendNext_restart {rest : List Frame} (h : s.link.tx = f :: rest) (hf : isRestartReply f = true) :
    sendNext s = fullReset s s.link.strapB s.link.strapA := by
  simp only [sendNext, h, hf, if_true]

/-- The transmitter has nothing left to send: it is idle, or finishes its last frame, which is not RESTART's reply. -/
def State.transmitted (s : State) : Prop := s.link.tx = [] ∨ ∃ f, s.link.tx = [f] ∧ isRestartReply f = false

theorem setLink_tx_idle (h : s.link.tx = []) : s.setLink { s.link with tx := [] } = s := by
  rw [← h]
  rfl

theorem sendNext_transmitted (h : s.transmitted) : sendNext s = chooseSend (s.setLink { s.link with tx := [] }) := by
  rcases h with hidle | ⟨f, hlast, hf⟩
  · rw [setLink_tx_idle hidle]
    simp only [sendNext, hidle]
  · simp only [sendNext, hlast, hf, Bool.false_eq_true, if_false, List.isEmpty_nil, if_true]

/-- A full reset reads the rate from the straps and leaves nothing to send and nothing received (R205, R220). -/
theorem fullReset_link (s : State) (strapB strapA : Bool) : (fullReset s strapB strapA).link = bootLink strapB strapA := by
  unfold fullReset
  split <;> rfl

theorem exec_frameSent (s : State) : exec .frameSent s = .next (sendNext s) := rfl

/-- Settles O13: the three ends of a frame by `sendNext`'s branches, and the best notice by `bestNotice_mem_outranks`. -/
theorem transmitterTakesRepliesFirst : Obligations.TransmitterTakesRepliesFirst := by
  refine ⟨fun s => ⟨fun f g rest htx hf => ?_, fun f rest htx hf => ?_, fun hsent => ?_⟩, fun l e => bestNotice_mem_outranks⟩
  · rw [exec_frameSent, sendNext_more htx hf]
  · have hexec : exec .frameSent s = .next (fullReset s s.link.strapB s.link.strapA) := by
      rw [exec_frameSent, sendNext_restart htx hf]
    refine ⟨hexec, _, hexec, ?_⟩
    rw [fullReset_link]
    exact ⟨rfl, rfl, rfl, rfl⟩
  · rw [exec_frameSent, sendNext_transmitted hsent]
    exact ⟨fun r rest hr => congrArg _ (chooseSend_reply (s := s.setLink _) hr),
      fun source n hr hbest => congrArg _ (chooseSend_notice (s := s.setLink _) hr hbest),
      fun hr hnone => congrArg _ (chooseSend_none (s := s.setLink _) hr hnone)⟩

end

end Sys2Proof.Machine

/-! PROOFS. The Event Router's requests SOURCE_LEVEL_SET, FLOOR_SET, SLOT_ARM and SLOT_DISARM, and an occurrence that no listener takes,
which its slot counts or the notice table holds (R194, R195, R197, R198, R200 to R202, R204). -/

namespace Sys2Proof.Machine

section

variable {s t u : State} {tag : Byte} {e : Event} {rest : List Event} {k : Nat}

/-! ### SOURCE_LEVEL_SET -/

theorem levelInRange_settable {source level : Nat} (hlow : 3 ≤ source) (hhigh : source ≤ 40) (hlevel : level ≤ 6) :
    levelInRange source level = true := by
  have hfree : ¬source ≤ 2 := by omega
  simp only [levelInRange, if_neg hfree, Bool.and_eq_true, decide_eq_true_eq]
  exact ⟨⟨by omega, hhigh⟩, hlevel⟩

/-- Sources 1 and 2 have level 7 at all times (R194). -/
theorem levelInRange_fixed {source level : Nat} (hsource : source = 1 ∨ source = 2) (hlevel : level ≠ 7) :
    levelInRange source level = false := by
  have hfixed : source ≤ 2 := by omega
  simp only [levelInRange, if_pos hfixed, decide_eq_false hlevel, Bool.and_false]

theorem relevelNotice_none {source : Nat} (h : Table.get s.router.notices source = none) (level : Nat) :
    relevelNotice s source level = s := by
  simp only [relevelNotice, h]

theorem relevelNotice_some {source : Nat} {n : Notice} (h : Table.get s.router.notices source = some n) (level : Nat) :
    relevelNotice s source level = s.setRouter { s.router with
      notices := if level = 0 then Table.del s.router.notices source
        else Table.set s.router.notices source { n with level := level } } := by
  simp only [relevelNotice, h]

/-- A level in range is taken, by the source and by its pending notice, while no save runs; the reply is the old one (R194). -/
theorem execSourceLevelSet_accepted {source level : Nat} (hroom : s.replyRoom = true) (hsave : s.saving = false)
    (hlow : 3 ≤ source) (hhigh : source ≤ 40) (hlevel : level ≤ 6) {f : State → State}
    (hf : ∀ l : Link, relevelNotice ((s.setLink l).setLevel source level) source level = f (s.setLink l)) :
    execSourceLevelSet tag source level s = accepted s (.sourceLevelSet tag source level) f (fun _ => [.u8 (s.level source)]) :=
  serve_plainly hroom fun l => by
    simp only [levelInRange_settable hlow hhigh hlevel, State.setLink_saving, hsave, Bool.not_false, checked_pass, checked_nil, hf,
      State.setLink_level]

theorem execSourceLevelSet_refused {source level : Nat} (hroom : s.replyRoom = true) (hsource : source = 1 ∨ source = 2)
    (hlevel : level ≠ 7) : execSourceLevelSet tag source level s = refusedWith s (.sourceLevelSet tag source level) .outOfRange 0 :=
  serve_refused hroom fun l => by rw [levelInRange_fixed hsource hlevel, checked_fail]

/-! ### FLOOR_SET -/

theorem execFloorSet_accepted {floor : Nat} (hroom : s.replyRoom = true) (hfloor : floor ≤ 255) :
    execFloorSet tag floor s = accepted s (.floorSet tag floor) (fun u => u.setRouter { u.router with floor := min floor 6 })
      (fun _ => [.u8 (min floor 6), .u8 (flagCode (decide (6 < floor))), .u8 s.router.floor]) :=
  serve_plainly hroom fun l => by simp only [decide_eq_true hfloor, checked_pass, checked_nil, State.setLink_router]

/-! ### SLOT_ARM and SLOT_DISARM -/

theorem execSlotArm_free {f : SlotFields} {v : Slot} (hroom : s.replyRoom = true) (hk : f.slot < 8) (hv : slotOf f = some v)
    (hfree : (s.slot f.slot).armed = false) :
    execSlotArm tag f s = accepted s (.slotArm tag f) (fun u => u.setSlot f.slot v) (fun _ => []) :=
  serve_plainly hroom fun l => by
    simp only [hv, decide_eq_true hk, State.setLink_slot, hfree, Bool.not_false, checked_pass, checked_nil]

theorem execSlotArm_armed {f : SlotFields} {v : Slot} (hroom : s.replyRoom = true) (hk : f.slot < 8) (hv : slotOf f = some v)
    (harmed : (s.slot f.slot).armed = true) : execSlotArm tag f s = refusedWith s (.slotArm tag f) .wrongState 0 :=
  serve_refused hroom fun l => by
    simp only [hv, decide_eq_true hk, State.setLink_slot, harmed, Bool.not_true, checked_pass, checked_fail]

theorem execSlotDisarm_accepted (hroom : s.replyRoom = true) (hk : k < 8) :
    execSlotDisarm tag k s = accepted s (.slotDisarm tag k) (fun u => u.setSlot k { u.slot k with armed := false })
      (fun _ => [.u16 (s.slot k).remaining, .u8 (flagCode (s.slot k).armed)]) :=
  serve_plainly hroom fun l => by simp only [decide_eq_true hk, checked_pass, checked_nil, State.setLink_slot]

/-- Settles O59: each request passes its checks, or fails the one that its hypotheses name. -/
theorem routerRequests : Obligations.RouterRequests := by
  intro s tag hroom
  refine ⟨fun source level hsave hlow hhigh hlevel hnotice => ?_, fun source level n hsave hlow hhigh hlevel hnotice => ?_,
    fun source level => execSourceLevelSet_refused hroom, fun floor => execFloorSet_accepted hroom,
    fun f v hk hv => ⟨execSlotArm_free hroom hk hv, execSlotArm_armed hroom hk hv⟩, fun k => execSlotDisarm_accepted hroom⟩
  · exact execSourceLevelSet_accepted hroom hsave hlow hhigh hlevel fun l =>
      relevelNotice_none (s := (s.setLink l).setLevel source level) hnotice level
  · exact execSourceLevelSet_accepted hroom hsave hlow hhigh hlevel fun l =>
      relevelNotice_some (s := (s.setLink l).setLevel source level) hnotice level

/-! ### An occurrence that no listener takes -/

/-- No listener of R196 acts on the occurrence. -/
structure Unheard (s : State) (e : Event) : Prop where
  low : lowBin e = none
  filled : filledId e = none
  bag : s.bag.queue = []
  source : ∀ p, (s.pressAt p).cfg.triggers.source ≠ some e.source

/-- What no listener takes comes to its slot or to the notice table (R195). -/
theorem Unheard.outcome (h : Unheard s e) {more : List Task} (hrecord : slotOrNotice s e = (u, more)) (hmore : Course more u t)
    (hlength : more.length ≤ 20) : outcome (s, offerTasks s e) = .next t := by
  have hno (p : PressId) : lowBin e ≠ some (s.pressAt p).cfg.surgeBin := by rw [h.low]; exact nofun
  refine outcome_inert_then (x := .slotOrNotice e)
    (l := [.listenSource .one e, .listenSource .two e, .listenSurgeLow .one e, .listenSurgeLow .two e, .listenBagStop _ e,
      .listenBagStart _ e, .listenGrind e, .listenBatch e, .listenShort e]) ?_ hrecord hmore (hmore := hlength)
  simp only [List.forall_mem_cons, List.not_mem_nil, false_imp_iff, implies_true, and_true]
  exact ⟨listenSource_other (h.source _), listenSource_other (h.source _), listenSurgeLow_other (hno _),
    listenSurgeLow_other (hno _), listenBagStop_empty h.bag _, listenBagStart_empty h.bag _, listenGrind_noFall h.low,
    listenBatch_unfilled h.filled, listenShort_unfilled h.filled⟩

/-- The last count of a slot disarms it and raises its done event (R202). -/
theorem leads_slotCount_last (hleft : (s.slot k).remaining = 1) : Leads (.slotCount k) s
    ((s.setSlot k { s.slot k with remaining := 0, armed := false }).raise (.slotDone k (s.slot k).source (s.slot k).action)) := by
  refine .of_eq ?_
  simp only [handle, slotCount, hleft, Nat.sub_self, if_true, ne_eq, not_true_eq_false, decide_false, Bool.and_false, State.done]

/-- A slot that only counts tells no job (R203). -/
theorem slotOrNotice_count (hserves : s.servingSlot e.source = some k) (hact : (s.slot k).action = .count) :
    slotOrNotice s e = (s, [.slotCount k]) := by
  simp only [slotOrNotice, hserves, actionTasks, hact, List.nil_append]

theorem Unheard.counted (h : Unheard s e) (hserves : s.servingSlot e.source = some k) (hact : (s.slot k).action = .count)
    (hcount : Leads (.slotCount k) s t) : Sys2Proof.Machine.outcome (s, offerTasks s e) = .next t :=
  h.outcome (slotOrNotice_count hserves hact) (.cons hcount (.nil _)) (Nat.le_of_ble_eq_true rfl)

theorem Unheard.noticed (h : Unheard s e) (hserves : s.servingSlot e.source = none) :
    Sys2Proof.Machine.outcome (s, offerTasks s e) = .next (pendNotice s e) :=
  h.outcome (by simp only [slotOrNotice, hserves, State.done]) (.nil _) (Nat.zero_le _)

/-! ### The notice table -/

theorem pendNotice_muted (h : s.level e.source = 0) : pendNotice s e = s := by
  simp only [pendNotice, h, if_true]

theorem pendNotice_new (hlevel : 0 < s.level e.source) (hnotice : Table.get s.router.notices e.source = none) :
    pendNotice s e = s.setRouter { s.router with
      notices := Table.set s.router.notices e.source ⟨1, s.level e.source, e.detail⟩ } := by
  simp only [pendNotice, if_neg hlevel.ne', hnotice]

/-- A notice that repeats keeps its first level and detail, and counts to 255 (R197). -/
theorem pendNotice_repeated {n : Notice} (hlevel : 0 < s.level e.source) (hnotice : Table.get s.router.notices e.source = some n) :
    pendNotice s e = s.setRouter { s.router with
      notices := Table.set s.router.notices e.source { n with count := min (n.count + 1) 255 } } := by
  simp only [pendNotice, if_neg hlevel.ne', hnotice, satAdd]

/-- Settles O60: no listener acts, so that the occurrence comes to its slot's count, or to the notice table. -/
theorem occurrenceGoesToSlotOrNotice : Obligations.OccurrenceGoesToSlotOrNotice := by
  intro s e rest hwaiting hlow hfilled hqueue hsource
  have h : Unheard (s.offering rest) e := ⟨hlow, hfilled, hqueue, hsource⟩
  rw [exec_occurrenceOffer hwaiting]
  refine ⟨fun k hserves hact hleft => h.counted hserves hact (leads_slotCount (s := s.offering rest) rfl hleft),
    fun k hserves hact hleft => ?_,
    fun hserves hlevel => (h.noticed hserves).trans (congrArg _ (pendNotice_muted hlevel)),
    fun hserves hlevel hnotice => (h.noticed hserves).trans (congrArg _ (pendNotice_new hlevel hnotice)),
    fun n hserves hlevel hnotice => (h.noticed hserves).trans (congrArg _ (pendNotice_repeated hlevel hnotice))⟩
  have hlast := leads_slotCount_last (s := s.offering rest) hleft
  rw [show ((s.offering rest).slot k).action = .count from hact] at hlast
  exact h.counted hserves hact hlast

end

end Sys2Proof.Machine

/-! PROOFS. Bytes spell the number they were made from, least significant first (R206). -/

namespace Sys2Proof.Machine

theorem bytesOf_length : ∀ n v : Nat, (bytesOf n v).length = n
  | 0, _ => rfl
  | n + 1, v => congrArg (· + 1) (bytesOf_length n (v / 256))

theorem ofBytes_bytesOf : ∀ {n v : Nat}, v < 256 ^ n → ofBytes (bytesOf n v) = v
  | 0, v, h => (Nat.lt_one_iff.1 h).symm
  | n + 1, v, h => by
    have hrest : ofBytes (bytesOf n (v / 256)) = v / 256 :=
      ofBytes_bytesOf (Nat.div_lt_of_lt_mul (by rwa [Nat.pow_succ'] at h))
    rw [bytesOf, ofBytes, hrest]
    exact Nat.mod_add_div v 256

end Sys2Proof.Machine

/-! PROOFS. The receiver: what it does with each character, with the characters of a whole frame, with a framing error and with a
break (R206, R213, R215). -/

namespace Sys2Proof.Machine

section

variable {s : State} {x kind tag : Byte}

/-! ### One character -/

/-- The receiver at a position of the frame it builds, with the characters it has kept, newest first. -/
def State.receiving (s : State) (p : RxPosition) (kept : List Byte) : State :=
  s.setLink { s.link with rxPosition := p, rxBytes := kept }

/-- The LEN of the frame that is received: the oldest character kept (R206, R213). -/
def Link.keptLen (l : Link) : Nat := l.rxBytes.getLast?.getD 0

/-- The receiver back in HUNT with a receive error counted (R213). -/
def State.receiveFailed (s : State) : State := s.setLink (countError (huntAgain s.link))

theorem takeChar_hunt (h : s.link.rxPosition = .hunt) : takeChar s x = if x = 0x5A then s.receiving .len [] else s := by
  simp only [takeChar, h, State.receiving]

theorem takeChar_len (h : s.link.rxPosition = .len) :
    takeChar s x = if x ≤ 250 then s.receiving .kind [x] else s.receiveFailed := by
  simp only [takeChar, h, State.receiving, State.receiveFailed]

theorem takeChar_kind (h : s.link.rxPosition = .kind) : takeChar s x = s.receiving .tag (x :: s.link.rxBytes) := by
  simp only [takeChar, h, State.receiving]

theorem takeChar_tag (h : s.link.rxPosition = .tag) : takeChar s x =
    s.receiving (if s.link.keptLen = 0 then .check1 else .body s.link.keptLen) (x :: s.link.rxBytes) := by
  simp only [takeChar, h, State.receiving, Link.keptLen]
  rfl

theorem takeChar_body {left : Nat} (h : s.link.rxPosition = .body left) :
    takeChar s x = s.receiving (if left ≤ 1 then .check1 else .body (left - 1)) (x :: s.link.rxBytes) := by
  simp only [takeChar, h, State.receiving]

theorem takeChar_check1 (h : s.link.rxPosition = .check1) : takeChar s x = s.receiving .check2 (x :: s.link.rxBytes) := by
  simp only [takeChar, h, State.receiving]

theorem takeChar_check2 (h : s.link.rxPosition = .check2) : takeChar s x = judgeFrame s s.link (x :: s.link.rxBytes) := by
  simp only [takeChar, h]

/-! ### The judgement of a frame -/

/-- The last two characters kept are the CHECK, and those before them are what it covers (R206). -/
theorem judgeFrame_checked (s : State) (x y : Byte) (checked : List Byte) :
    judgeFrame s s.link (y :: x :: checked.reverse) =
      if ofBytes [x, y] ≠ (crcOf checked).toNat then s.receiveFailed
      else if s.link.rxQueue.length < 4 then
        s.setLink { huntAgain s.link with rxQueue := s.link.rxQueue ++ [frameOf checked] }
      else (s.setLink { huntAgain s.link with overruns := min (s.link.overruns + 1) 65535 }).raise
        (.linkOverrun (min (s.link.overruns + 1) 65535)) := by
  have hall : (y :: x :: checked.reverse).reverse = checked ++ [x, y] := by simp
  have hlength : (checked ++ [x, y]).length - 2 = checked.length := by simp
  simp only [judgeFrame, hall, hlength, List.take_left, List.drop_left]
  rfl

/-! ### The characters of a frame -/

/-- The characters of a body that is not empty bring the receiver from its first to its CHECK (R213). -/
theorem receive_body : ∀ {s : State} {l : List Byte}, l ≠ [] → s.link.rxPosition = .body l.length →
    l.foldl takeChar s = s.receiving .check1 (l.reverse ++ s.link.rxBytes)
  | _, [], h, _ => absurd rfl h
  | s, [x], _, h => takeChar_body h
  | s, x :: y :: l, _, h => by
    have hfirst : takeChar s x = s.receiving (.body (y :: l).length) (x :: s.link.rxBytes) := takeChar_body h
    rw [List.foldl_cons, hfirst, receive_body (List.cons_ne_nil y l) rfl]
    simp only [State.receiving, State.setLink_link, State.setLink_twice, List.reverse_cons, List.append_assoc, List.cons_append,
      List.nil_append]

/-- The characters from SYNC to TAG bring a receiver in HUNT to the body, or to the CHECK of a frame that has none (R213). -/
theorem receive_header {len : Nat} (h : s.link.rxPosition = .hunt) (hlen : len ≤ 250) :
    [0x5A, len, kind, tag].foldl takeChar s = s.receiving (if len = 0 then .check1 else .body len) [tag, kind, len] := by
  have hsync : takeChar s 0x5A = s.receiving .len [] := (takeChar_hunt h).trans (if_pos rfl)
  have hkind : takeChar (s.receiving .len []) len = s.receiving .kind [len] := (takeChar_len rfl).trans (if_pos hlen)
  rw [List.foldl_cons, hsync, List.foldl_cons, hkind]
  exact takeChar_tag (s := s.receiving .tag [kind, len]) rfl

/-- What the CHECK of a frame covers: LEN, KIND, TAG and BODY (R206). -/
def Frame.checked (f : Frame) : List Byte := f.body.length :: f.kind :: f.tag :: f.body

theorem Frame.chars_eq (f : Frame) : f.chars = 0x5A :: f.checked ++ bytesOf 2 (crcOf f.checked).toNat := rfl

/-- From HUNT to the CHECK the receiver keeps what the CHECK covers (R206, R213). -/
theorem receive_checked {f : Frame} (h : s.link.rxPosition = .hunt) (hbody : f.body.length ≤ 250) :
    (0x5A :: f.checked).foldl takeChar s = s.receiving .check1 f.checked.reverse := by
  have hsplit : 0x5A :: f.checked = [0x5A, f.body.length, f.kind, f.tag] ++ f.body := rfl
  rw [hsplit, List.foldl_append, receive_header h hbody, Frame.checked]
  cases f.body with
  | nil => rfl
  | cons x l =>
    rw [receive_body (List.cons_ne_nil x l) rfl]
    simp [State.receiving]

/-- A whole frame from HUNT is judged by the two characters that follow what its CHECK covers (R213). -/
theorem receive_frame {f : Frame} (h : s.link.rxPosition = .hunt) (hbody : f.body.length ≤ 250) (x y : Byte) :
    (0x5A :: f.checked ++ [x, y]).foldl takeChar s =
      if ofBytes [x, y] ≠ (crcOf f.checked).toNat then s.receiveFailed
      else if s.link.rxQueue.length < 4 then s.setLink { huntAgain s.link with rxQueue := s.link.rxQueue ++ [f] }
      else (s.setLink { huntAgain s.link with overruns := min (s.link.overruns + 1) 65535 }).raise
        (.linkOverrun (min (s.link.overruns + 1) 65535)) := by
  have hjudged : (0x5A :: f.checked ++ [x, y]).foldl takeChar s =
      judgeFrame (s.receiving .check2 (x :: f.checked.reverse)) (s.receiving .check2 (x :: f.checked.reverse)).link
        (y :: x :: f.checked.reverse) := by
    rw [List.foldl_append, receive_checked h hbody]
    exact takeChar_check2 (s := s.receiving .check2 (x :: f.checked.reverse)) rfl
  exact hjudged.trans (judgeFrame_checked _ x y f.checked)

theorem huntAgain_of_hunt {l : Link} (h : l.rxPosition = .hunt) : huntAgain l = { l with rxBytes := [] } := by
  rw [huntAgain, ← h]

theorem exec_frameReceive (chars : List Byte) (s : State) : exec (.frameReceive chars) s = .next (chars.foldl takeChar s) := rfl

theorem framingError_hunt (h : s.link.rxPosition = .hunt) : framingError s = s := if_pos h

theorem framingError_inside (h : s.link.rxPosition ≠ .hunt) : framingError s = s.receiveFailed := if_neg h

/-- Settles O12: the characters of a frame are judged as a whole (`receive_frame`), a sound CHECK spells the check register
(`ofBytes_bytesOf`), and a framing error and a break end what is being received. -/
theorem frameCharactersArrive : Obligations.FrameCharactersArrive := by
  intro s
  refine ⟨fun f hbody hhunt => ?_, fun h => congrArg _ (framingError_inside h), fun h => congrArg _ (framingError_hunt h), rfl⟩
  have hreset : huntAgain s.link = { s.link with rxBytes := [] } := huntAgain_of_hunt hhunt
  have hsound : ofBytes (bytesOf 2 (crcOf f.checked).toNat) = (crcOf f.checked).toNat :=
    ofBytes_bytesOf (crcOf f.checked).isLt
  have hchars := (receive_frame hhunt hbody _ _).trans (if_neg (not_not_intro hsound))
  refine ⟨fun hroom => ?_, fun hfull => ?_, fun x y hcheck => ?_⟩
  · rw [exec_frameReceive, Frame.chars_eq]
    exact congrArg _ (hchars.trans ((if_pos hroom).trans (by rw [hreset])))
  · rw [exec_frameReceive, Frame.chars_eq]
    exact congrArg _ (hchars.trans ((if_neg (Nat.not_lt.2 hfull)).trans (by rw [hreset])))
  · have hdamaged := (receive_frame hhunt hbody x y).trans (if_pos hcheck)
    exact congrArg _ (hdamaged.trans (by rw [State.receiveFailed, hreset]; rfl))

end

end Sys2Proof.Machine

/-! PROOFS. The bounds of the Link Port, which every step keeps (R206, R213, R214). -/

namespace Sys2Proof.Machine

section

variable {s t u : State} {c : Instr} {tag : Byte}

/-! ### What keeps the bounds -/

theorem State.LinkOk.of_link (hs : s.LinkOk) (h : t.link = s.link) : t.LinkOk := by
  rw [State.LinkOk, h]
  exact hs

theorem State.LinkOk.keeps (hs : s.LinkOk) (h : Keeps s t) : t.LinkOk := hs.of_link h.link

theorem State.LinkOk.dropFrame (hs : s.LinkOk) : (dropFrame s).LinkOk := by
  obtain ⟨hreplies, hqueue, hbodies, hrest⟩ := hs
  refine ⟨hreplies, le_trans ?_ hqueue, fun f hf => hbodies f (List.mem_of_mem_tail hf), hrest⟩
  exact List.length_tail.trans_le (Nat.sub_le _ 1)

/-- A reply joins the reply queue only while it has room (R214). -/
theorem State.LinkOk.answer (hs : s.LinkOk) (hroom : s.link.replies.length < Config.linkCap) (r : Reply) :
    (answer s r).LinkOk := by
  obtain ⟨-, hrest⟩ := hs
  refine ⟨?_, hrest⟩
  rw [Sys2Proof.Machine.answer, State.setLink_link, List.length_append]
  exact hroom

theorem replies_lt_of_takes (h : s.takes c = true) : s.link.replies.length < Config.linkCap :=
  of_decide_eq_true (Bool.and_eq_true_iff.1 h).1

/-- An execution that keeps the bounds of the link and adds no reply. -/
structure LinkKept (s t : State) : Prop where
  bounds : s.LinkOk → t.LinkOk
  replies : t.link.replies = s.link.replies

theorem LinkKept.of_link (h : t.link = s.link) : LinkKept s t := ⟨fun hs => hs.of_link h, congrArg Link.replies h⟩

theorem LinkKept.settle {r : Result} (h : LinkKept s r.1) (hu : Sys2Proof.Machine.settle r = some u) : LinkKept s u := by
  have hkeeps : Keeps r.1 u := (Keeps.refl r.1).settle hu
  exact ⟨fun hs => (h.bounds hs).keeps hkeeps, (congrArg Link.replies hkeeps.link).trans h.replies⟩

/-- What is answered after an execution that keeps the bounds was taken with room for its reply. -/
theorem State.LinkOk.answered (hs : s.LinkOk) (htakes : s.takes c = true) (h : LinkKept (Machine.dropFrame s) u) (r : Reply) :
    (Machine.answer u r).LinkOk := by
  refine (h.bounds hs.dropFrame).answer ?_ r
  rw [h.replies, dropFrame_replies]
  exact replies_lt_of_takes htakes

theorem State.LinkOk.requestKeeps (hs : s.LinkOk) (h : RequestKeeps c s t) : t.LinkOk := by
  rcases h with rfl | ⟨htakes, u, r, hu, rfl⟩
  · exact hs
  · exact hs.answered htakes (.of_link hu.link) r

/-- A request keeps the bounds when each execution that its judge accepts does and leaves the replies to `serve`. -/
theorem State.LinkOk.serve {judge : State → Verdict} (hs : s.LinkOk) (h : Sys2Proof.Machine.serve c judge s = .next t)
    (hj : ∀ u r items, judge u = .accept r items → LinkKept u r.1) : t.LinkOk := by
  rcases serve_next h with ⟨-, rfl⟩ | ⟨htakes, code, index, -, rfl⟩ | ⟨htakes, r, items, u, hr, hu, rfl⟩
  · exact hs
  · exact hs.answered htakes (.of_link rfl) _
  · exact hs.answered htakes ((hj _ r items hr).settle hu) _

theorem State.LinkOk.outcome {r : Result} (hr : r.1.LinkOk) (h : Sys2Proof.Machine.outcome r = .next t) : t.LinkOk :=
  hr.keeps ((Keeps.refl r.1).settle (outcome_next h))

/-! ### Receiving -/

theorem satAdd_le (limit a b : Nat) : satAdd limit a b ≤ limit := Nat.min_le_right _ _

theorem State.LinkOk.rxOk (hs : s.LinkOk) : s.link.rxOk := by
  obtain ⟨-, -, -, -, -, -, hrx⟩ := hs
  exact hrx

/-- The receiver may go to any position that agrees with the characters it keeps (R213). -/
theorem State.LinkOk.receiving {p : RxPosition} {kept : List Byte} (hs : s.LinkOk) (h : (s.receiving p kept).link.rxOk) :
    (s.receiving p kept).LinkOk := by
  obtain ⟨hreplies, hqueue, hbodies, herrors, hoverruns, hbreaks, -⟩ := hs
  exact ⟨hreplies, hqueue, hbodies, herrors, hoverruns, hbreaks, h⟩

theorem State.receiving_rxBytes (s : State) (p : RxPosition) (kept : List Byte) : (s.receiving p kept).link.rxBytes = kept := rfl

theorem State.LinkOk.receiveFailed (hs : s.LinkOk) : s.receiveFailed.LinkOk := by
  obtain ⟨hreplies, hqueue, hbodies, -, hoverruns, hbreaks, -⟩ := hs
  exact ⟨hreplies, hqueue, hbodies, satAdd_le _ _ _, hoverruns, hbreaks, rfl⟩

theorem frameOf_body_length (checked : List Byte) : (frameOf checked).body.length ≤ checked.length - 3 := by
  unfold frameOf
  split
  · exact le_rfl
  · exact Nat.zero_le _

/-- A frame of at most 250 body bytes is queued in a free place, or counted as an error or an overrun (R213). -/
theorem State.LinkOk.judgeFrame (hs : s.LinkOk) (x y : Byte) {checked : List Byte} (h : checked.length ≤ 253) :
    (judgeFrame s s.link (y :: x :: checked.reverse)).LinkOk := by
  rw [judgeFrame_checked]
  obtain ⟨hreplies, hqueue, hbodies, herrors, hoverruns, hbreaks, -⟩ := id hs
  split_ifs with hcheck hroom
  · exact hs.receiveFailed
  · refine ⟨hreplies, ?_, fun f hf => ?_, herrors, hoverruns, hbreaks, rfl⟩
    · rw [State.setLink_link, List.length_append]
      exact hroom
    · rcases List.mem_append.1 hf with hf | hf
      · exact hbodies f hf
      · rw [List.mem_singleton.1 hf]
        exact (frameOf_body_length checked).trans (Nat.sub_le_sub_right h 3)
  · exact ⟨hreplies, hqueue, hbodies, herrors, Nat.min_le_right _ _, hbreaks, rfl⟩

/-- LEN stays the oldest character kept while others join it (R213). -/
theorem State.receiving_keptLen {p : RxPosition} {x : Byte} (h : 0 < s.link.rxBytes.length) :
    (s.receiving p (x :: s.link.rxBytes)).link.keptLen = s.link.keptLen := by
  have hkept : s.link.rxBytes ≠ [] := List.ne_nil_of_length_pos h
  simp only [State.receiving, State.setLink_link, Link.keptLen, List.getLast?_cons, List.getLast?_eq_getLast_of_ne_nil hkept,
    Option.getD_some]

theorem Link.rxOk_kind {l : Link} (h : l.rxPosition = .kind) :
    l.rxOk ↔ l.rxBytes.length = 1 ∧ l.keptLen ≤ 250 := by
  simp only [Link.rxOk, h, Link.keptLen]

theorem Link.rxOk_tag {l : Link} (h : l.rxPosition = .tag) :
    l.rxOk ↔ l.rxBytes.length = 2 ∧ l.keptLen ≤ 250 := by
  simp only [Link.rxOk, h, Link.keptLen]

theorem Link.rxOk_body {l : Link} {left : Nat} (h : l.rxPosition = .body left) : l.rxOk ↔
    l.rxBytes.length + left = l.keptLen + 3 ∧ 1 ≤ left ∧ 3 ≤ l.rxBytes.length ∧
      l.keptLen ≤ 250 := by
  simp only [Link.rxOk, h, Link.keptLen]

theorem Link.rxOk_check1 {l : Link} (h : l.rxPosition = .check1) :
    l.rxOk ↔ l.rxBytes.length = l.keptLen + 3 ∧ l.keptLen ≤ 250 := by
  simp only [Link.rxOk, h, Link.keptLen]

theorem Link.rxOk_check2 {l : Link} (h : l.rxPosition = .check2) :
    l.rxOk ↔ l.rxBytes.length = l.keptLen + 4 ∧ l.keptLen ≤ 250 := by
  simp only [Link.rxOk, h, Link.keptLen]

/-- Every character is taken within the bounds: LEN is checked when it comes, and each position counts those behind it (R213). -/
theorem takeChar_linkOk (x : Byte) (hs : s.LinkOk) : (takeChar s x).LinkOk := by
  have hrx := hs.rxOk
  cases hpos : s.link.rxPosition with
  | hunt =>
    rw [takeChar_hunt hpos]
    split_ifs
    · exact hs.receiving rfl
    · exact hs
  | len =>
    rw [takeChar_len hpos]
    split_ifs with hlen
    · exact hs.receiving ⟨rfl, hlen⟩
    · exact hs.receiveFailed
  | kind =>
    obtain ⟨hkept, hlen⟩ := (Link.rxOk_kind hpos).1 hrx
    rw [takeChar_kind hpos]
    refine hs.receiving ((Link.rxOk_tag rfl).2 ?_)
    rw [State.receiving_keptLen (by omega), State.receiving_rxBytes, List.length_cons]
    omega
  | tag =>
    obtain ⟨hkept, hlen⟩ := (Link.rxOk_tag hpos).1 hrx
    rw [takeChar_tag hpos]
    split_ifs with hzero
    · refine hs.receiving ((Link.rxOk_check1 rfl).2 ?_)
      rw [State.receiving_keptLen (by omega), State.receiving_rxBytes, List.length_cons]
      omega
    · refine hs.receiving ((Link.rxOk_body rfl).2 ?_)
      rw [State.receiving_keptLen (by omega), State.receiving_rxBytes, List.length_cons]
      omega
  | body left =>
    obtain ⟨hcount, hleft, hkept, hlen⟩ := (Link.rxOk_body hpos).1 hrx
    rw [takeChar_body hpos]
    split_ifs with hlast
    · refine hs.receiving ((Link.rxOk_check1 rfl).2 ?_)
      rw [State.receiving_keptLen (by omega), State.receiving_rxBytes, List.length_cons]
      omega
    · refine hs.receiving ((Link.rxOk_body rfl).2 ?_)
      rw [State.receiving_keptLen (by omega), State.receiving_rxBytes, List.length_cons]
      omega
  | check1 =>
    obtain ⟨hkept, hlen⟩ := (Link.rxOk_check1 hpos).1 hrx
    rw [takeChar_check1 hpos]
    refine hs.receiving ((Link.rxOk_check2 rfl).2 ?_)
    rw [State.receiving_keptLen (by omega), State.receiving_rxBytes, List.length_cons]
    omega
  | check2 =>
    obtain ⟨hkept, hlen⟩ := (Link.rxOk_check2 hpos).1 hrx
    obtain ⟨y, checked, hbytes⟩ := List.exists_cons_of_length_eq_add_one hkept
    have hchecked : checked.reverse.length + 1 = s.link.rxBytes.length := by rw [hbytes, List.length_reverse, List.length_cons]
    rw [takeChar_check2 hpos, hbytes, ← checked.reverse_reverse]
    exact hs.judgeFrame y x (by omega)

theorem receive_linkOk (chars : List Byte) (hs : s.LinkOk) : (chars.foldl takeChar s).LinkOk := by
  induction chars generalizing s with
  | nil => exact hs
  | cons x chars ih => exact ih (takeChar_linkOk x hs)

theorem framingError_linkOk (hs : s.LinkOk) : (framingError s).LinkOk := by
  unfold framingError
  split_ifs
  · exact hs
  · exact hs.receiveFailed

/-- A break empties the receiver and its queue (R215). -/
theorem breakLine_linkOk (hs : s.LinkOk) : (breakLine s).LinkOk := by
  obtain ⟨hreplies, -, -, herrors, hoverruns, -, -⟩ := hs
  exact ⟨hreplies, Nat.zero_le _, fun _ hf => absurd hf List.not_mem_nil, herrors, hoverruns, satAdd_le _ _ _, rfl⟩

theorem execUnknownKind_linkOk {kind : Byte} {body : List Byte} (hs : s.LinkOk)
    (h : execUnknownKind tag kind body s = .next t) : t.LinkOk := by
  unfold execUnknownKind at h
  dsimp only at h
  split at h
  · cases h; exact hs
  · split_ifs at h with htaken
    · cases h
      exact hs.dropFrame.answer (of_decide_eq_true (Bool.and_eq_true_iff.1 htaken).1) _
    · cases h; exact hs

/-! ### Sending and the full reset -/

/-- The transmit choice takes a reply from the queue at most (R199). -/
theorem chooseSend_linkOk (hs : s.LinkOk) : (chooseSend s).LinkOk := by
  obtain ⟨hreplies, hrest⟩ := id hs
  cases hqueue : s.link.replies with
  | nil =>
    unfold chooseSend
    rw [hqueue]
    dsimp only
    split
    · exact ⟨hqueue ▸ hreplies, hrest⟩
    · exact hs
  | cons r rest =>
    rw [chooseSend_reply hqueue]
    rw [hqueue, List.length_cons] at hreplies
    exact ⟨Nat.le_of_succ_le hreplies, hrest⟩

theorem fullReset_linkOk (s : State) (strapB strapA : Bool) : (fullReset s strapB strapA).LinkOk := by
  unfold fullReset
  split
  · exact bootLink_ok
  · exact bootLink_ok

theorem sendNext_linkOk (hs : s.LinkOk) : (sendNext s).LinkOk := by
  unfold sendNext
  split
  · exact chooseSend_linkOk hs
  · split_ifs
    · exact fullReset_linkOk _ _ _
    · exact chooseSend_linkOk (s := s.setLink _) hs
    · exact hs

/-! ### Commands that leave the link alone -/

theorem LinkKept.clearCounters (s : State) : LinkKept s (s.setLink { s.link with errors := 0, overruns := 0, breaks := 0 }) := by
  refine ⟨fun hs => ?_, rfl⟩
  obtain ⟨hreplies, hqueue, hbodies, -, -, -, hrx⟩ := hs
  exact ⟨hreplies, hqueue, hbodies, Nat.zero_le _, Nat.zero_le _, Nat.zero_le _, hrx⟩

theorem execLinkStatus_linkOk {clear : Nat} (hs : s.LinkOk) (h : execLinkStatus tag clear s = .next t) : t.LinkOk := by
  refine hs.serve h fun u r items hr => ?_
  split at hr
  · cases hr
  · cases hr; exact .of_link rfl
  · cases hr; exact .clearCounters u

theorem execSettingsSave_linkOk (hs : s.LinkOk) (h : execSettingsSave tag s = .next t) : t.LinkOk := by
  refine hs.serve h fun u r items hr => ?_
  cases checked_accept hr
  exact .of_link rfl

theorem endSave_link (s : State) (ok : Bool) : (endSave s ok).link = s.link := by
  unfold endSave
  split <;> rfl

theorem execSourceLevelSet_linkOk {source level : Nat} (hs : s.LinkOk) (h : execSourceLevelSet tag source level s = .next t) :
    t.LinkOk := by
  refine hs.serve h fun u r items hr => ?_
  cases checked_accept hr
  exact .of_link (relevelNotice_link _ _ _)

theorem execFloorSet_linkOk {floor : Nat} (hs : s.LinkOk) (h : execFloorSet tag floor s = .next t) : t.LinkOk := by
  refine hs.serve h fun u r items hr => ?_
  cases checked_accept hr
  exact .of_link rfl

theorem offerLineStop_link (old s : State) : (offerLineStop old s).link = s.link := by
  unfold offerLineStop
  split
  · rfl
  · split_ifs
    · rfl
    · exact ((Keeps.refl s).offer _).link
    · rfl
    · rfl

/-- An input sample offers plant events and brings a Line Stop's cause, and leaves the link (R60). -/
theorem takeInputSample_link (s : State) (levels : Nat) (analog : List Int) : (takeInputSample s levels analog).1.link = s.link := by
  have hsampled : Keeps s (setAnalogPins 0 analog (sampleInputs s levels)) :=
    Keeps.setAnalogPins analog 0 ((Keeps.refl s).sampleInputs levels)
  have hprobes := Keeps.foldResult (f := fun b u => sampleProbes s u b) (fun b u => (Keeps.refl u).sampleProbes s b)
    ((setAnalogPins 0 analog (sampleInputs s levels)).inv.bins.map (·.1)) (State.done _) hsampled
  have hoffers (v : State) : Keeps v
      (offerMixerEmpty (offerMillFeedback (offerPressFeedback (offerPressFeedback v .one) .two))) :=
    ((((Keeps.refl v).offerPressFeedback .one).offerPressFeedback .two).offerMillFeedback).offerMixerEmpty
  exact ((hoffers _).setIO _).link.trans ((offerLineStop_link s _).trans (hprobes.offerEdges s).link)

theorem execLineStop_linkOk (hs : s.LinkOk) (h : execLineStop tag s = .next t) : t.LinkOk := by
  refine hs.serve h fun u r items hr => ?_
  cases hr
  exact .of_link (bringLineStop_link u .request)

theorem execLineResume_linkOk (hs : s.LinkOk) (h : execLineResume tag s = .next t) : t.LinkOk := by
  refine hs.serve h fun u r items hr => ?_
  split at hr
  · cases hr; exact .of_link rfl
  · cases checked_accept hr
    exact .of_link rfl

/-! ### Every command -/

/-- Every command keeps the bounds: what `exec_keeps` leaves out receives or sends within them, clears the counters, or leaves the
link alone. -/
theorem exec_linkOk (hs : s.LinkOk) (h : exec c s = .next t) : t.LinkOk := by
  cases hc : changesKept c with
  | false => exact (exec_keeps hc h).elim hs.requestKeeps hs.keeps
  | true =>
    cases c with
    | linkStatus => exact execLinkStatus_linkOk hs h
    | settingsSave => exact execSettingsSave_linkOk hs h
    | lineStop => exact execLineStop_linkOk hs h
    | lineResume => exact execLineResume_linkOk hs h
    | sourceLevelSet => exact execSourceLevelSet_linkOk hs h
    | floorSet => exact execFloorSet_linkOk hs h
    | unknownKind => exact execUnknownKind_linkOk hs h
    | frameReceive chars => cases h; exact receive_linkOk chars hs
    | receiveError => cases h; exact framingError_linkOk hs
    | linkBreak => cases h; exact breakLine_linkOk hs
    | frameSent => cases h; exact sendNext_linkOk hs
    | fullReset b a => cases h; exact fullReset_linkOk s b a
    | settingsSaveEnd ok => cases h; exact hs.of_link (endSave_link s ok)
    | inputSample levels analog => exact (hs.of_link (takeInputSample_link s levels analog)).outcome h
    | lineStopInputActive => exact (hs.of_link (bringLineStop_link (s.takeOffered .lineStopInput) .input)).outcome h
    | _ => cases hc

/-- Settles O6: by `exec_linkOk`; a tick does not touch the link. -/
theorem stepKeepsLinkOk : Obligations.StepKeepsLinkOk := by
  intro s t hs h
  unfold step at h
  split at h
  · cases h
    exact hs
  · next c rest _ => exact exec_linkOk (s := s.setPending rest) hs h

end

end Sys2Proof.Machine

/-! PROOFS. A request is read back from its frame: each reader takes the bytes of the items it was written for (R206 to R209). -/

namespace Sys2Proof.Machine

section

variable {α β : Type} {v : Nat} {l : List Item}

/-! ### Fields -/

theorem itemBytes_cons (x : Item) (l : List Item) : itemBytes (x :: l) = x.bytes ++ itemBytes l := rfl

/-- Every item fits its width (R207). -/
def AllFit (l : List Item) : Prop := ∀ x ∈ l, x.fits = true

@[simp] theorem allFit_nil : AllFit [] := fun _ h => absurd h List.not_mem_nil

@[simp] theorem allFit_cons {x : Item} : AllFit (x :: l) ↔ x.fits = true ∧ AllFit l := List.forall_mem_cons

@[simp] theorem allFit_append {m : List Item} : AllFit (l ++ m) ↔ AllFit l ∧ AllFit m := List.forall_mem_append

@[simp] theorem fits_u8 : (Item.u8 v).fits = true ↔ v < 256 := decide_eq_true_iff
@[simp] theorem fits_u16 : (Item.u16 v).fits = true ↔ v < 65536 := decide_eq_true_iff
@[simp] theorem fits_u32 : (Item.u32 v).fits = true ↔ v < 4294967296 := decide_eq_true_iff
@[simp] theorem fits_u64 : (Item.u64 v).fits = true ↔ v < 18446744073709551616 := decide_eq_true_iff
@[simp] theorem fits_i16 {z : Int} : (Item.i16 z).fits = true ↔ -32768 ≤ z ∧ z ≤ 32767 := decide_eq_true_iff
@[simp] theorem fits_i32 {z : Int} : (Item.i32 z).fits = true ↔ -2147483648 ≤ z ∧ z ≤ 2147483647 := decide_eq_true_iff

/-- A field is read from the bytes of its value. -/
theorem readField_bytesOf {n : Nat} (h : v < 256 ^ n) (rest : List Byte) (k : Nat → List Byte → Option α) :
    readField n (bytesOf n v ++ rest) k = k v rest := by
  have hlength := bytesOf_length n v
  have henough : ¬(bytesOf n v ++ rest).length < n := by rw [List.length_append, hlength]; omega
  rw [readField, if_neg henough, List.take_left' hlength, List.drop_left' hlength, ofBytes_bytesOf h]

@[simp] theorem readField_u8 (h : v < 256) (k : Nat → List Byte → Option α) :
    readField 1 (itemBytes (.u8 v :: l)) k = k v (itemBytes l) := readField_bytesOf h _ k

@[simp] theorem readField_u16 (h : v < 65536) (k : Nat → List Byte → Option α) :
    readField 2 (itemBytes (.u16 v :: l)) k = k v (itemBytes l) := readField_bytesOf h _ k

@[simp] theorem readField_u32 (h : v < 4294967296) (k : Nat → List Byte → Option α) :
    readField 4 (itemBytes (.u32 v :: l)) k = k v (itemBytes l) := readField_bytesOf h _ k

@[simp] theorem readField_u64 (h : v < 18446744073709551616) (k : Nat → List Byte → Option α) :
    readField 8 (itemBytes (.u64 v :: l)) k = k v (itemBytes l) := readField_bytesOf h _ k

/-! ### Numbers with a sign -/

theorem wrapInt_lt (bits : Nat) (z : Int) : wrapInt bits z < 2 ^ bits := by
  have hpos : (0 : Int) < (2 ^ bits : Nat) := by positivity
  have hlow := Int.emod_nonneg z hpos.ne'
  have hhigh := Int.emod_lt_of_pos z hpos
  unfold wrapInt
  omega

theorem wrapInt_of_nonneg {bits : Nat} {z : Int} (h : 0 ≤ z) (hlt : z < (2 ^ bits : Nat)) : (wrapInt bits z : Int) = z := by
  rw [wrapInt, Int.emod_eq_of_lt h hlt, Int.toNat_of_nonneg h]

theorem wrapInt_of_neg {bits : Nat} {z : Int} (h : z < 0) (hlow : -(2 ^ bits : Nat) ≤ z) :
    (wrapInt bits z : Int) = z + (2 ^ bits : Nat) := by
  have hshift : z % (2 ^ bits : Nat) = z + (2 ^ bits : Nat) := by
    rw [← Int.add_emod_right, Int.emod_eq_of_lt (by omega) (by omega)]
  rw [wrapInt, hshift, Int.toNat_of_nonneg (by omega)]

/-- The two's complement of an integer in range spells it (R207). -/
theorem signedOf_wrapInt {bits : Nat} {z : Int} (hlow : -(2 ^ bits : Nat) ≤ 2 * z) (hhigh : 2 * z < (2 ^ bits : Nat)) :
    signedOf bits (wrapInt bits z) = z := by
  unfold signedOf
  rcases lt_or_ge z 0 with hz | hz
  · have hwrap := wrapInt_of_neg hz (bits := bits) (by omega)
    rw [if_neg (by omega)]
    omega
  · have hwrap := wrapInt_of_nonneg hz (bits := bits) (by omega)
    rw [if_pos (by omega)]
    exact hwrap

@[simp] theorem readSigned_i16 {z : Int} (h : -32768 ≤ z ∧ z ≤ 32767) (k : Int → List Byte → Option α) :
    readSigned 2 (itemBytes (.i16 z :: l)) k = k z (itemBytes l) := by
  rw [readSigned, itemBytes_cons, Item.bytes, readField_bytesOf (wrapInt_lt 16 z), signedOf_wrapInt (by omega) (by omega)]

@[simp] theorem readSigned_i32 {z : Int} (h : -2147483648 ≤ z ∧ z ≤ 2147483647) (k : Int → List Byte → Option α) :
    readSigned 4 (itemBytes (.i32 z :: l)) k = k z (itemBytes l) := by
  rw [readSigned, itemBytes_cons, Item.bytes, readField_bytesOf (wrapInt_lt 32 z), signedOf_wrapInt (by omega) (by omega)]

/-! ### Fields that may be absent, and lists -/

/-- A field that may be absent is read from its presence byte and its bytes, zero when absent (R207). -/
theorem readOpt_optItem {n : Nat} {mk : Nat → Item} {o : Option Nat} (hmk : ∀ v, (mk v).bytes = bytesOf n v)
    (h : ∀ v ∈ o, v < 256 ^ n) (l : List Item) (k : Option Nat → List Byte → Option α) :
    readOpt n (itemBytes (optItem mk o ++ l)) k = k o (itemBytes l) := by
  cases o with
  | none =>
    rw [readOpt, optItem, List.cons_append, readField_u8 (Nat.zero_lt_succ _), List.cons_append, List.nil_append, itemBytes_cons,
      hmk, readField_bytesOf (Nat.pow_pos (Nat.zero_lt_succ _)), if_pos rfl]
  | some v =>
    rw [readOpt, optItem, List.cons_append, readField_u8 (Nat.le_of_ble_eq_true rfl), List.cons_append, List.nil_append,
      itemBytes_cons, hmk, readField_bytesOf (h v rfl), if_neg Nat.one_ne_zero]

theorem optItem_some_fits {mk : Nat → Item} {o : Option Nat} (h : AllFit (optItem mk o)) : ∀ v ∈ o, (mk v).fits = true := by
  rintro v rfl
  exact h _ (List.mem_cons_of_mem _ List.mem_cons_self)

@[simp] theorem readOpt_u8 {o : Option Nat} (h : AllFit (optItem .u8 o)) (k : Option Nat → List Byte → Option α) :
    readOpt 1 (itemBytes (optItem .u8 o ++ l)) k = k o (itemBytes l) :=
  readOpt_optItem (fun _ => rfl) (fun v hv => fits_u8.1 (optItem_some_fits h v hv)) l k

@[simp] theorem readOpt_u16 {o : Option Nat} (h : AllFit (optItem .u16 o)) (k : Option Nat → List Byte → Option α) :
    readOpt 2 (itemBytes (optItem .u16 o ++ l)) k = k o (itemBytes l) :=
  readOpt_optItem (fun _ => rfl) (fun v hv => fits_u16.1 (optItem_some_fits h v hv)) l k

@[simp] theorem readOpt_u32 {o : Option Nat} (h : AllFit (optItem .u32 o)) (k : Option Nat → List Byte → Option α) :
    readOpt 4 (itemBytes (optItem .u32 o ++ l)) k = k o (itemBytes l) :=
  readOpt_optItem (fun _ => rfl) (fun v hv => fits_u32.1 (optItem_some_fits h v hv)) l k

/-- Entries are read one after another, each from its own items. -/
theorem readEntries_flatMap {entry : List Byte → Option (β × List Byte)} {mk : β → List Item} {xs : List β}
    (h : ∀ x ∈ xs, ∀ l, entry (itemBytes (mk x ++ l)) = some (x, itemBytes l)) (l : List Item)
    (k : List β → List Byte → Option α) :
    readEntries entry xs.length (itemBytes (xs.flatMap mk ++ l)) k = k xs (itemBytes l) := by
  induction xs generalizing k with
  | nil => rfl
  | cons x xs ih =>
    obtain ⟨hx, hxs⟩ := List.forall_mem_cons.1 h
    rw [List.flatMap_cons, List.append_assoc, List.length_cons, readEntries, hx]
    exact ih hxs _

theorem allFit_listItems {mk : β → List Item} {xs : List β} :
    AllFit (listItems xs mk) ↔ xs.length < 256 ∧ ∀ x ∈ xs, AllFit (mk x) := by
  rw [listItems, allFit_cons, fits_u8]
  refine and_congr_right fun _ => ⟨fun h x hx y hy => h y (List.mem_flatMap_of_mem hx hy), fun h y hy => ?_⟩
  obtain ⟨x, hx, hxy⟩ := List.mem_flatMap.1 hy
  exact h x hx y hxy

/-- A list within its limit is read from its count byte and its entries (R207). -/
theorem readList_listItems {limit : Nat} {entry : List Byte → Option (β × List Byte)} {mk : β → List Item} {xs : List β}
    (hfits : AllFit (listItems xs mk)) (hlimit : xs.length ≤ limit)
    (h : ∀ x, AllFit (mk x) → ∀ l, entry (itemBytes (mk x ++ l)) = some (x, itemBytes l)) (l : List Item)
    (k : List β → List Byte → Option α) :
    readList limit entry (itemBytes (listItems xs mk ++ l)) k = k xs (itemBytes l) := by
  obtain ⟨hcount, hentries⟩ := allFit_listItems.1 hfits
  have hread := fun x hx => h x (hentries x hx)
  rw [readList, listItems, List.cons_append, readField_u8 hcount, if_neg (Nat.not_lt.2 hlimit), readEntries_flatMap hread]

/-! ### Records -/

theorem readChannel_channelItems {f : ChannelConfig} (h : AllFit (channelItems f)) (l : List Item)
    (k : ChannelConfig → List Byte → Option α) :
    readChannel (itemBytes (channelItems f ++ l)) k = k f (itemBytes l) := by
  simp only [channelItems, allFit_cons, fits_u8, fits_u16, fits_u32, fits_i32] at h
  simp [readChannel, channelItems, h]

theorem readBin_binItems {f : BinFields} (h : AllFit (binItems f)) (l : List Item)
    (k : BinFields → List Byte → Option α) :
    readBin (itemBytes (binItems f ++ l)) k = k f (itemBytes l) := by
  simp only [binItems, allFit_cons, allFit_append, fits_u8, fits_u16, fits_u32] at h
  simp [readBin, binItems, h]

theorem readStep_stepItems {f : StepFields} (h : AllFit (stepItems f)) (l : List Item)
    (k : StepFields → List Byte → Option α) :
    readStep (itemBytes (stepItems f ++ l)) k = k f (itemBytes l) := by
  simp only [stepItems, allFit_cons, fits_u8, fits_u32] at h
  simp [readStep, stepItems, h]

theorem readMill_millItems {f : MillSettings} (h : AllFit (millItems f)) (l : List Item)
    (k : MillSettings → List Byte → Option α) :
    readMill (itemBytes (millItems f ++ l)) k = k f (itemBytes l) := by
  simp only [millItems, allFit_cons, fits_u8, fits_u16] at h
  simp [readMill, millItems, h]

theorem readProfile_profileItems {f : ProfileFields} (h : AllFit (profileItems f)) (l : List Item)
    (k : ProfileFields → List Byte → Option α) :
    readProfile (itemBytes (profileItems f ++ l)) k = k f (itemBytes l) := by
  simp only [profileItems, allFit_cons, fits_u8, fits_u16] at h
  simp [readProfile, profileItems, h]

theorem readPress_pressItems {f : PressFields} (h : AllFit (pressItems f)) (l : List Item)
    (k : PressFields → List Byte → Option α) :
    readPress (itemBytes (pressItems f ++ l)) k = k f (itemBytes l) := by
  simp only [pressItems, allFit_cons, fits_u8, fits_u16, fits_u32] at h
  simp [readPress, pressItems, h]

theorem readRun_runItems {f : RunFields} (h : AllFit (runItems f)) (l : List Item)
    (k : RunFields → List Byte → Option α) :
    readRun (itemBytes (runItems f ++ l)) k = k f (itemBytes l) := by
  simp only [runItems, allFit_cons, fits_u8, fits_u16, fits_u32] at h
  simp [readRun, runItems, h]

theorem readBag_bagItems {f : BagFields} (h : AllFit (bagItems f)) (l : List Item)
    (k : BagFields → List Byte → Option α) :
    readBag (itemBytes (bagItems f ++ l)) k = k f (itemBytes l) := by
  simp only [bagItems, allFit_cons, fits_u8, fits_u16, fits_u32] at h
  simp [readBag, bagItems, h]

theorem readSlot_slotItems {f : SlotFields} (h : AllFit (slotItems f)) (l : List Item)
    (k : SlotFields → List Byte → Option α) :
    readSlot (itemBytes (slotItems f ++ l)) k = k f (itemBytes l) := by
  simp only [slotItems, allFit_cons, allFit_append, fits_u8, fits_u16] at h
  simp [readSlot, slotItems, h]

/-! ### Entries of lists -/

theorem entryPermissive_items {p : PermissiveField} (h : AllFit [Item.u8 p.input, Item.u8 p.required]) (l : List Item) :
    entryPermissive (itemBytes ([.u8 p.input, .u8 p.required] ++ l)) = some (p, itemBytes l) := by
  simp only [allFit_cons, fits_u8] at h
  simp [entryPermissive, h]

theorem entryResource_items {n : Nat} (h : AllFit [Item.u8 n]) (l : List Item) :
    entryResource (itemBytes ([.u8 n] ++ l)) = some (n, itemBytes l) := by
  simp only [allFit_cons, fits_u8] at h
  simp [entryResource, h]

theorem entryLine_items {f : LineFields} (h : AllFit (lineItems f)) (l : List Item) :
    entryLine (itemBytes (lineItems f ++ l)) = some (f, itemBytes l) := by
  simp only [lineItems, allFit_cons, allFit_append, fits_u8, fits_u16, fits_u32] at h
  simp [entryLine, lineItems, h]

theorem entryCapacity_items {n : Nat} (h : AllFit [Item.u32 n]) (l : List Item) :
    entryCapacity (itemBytes ([.u32 n] ++ l)) = some (n, itemBytes l) := by
  simp only [allFit_cons, fits_u32] at h
  simp [entryCapacity, h]

/-! ### Bodies of fields alone -/

/-- A request that still lacks the values of the items listed. -/
def Lacking : List Item → Type
  | [] => Instr
  | .u8 _ :: l | .u16 _ :: l | .u32 _ :: l | .u64 _ :: l => Nat → Lacking l
  | .i16 _ :: l | .i32 _ :: l => Int → Lacking l

/-- The request with the values of the items. -/
def Lacking.filled : (l : List Item) → Lacking l → Instr
  | [], c => c
  | .u8 v :: l, c | .u16 v :: l, c | .u32 v :: l, c | .u64 v :: l, c => filled l (c v)
  | .i16 z :: l, c | .i32 z :: l, c => filled l (c z)

/-- The request with values read from a body, each with the width of its item. -/
def Lacking.read : (l : List Item) → Lacking l → List Byte → Option Instr
  | [], c => readEnd c
  | .u8 _ :: l, c => fun body => readField 1 body fun v => read l (c v)
  | .u16 _ :: l, c => fun body => readField 2 body fun v => read l (c v)
  | .u32 _ :: l, c => fun body => readField 4 body fun v => read l (c v)
  | .u64 _ :: l, c => fun body => readField 8 body fun v => read l (c v)
  | .i16 _ :: l, c => fun body => readSigned 2 body fun z => read l (c z)
  | .i32 _ :: l, c => fun body => readSigned 4 body fun z => read l (c z)

/-- A body that is made of its items alone gives their values back. -/
theorem AllFit.read : ∀ {l : List Item}, AllFit l → ∀ c : Lacking l,
    Lacking.read l c (itemBytes l) = some (Lacking.filled l c)
  | [], _, _ => rfl
  | x :: l, h, c => by
    obtain ⟨hx, hl⟩ := allFit_cons.1 h
    cases x with
    | u8 v => exact (readField_u8 (fits_u8.1 hx) fun v => Lacking.read l (c v)).trans (hl.read (c v))
    | u16 v => exact (readField_u16 (fits_u16.1 hx) fun v => Lacking.read l (c v)).trans (hl.read (c v))
    | u32 v => exact (readField_u32 (fits_u32.1 hx) fun v => Lacking.read l (c v)).trans (hl.read (c v))
    | u64 v => exact (readField_u64 (fits_u64.1 hx) fun v => Lacking.read l (c v)).trans (hl.read (c v))
    | i16 z => exact (readSigned_i16 (fits_i16.1 hx) fun z => Lacking.read l (c z)).trans (hl.read (c z))
    | i32 z => exact (readSigned_i32 (fits_i32.1 hx) fun z => Lacking.read l (c z)).trans (hl.read (c z))

/-! ### Requests -/

/-- What a reader takes from the end of a body completes the request. -/
theorem readEnd_of_read {read : List Byte → (β → List Byte → Option Instr) → Option Instr} {items : List Item} {x : β}
    (h : ∀ l k, read (itemBytes (items ++ l)) k = k x (itemBytes l)) (c : β → Instr) :
    read (itemBytes items) (fun x l => readEnd (c x) l) = some (c x) := by
  have hend := h [] fun x l => readEnd (c x) l
  rwa [List.append_nil] at hend

/-- The same behind a number of one byte. -/
theorem readEnd_of_read_u8 {read : List Byte → (β → List Byte → Option Instr) → Option Instr} {items : List Item} {x : β}
    (hfits : AllFit (.u8 v :: items)) (h : AllFit items → ∀ l k, read (itemBytes (items ++ l)) k = k x (itemBytes l))
    (c : Nat → β → Instr) :
    readField 1 (itemBytes (.u8 v :: items)) (fun v l => read l fun x l => readEnd (c v x) l) = some (c v x) := by
  obtain ⟨hv, hitems⟩ := allFit_cons.1 hfits
  exact (readField_u8 (fits_u8.1 hv) _).trans (readEnd_of_read (h hitems) (c v))

theorem readBody_binDefine {t b : Nat} {f : BinFields} (hfits : AllFit (.u8 b :: binItems f)) :
    readBody 0x10 t (itemBytes (.u8 b :: binItems f)) = some (.binDefine t b f) := by
  have hbody (body : List Byte) : readBody 0x10 t body =
    readField 1 body fun b l => readBin l fun f l => readEnd (.binDefine t b f) l := rfl
  rw [hbody]
  exact readEnd_of_read_u8 hfits readBin_binItems (Instr.binDefine t)

/-- The form byte of RESERVATION_READ decides what follows it (R59). -/
theorem readBody_reservationRead {t form key age : Nat} {kind tag : Byte} {fields : List Item}
    (h : requestItems (.reservationRead t form key age) = some (kind, tag, fields)) (hfits : AllFit fields)
    (hage : form ≠ 0 ∨ age = 0) : readBody kind tag (itemBytes fields) = some (.reservationRead t form key age) := by
  have hbody (body : List Byte) : readBody 0x16 t body = readField 1 body fun f l =>
      if f = 0 then readField 2 l fun k l => readEnd (.reservationRead t 0 k 0) l
      else readField 1 l fun k l => readField 1 l fun a l => readEnd (.reservationRead t f k a) l := rfl
  simp only [requestItems] at h
  split_ifs at h with hform
  · cases h
    obtain rfl : form = 0 := hform
    obtain rfl : age = 0 := hage.resolve_left (not_not_intro rfl)
    obtain ⟨hzero, hkey⟩ := allFit_cons.1 hfits
    rw [hbody, readField_u8 (fits_u8.1 hzero), if_pos rfl]
    exact hkey.read (fun k => Instr.reservationRead t 0 k 0)
  · cases h
    obtain ⟨hfirst, hrest⟩ := allFit_cons.1 hfits
    rw [hbody, readField_u8 (fits_u8.1 hfirst), if_neg hform]
    exact hrest.read (Instr.reservationRead t form)

theorem readBody_binCount {t b m : Nat} {g : Option Nat} (hfits : AllFit ([.u8 b, .u32 m] ++ optItem .u16 g)) :
    readBody 0x12 t (itemBytes ([.u8 b, .u32 m] ++ optItem .u16 g)) = some (.binCount t b m g) := by
  simp only [List.cons_append, List.nil_append, allFit_cons, fits_u8, fits_u32] at hfits
  obtain ⟨hb, hm, hg⟩ := hfits
  exact (readField_u8 hb fun b l => readField 4 l fun m l => readOpt 2 l fun g l => readEnd (.binCount t b m g) l).trans
    ((readField_u32 hm _).trans (readEnd_of_read (fun l => readOpt_u16 hg) (.binCount t b m)))

theorem readBody_routeDefine {t r : Nat} {ps : List PermissiveField} {rs : List Nat}
    (hfits : AllFit (.u8 r :: listItems ps (fun p => [.u8 p.input, .u8 p.required]) ++ listItems rs (fun x => [.u8 x])))
    (hps : ps.length ≤ 6) (hrs : rs.length ≤ 4) :
    readBody 0x1F t
      (itemBytes (.u8 r :: listItems ps (fun p => [.u8 p.input, .u8 p.required]) ++ listItems rs (fun x => [.u8 x]))) =
      some (.routeDefine t r ps rs) := by
  simp only [List.cons_append, allFit_cons, allFit_append, fits_u8] at hfits
  obtain ⟨hr, hpermissives, hresources⟩ := hfits
  exact (readField_u8 hr fun r l => readList 6 entryPermissive l fun ps l => readList 4 entryResource l fun rs l =>
    readEnd (.routeDefine t r ps rs) l).trans ((readList_listItems hpermissives hps (fun _ => entryPermissive_items) _ _).trans
      (readEnd_of_read (readList_listItems hresources hrs fun _ => entryResource_items) (.routeDefine t r ps)))

theorem readBody_orderEnter {t n c : Nat} {ls : List LineFields} (hfits : AllFit ([.u32 n, .u32 c] ++ listItems ls lineItems))
    (hls : ls.length ≤ 6) :
    readBody 0x58 t (itemBytes ([.u32 n, .u32 c] ++ listItems ls lineItems)) = some (.orderEnter t n c ls) := by
  simp only [List.cons_append, List.nil_append, allFit_cons, fits_u32] at hfits
  obtain ⟨hn, hc, hlines⟩ := hfits
  exact (readField_u32 hn fun n l => readField 4 l fun c l => readList 6 entryLine l fun ls l =>
    readEnd (.orderEnter t n c ls) l).trans ((readField_u32 hc _).trans
      (readEnd_of_read (readList_listItems hlines hls fun _ => entryLine_items) (.orderEnter t n c)))

theorem readBody_truckIn {t o : Nat} {cs : List Nat} (hfits : AllFit (.u32 o :: listItems cs (fun c => [.u32 c])))
    (hcs : cs.length ≤ 6) :
    readBody 0x5C t (itemBytes (.u32 o :: listItems cs (fun c => [.u32 c]))) = some (.truckIn t o cs) := by
  obtain ⟨ho, hcapacities⟩ := allFit_cons.1 hfits
  exact (readField_u32 (fits_u32.1 ho) fun o l => readList 6 entryCapacity l fun cs l => readEnd (.truckIn t o cs) l).trans
    (readEnd_of_read (readList_listItems hcapacities hcs fun _ => entryCapacity_items) (.truckIn t o))

theorem readBody_requestItems {c : Instr} {kind tag : Byte} {fields : List Item} (h : requestItems c = some (kind, tag, fields))
    (hfits : AllFit fields) (hlists : c.listsOk = true) : readBody kind tag (itemBytes fields) = some c := by
  cases c with
  | identify | settingsSave | restart | ioRead | resourceRead | lineStop | lineResume | millResume | millStop | millRead
  | bagRunStart | bagRunStop | baggerResume | baggerRead | spoutReady | dispatchTake | slotRead => cases h; rfl
  | linkStatus => cases h; exact hfits.read (Instr.linkStatus _)
  | channelRead => cases h; exact hfits.read (Instr.channelRead _)
  | zero => cases h; exact hfits.read (Instr.zero _)
  | calSpan => cases h; exact hfits.read (Instr.calSpan _)
  | inflightSet => cases h; exact hfits.read (Instr.inflightSet _)
  | binRead => cases h; exact hfits.read (Instr.binRead _)
  | binReceive => cases h; exact hfits.read (Instr.binReceive _)
  | binLock => cases h; exact hfits.read (Instr.binLock _)
  | binUnlock => cases h; exact hfits.read (Instr.binUnlock _)
  | inputDefine => cases h; exact hfits.read (Instr.inputDefine _)
  | outputDefine => cases h; exact hfits.read (Instr.outputDefine _)
  | outputSet => cases h; exact hfits.read (Instr.outputSet _)
  | outputClear => cases h; exact hfits.read (Instr.outputClear _)
  | analogDefine => cases h; exact hfits.read (Instr.analogDefine _)
  | analogSet => cases h; exact hfits.read (Instr.analogSet _)
  | arbiterSet => cases h; exact hfits.read (Instr.arbiterSet _)
  | formulaOpen => cases h; exact hfits.read (Instr.formulaOpen _)
  | formulaClose => cases h; exact hfits.read (Instr.formulaClose _)
  | formulaRead => cases h; exact hfits.read (Instr.formulaRead _)
  | batchlineSet => cases h; exact hfits.read (Instr.batchlineSet _)
  | batchQueue => cases h; exact hfits.read (Instr.batchQueue _)
  | batchRelease => cases h; exact hfits.read (Instr.batchRelease _)
  | handDone => cases h; exact hfits.read (Instr.handDone _)
  | stepResume => cases h; exact hfits.read (Instr.stepResume _)
  | batchResume => cases h; exact hfits.read (Instr.batchResume _)
  | batchCancel => cases h; exact hfits.read (Instr.batchCancel _)
  | batchAbandon => cases h; exact hfits.read (Instr.batchAbandon _)
  | batchRead => cases h; exact hfits.read (Instr.batchRead _)
  | grindQueue => cases h; exact hfits.read (Instr.grindQueue _)
  | grindCancel => cases h; exact hfits.read (Instr.grindCancel _)
  | grindResume => cases h; exact hfits.read (Instr.grindResume _)
  | grindArm => cases h; exact hfits.read (Instr.grindArm _)
  | screenFitted => cases h; exact hfits.read (Instr.screenFitted _)
  | profileRead => cases h; exact hfits.read (Instr.profileRead _)
  | runCancel => cases h; exact hfits.read (Instr.runCancel _)
  | pressStart => cases h; exact hfits.read (Instr.pressStart _)
  | pressResume => cases h; exact hfits.read (Instr.pressResume _)
  | pressStop => cases h; exact hfits.read (Instr.pressStop _)
  | pressTrim => cases h; exact hfits.read (Instr.pressTrim _)
  | changeoverNow => cases h; exact hfits.read (Instr.changeoverNow _)
  | pressRead => cases h; exact hfits.read (Instr.pressRead _)
  | baggerSet => cases h; exact hfits.read (Instr.baggerSet _)
  | bagCancel => cases h; exact hfits.read (Instr.bagCancel _)
  | lineAssign => cases h; exact hfits.read (Instr.lineAssign _)
  | lineClose => cases h; exact hfits.read (Instr.lineClose _)
  | orderCancel => cases h; exact hfits.read (Instr.orderCancel _)
  | loadoutResume => cases h; exact hfits.read (Instr.loadoutResume _)
  | truckOut => cases h; exact hfits.read (Instr.truckOut _)
  | orderRead => cases h; exact hfits.read (Instr.orderRead _)
  | sourceLevelSet => cases h; exact hfits.read (Instr.sourceLevelSet _)
  | floorSet => cases h; exact hfits.read (Instr.floorSet _)
  | slotDisarm => cases h; exact hfits.read (Instr.slotDisarm _)
  | reservationRead => exact readBody_reservationRead h hfits (of_decide_eq_true hlists)
  | binDefine => cases h; exact readBody_binDefine hfits
  | binCount => cases h; exact readBody_binCount hfits
  | routeDefine => cases h; exact readBody_routeDefine hfits (of_decide_eq_true hlists).1 (of_decide_eq_true hlists).2
  | orderEnter => cases h; exact readBody_orderEnter hfits (of_decide_eq_true hlists)
  | truckIn => cases h; exact readBody_truckIn hfits (of_decide_eq_true hlists)
  | channelSet => cases h; exact readEnd_of_read_u8 hfits readChannel_channelItems (Instr.channelSet _)
  | formulaStep => cases h; exact readEnd_of_read_u8 hfits readStep_stepItems (Instr.formulaStep _)
  | profileSet => cases h; exact readEnd_of_read_u8 hfits readProfile_profileItems (Instr.profileSet _)
  | pressSet => cases h; exact readEnd_of_read_u8 hfits readPress_pressItems (Instr.pressSet _)
  | runQueue => cases h; exact readEnd_of_read_u8 hfits readRun_runItems (Instr.runQueue _)
  | millSet => cases h; exact readEnd_of_read (readMill_millItems hfits) (Instr.millSet _)
  | bagQueue => cases h; exact readEnd_of_read (readBag_bagItems hfits) (Instr.bagQueue _)
  | slotArm => cases h; exact readEnd_of_read (readSlot_slotItems hfits) (Instr.slotArm _)
  | _ => cases h

/-- Settles O11: the frame of a request holds the items of its fields, and these are read back (`readBody_requestItems`). -/
theorem framesAreReadBack : Obligations.FramesAreReadBack := by
  intro c f hwf hframe
  obtain ⟨⟨kind, tag, fields⟩, hitems, rfl⟩ := Option.map_eq_some_iff.1 hframe
  simp only [Instr.wf, hitems, Bool.and_eq_true, List.all_eq_true] at hwf
  obtain ⟨⟨-, hfits⟩, hlists⟩ := hwf
  exact readBody_requestItems hitems hfits hlists

end

end Sys2Proof.Machine

/-! PROOFS. The link requests, the settings store's requests and the end of a save; frames that carry no request; and what a full reset
leaves (R205, R214, R216 to R220). -/

namespace Sys2Proof.Machine

section

variable {s : State} {tag : Byte}

/-- Settles O1: `step` takes the front command off the queue and runs it. -/
theorem stepRunsTheFrontCommand : Obligations.StepRunsTheFrontCommand := by
  intro c rest s h
  rw [step, h]

/-! ### Link requests -/

theorem saving_eq_true (h : s.store.state = .saving) : s.saving = true := decide_eq_true h

theorem saving_eq_false (h : s.store.state ≠ .saving) : s.saving = false := decide_eq_false h

theorem execIdentify_accepted (hroom : s.replyRoom = true) : execIdentify tag s =
    accepted s (.identify tag) id (fun u => partName ++
      [.u8 1, .u8 (storeStateCode u.store.state), .u8 (firstCode u.store.loaded), .u32 u.link.baud]) :=
  serve_plainly hroom fun _ => rfl

theorem execLinkStatus_shown (hroom : s.replyRoom = true) :
    execLinkStatus tag 0 s = accepted s (.linkStatus tag 0) id linkItems :=
  serve_plainly hroom fun _ => rfl

/-- LINK_STATUS shows the counters as they were and clears them (R217). -/
theorem execLinkStatus_cleared (hroom : s.replyRoom = true) : execLinkStatus tag 1 s = inTurn s (.linkStatus tag 1)
    (answer ((dropFrame s).setLink { (dropFrame s).link with errors := 0, overruns := 0, breaks := 0 })
      (replyTo (.linkStatus tag 1) .ok 0 (linkItems (dropFrame s)))) :=
  serve_inTurn hroom fun htakes => serve_plain htakes rfl

theorem execRestart_accepted (hroom : s.replyRoom = true) (hsave : s.saving = false) :
    execRestart tag s = accepted s (.restart tag) id (fun _ => []) :=
  serve_plainly hroom fun l => by rw [State.setLink_saving, hsave, Bool.not_false, checked_pass, checked_nil, id_eq]

theorem execRestart_busy (hroom : s.replyRoom = true) (hsave : s.saving = true) :
    execRestart tag s = refusedWith s (.restart tag) .busy 0 :=
  serve_refused hroom fun l => by rw [State.setLink_saving, hsave, Bool.not_true, checked_fail]

/-! ### The settings store -/

theorem execSettingsSave_accepted (hroom : s.replyRoom = true) (hsave : s.saving = false) :
    execSettingsSave tag s = accepted s (.settingsSave tag) beginSave (fun _ => []) :=
  serve_plainly hroom fun l => by rw [State.setLink_saving, hsave, Bool.not_false, checked_pass, checked_nil]

theorem execSettingsSave_busy (hroom : s.replyRoom = true) (hsave : s.saving = true) :
    execSettingsSave tag s = refusedWith s (.settingsSave tag) .busy 0 :=
  serve_refused hroom fun l => by rw [State.setLink_saving, hsave, Bool.not_true, checked_fail]

/-- A save that runs ends with the copy as the image, or with none (R219). -/
theorem endSave_saving (hsave : s.saving = true) (ok : Bool) : endSave s ok =
    (s.setStore ⟨if ok then .valid else .invalid, if ok then s.store.copy else none, none, s.store.loaded⟩).raise
      (.storeResult ok) := if_pos hsave

/-- Settles O14: each request passes its check or is refused BUSY by it, and a save that runs ends as `endSave_saving` says. -/
theorem linkAndSettingsRequests : Obligations.LinkAndSettingsRequests := by
  intro s tag hroom
  refine ⟨execIdentify_accepted hroom, execLinkStatus_shown hroom, execLinkStatus_cleared hroom,
    fun h => execRestart_accepted hroom (saving_eq_false h), fun h => execSettingsSave_accepted hroom (saving_eq_false h),
    fun h => ?_⟩
  have hsave := saving_eq_true h
  exact ⟨execRestart_busy hroom hsave, execSettingsSave_busy hroom hsave, congrArg _ (endSave_saving hsave true),
    congrArg _ (endSave_saving hsave false)⟩

/-! ### Frames that carry no request -/

/-- A frame that no request row executes is answered in its turn (R214). -/
theorem execUnknownKind_answered {kind replyKind : Byte} {body : List Byte} {rest : List Frame} {code : ReplyCode}
    (hroom : s.replyRoom = true) (hqueue : s.link.rxQueue = ⟨kind, tag, body⟩ :: rest)
    (hrefusal : linkRefusal ⟨kind, tag, body⟩ = some (replyKind, code)) : execUnknownKind tag kind body s =
      .next (answer (s.setLink { s.link with rxQueue := rest }) ⟨replyKind, tag, code, 0, []⟩) := by
  have hhead : s.link.rxQueue.head? = some ⟨kind, tag, body⟩ := by rw [hqueue, List.head?_cons]
  have hdrop : dropFrame s = s.setLink { s.link with rxQueue := rest } := by rw [dropFrame, hqueue, List.tail_cons]
  simp only [execUnknownKind, hrefusal, hroom, hhead, or_true, decide_true, Bool.and_self, if_true, hdrop]

theorem linkRefusal_outside {f : Frame} (h : f.kind = 0 ∨ 0x7F ≤ f.kind) : linkRefusal f = some (0xFF, .unknownKind) := if_pos h

theorem linkRefusal_unnamed {f : Frame} (hlow : 0 < f.kind) (hhigh : f.kind < 0x7F) (h : f.kind ∉ knownKinds) :
    linkRefusal f = some (f.kind + 128, .unknownKind) := by
  have hinside : ¬(f.kind = 0 ∨ 0x7F ≤ f.kind) := not_or.2 ⟨hlow.ne', Nat.not_le.2 hhigh⟩
  have hunnamed : knownKinds.contains f.kind = false := by rwa [List.contains_eq_mem, decide_eq_false_iff_not]
  rw [linkRefusal, if_neg hinside, hunnamed, Bool.not_false, if_pos rfl]

/-- The table of R209 names kinds 0x01 to 0x6C. -/
theorem knownKinds_range : ∀ kind ∈ knownKinds, 0 < kind ∧ kind < 0x7F := by decide

theorem linkRefusal_misfit {f : Frame} (h : f.kind ∈ knownKinds) (hread : requestOf f = none) :
    linkRefusal f = some (f.kind + 128, .badLength) := by
  obtain ⟨hlow, hhigh⟩ := knownKinds_range f.kind h
  have hinside : ¬(f.kind = 0 ∨ 0x7F ≤ f.kind) := not_or.2 ⟨hlow.ne', Nat.not_le.2 hhigh⟩
  have hnamed : knownKinds.contains f.kind = true := List.contains_iff_mem.2 h
  simp only [linkRefusal, if_neg hinside, hnamed, Bool.not_true, Bool.false_eq_true, if_false, hread, Option.isNone_none, if_true]

/-- Settles O15: `linkRefusal` names the answer to each of the three kinds of frame. -/
theorem unknownFramesAreAnswered : Obligations.UnknownFramesAreAnswered := by
  intro s tag kind body rest hroom hqueue
  exact ⟨fun h => execUnknownKind_answered hroom hqueue (linkRefusal_outside h),
    fun hlow hhigh h => execUnknownKind_answered hroom hqueue (linkRefusal_unnamed hlow hhigh h),
    fun h hread => execUnknownKind_answered hroom hqueue (linkRefusal_misfit h hread)⟩

/-! ### The full reset -/

/-- A full reset starts the part with the image in force and the store VALID, or with the defaults and the store INVALID (R218,
R220). -/
theorem fullReset_eq_booted (s : State) (strapB strapA : Bool) : fullReset s strapB strapA =
    State.booted (s.store.image.getD defaultStored)
      ⟨if s.store.image.isSome then .valid else .invalid, s.store.image, none, s.store.image.isSome⟩ strapB strapA s.io.analogPins
      s.pending := by
  unfold fullReset
  cases s.store.image <;> rfl

theorem strapBaud_eq (strapB strapA : Bool) : strapBaud strapB strapA =
    if strapB then (if strapA then 230400 else 115200) else (if strapA then 57600 else 38400) := by
  cases strapB <;> cases strapA <;> rfl

section

variable {c : Stored} {store : Store} {strapB strapA : Bool} {analogPins : Table Int} {pending : List Instr}

theorem booted_bin (b : Nat) : (State.booted c store strapB strapA analogPins pending).bin b =
    (Table.get c.bins b).map (fun d => bootBin d.cfg d.inflight) := bootInventory_get b

/-- No feeder is driven after a full reset: no bin's feeder is asked on (R67, R220). -/
theorem booted_feederDriven (b : Nat) : (State.booted c store strapB strapA analogPins pending).feederDriven b = 0 := by
  unfold State.feederDriven
  rw [booted_bin]
  cases Table.get c.bins b with
  | none => rfl
  | some d => rfl

/-- Every output is off after a full reset: no feeder is driven, no role asked on and no free output set (R64, R67, R220). -/
theorem booted_outputs_off (n : Nat) : (State.booted c store strapB strapA analogPins pending).outputOn n = false ∧
    (State.booted c store strapB strapA analogPins pending).speedOut n = 0 := by
  constructor
  · unfold State.outputOn
    split
    · rw [booted_feederDriven]; rfl
    · split <;> rfl
  · unfold State.speedOut
    split
    · exact booted_feederDriven _
    · rfl

theorem booted_press (p : PressId) : ∃ cfg, (State.booted c store strapB strapA analogPins pending).pressAt p = bootPress cfg := by
  cases p with
  | one => exact ⟨_, rfl⟩
  | two => exact ⟨_, rfl⟩

/-- What a full reset leaves of a bin: its definition and its in-flight from the image, and nothing in it (R34, R218). -/
theorem booted_bin_values (image : Option Stored) (b : Nat) :
    ((State.booted (image.getD defaultStored) store strapB strapA analogPins pending).bin b).map
      (fun v => (v.cfg, v.inflight, v.onHand, v.counted, v.locked, v.lots, v.writeOff, v.feederAsk)) =
    ((image.map (fun c => Table.get c.bins b)).getD none).map (fun d => (d.cfg, d.inflight, 0, false, false, [], 0, 0)) := by
  rw [booted_bin, Option.map_map]
  cases image <;> rfl

end

/-- Settles O16: a full reset boots the part (`fullReset_eq_booted`), from the image or from the defaults. -/
theorem fullResetValues : Obligations.FullResetValues := by
  refine ⟨fun s b a => ⟨fullReset s b a, rfl, ?_⟩, fun s himage hpins hpending => ?_⟩
  · rw [fullReset_eq_booted]
    refine ⟨?_, ?_, booted_bin_values _, rfl, rfl, booted_outputs_off, rfl, rfl, rfl, ?_, rfl, rfl, ?_, rfl, rfl, rfl, fun p => ?_,
      rfl, rfl, rfl, rfl, rfl, rfl, rfl, rfl, fun k => rfl, ?_, rfl⟩
    · cases s.store.image <;> rfl
    · exact congrArg (fun baud => (⟨b, a, baud, .hunt, [], [], [], [], 0, 0, 0⟩ : Link)) (strapBaud_eq b a)
    · cases s.store.image <;> rfl
    · cases s.store.image <;> rfl
    · obtain ⟨cfg, hp⟩ := booted_press (c := s.store.image.getD defaultStored) p
      rw [hp]
      exact ⟨rfl, rfl, rfl, rfl⟩
    · cases s.store.image <;> rfl
  · refine congrArg Host.Outcome.next ((fullReset_eq_booted s false false).trans ?_)
    rw [himage, hpins, hpending]
    rfl

end

end Sys2Proof.Machine

/-! PROOFS. The passing of time on an empty queue (notes/assumptions/5.md). -/

namespace Sys2Proof.Machine

section

variable {s : State}

theorem step_of_pending_nil (h : s.pending = []) : step s = .next s.tick := by
  rw [step, h]

theorem tick_chan (sc : Scale) : s.tick.chan sc = (s.chan sc).tick := by
  cases sc <;> rfl

theorem tick_pressAt (p : PressId) : s.tick.pressAt p = (s.pressAt p).tick := by
  cases p <;> rfl

/-- The batches keep their places through a tick. -/
theorem tick_batches_getElem? {i : Nat} {b : Batch} (h : s.line.batches[i]? = some b) :
    s.tick.line.batches[i]? = some { b with timer := b.timer.map BatchTimer.tick } := by
  have hat : s.tick.line.batches[i]? =
      s.line.batches[i]?.map (fun b => { b with timer := b.timer.map BatchTimer.tick }) := List.getElem?_map
  rw [hat, h, Option.map_some]

/-- Settles O2: the step is `State.tick`, and each kind of timer goes through its own `tick`, so a clause about a timer is the
`congrArg` of what the timer was. -/
theorem emptyQueueLetsATickPass : Obligations.EmptyQueueLetsATickPass := by
  intro s hpending
  refine ⟨s.tick, step_of_pending_nil hpending, hpending, rfl, rfl, rfl, rfl, rfl, rfl, tick_chan, rfl, ?batches, ?mill, rfl,
    ?presses, ?bagger⟩
  case batches =>
    refine ⟨s.tick.line.batches, rfl, List.length_map _, fun i b hb => ⟨_, tick_batches_getElem? hb, ?_⟩⟩
    have ticks {x : Option BatchTimer} : b.timer = x → b.timer.map BatchTimer.tick = x.map BatchTimer.tick := congrArg _
    exact ⟨ticks, fun _ => ticks, fun _ => ticks, fun _ _ => ticks⟩
  case mill =>
    have ticks {x : Option MillTimer} : s.mill.timer = x → s.mill.timer.map MillTimer.tick = x.map MillTimer.tick := congrArg _
    exact ⟨_, rfl, ticks, fun _ => ticks, fun _ => ticks, fun _ => ticks, fun _ => ticks, fun _ => ticks⟩
  case presses =>
    intro p
    have ticks {x : Option PressTimer} :
        (s.pressAt p).timer = x → (s.pressAt p).timer.map PressTimer.tick = x.map PressTimer.tick := congrArg _
    exact ⟨_, tick_pressAt p, ticks, fun _ => ticks, fun _ => ticks, fun _ => ticks, fun _ => ticks⟩
  case bagger =>
    have ticks {x : Option BagTimer} : s.bag.timer = x → s.bag.timer.map BagTimer.tick = x.map BagTimer.tick := congrArg _
    exact ⟨_, rfl, ticks, fun _ => ticks, fun _ => ticks⟩

end

end Sys2Proof.Machine
